-- ==== Sys2Proof/Word.lean ====
section
/-! DEFINITION. The word types of the machine and the names of streams and message classes that instructions carry (R3, R23, R124, R410). -/

namespace Sys2Proof

/-- One byte (R3). -/
abbrev Byte := BitVec 8
/-- One instruction word, one lane register (R23, R30). -/
abbrev Word := BitVec 32
/-- One lead or handler register, one register pair, one limb (R30, R32, R160). -/
abbrev Dword := BitVec 64
/-- A six-bit register field (R30). -/
abbrev RegField := BitVec 6
/-- The five-bit guard field GD (R26). -/
abbrev GuardField := BitVec 5
/-- A set of the 64 lanes, bit i for lane i. -/
abbrev LaneMask := BitVec 64

/-- The six classes of mesh traffic (R410). -/
inductive MsgClass where
  | req | rsp | ray | hit | page | ctl
deriving DecidableEq, Repr, Inhabited

/-- The stream that issues a unit: a path of a group or hank, a lead, or a handler run, each on a core (R124, R150, R318).
A core is named by its package index Y x 48 + X (R409). -/
inductive StreamRef where
  | group (core unit path : Nat)
  | lead (core unit : Nat)
  | run (core ctx : Nat)
deriving DecidableEq, Repr, Inhabited

/-- What a packet from another package asks of this one (R418, R419). -/
inductive FabricOp where
  /-- Read `len` bytes of this package's HBM4. -/
  | read (pa len : Nat)
  /-- Write bytes to this package's HBM4. -/
  | write (pa : Nat) (bytes : List Byte)
  /-- Count one `.pod` arrival at the root (R419). -/
  | arrive (setId : BitVec 16) (id : Nat)
deriving DecidableEq, Repr, Inhabited

end Sys2Proof
end

