-- ==== Sys2Proof/Syntax.lean ====
section
/-! DEFINITION. The abstract syntax: one constructor of `Instr` per row of the opcode table (R42 and file 95).
The first 288 constructors are instruction words, with the fields of their encoding; the other 112 are the steps that
agents other than an instruction stream take, with the object each step acts on. -/

namespace Sys2Proof

/-- The steps of the machine: one constructor per row of the opcode table. -/
inductive Instr where
  /-- R36: Hint word that extends the immediate of the word it modifies. -/
  | ximmHint (x : BitVec 23)
  /-- R35: Hint word that guards its unit with any of p0-p63. -/
  | guardHint (s : BitVec 1) (p : BitVec 6)
  /-- R39: Hint word that delays its unit and may yield one issue opportunity. -/
  | schedHint (y : BitVec 1) (c : BitVec 4)
  /-- R38: Hint word that overrides rounding, saturation, C register or lease for one instruction. -/
  | modHint (l : BitVec 2) (e : BitVec 1) (c : BitVec 6) (f : BitVec 1) (s : BitVec 2) (n : BitVec 1) (r : BitVec 3)
  /-- R99: Integer addition modulo 2^w. -/
  | add (d : BitVec 6) (a : BitVec 6) (b : BitVec 6) (g : BitVec 5)
  /-- R99: Integer subtraction modulo 2^w. -/
  | sub (d : BitVec 6) (a : BitVec 6) (b : BitVec 6) (g : BitVec 5)
  /-- R99: Integer multiplication modulo 2^w. -/
  | mul (d : BitVec 6) (a : BitVec 6) (b : BitVec 6) (g : BitVec 5)
  /-- R99: High half of the signed product. -/
  | mulh (d : BitVec 6) (a : BitVec 6) (b : BitVec 6) (g : BitVec 5)
  /-- R99: High half of the natural product. -/
  | mulhn (d : BitVec 6) (a : BitVec 6) (b : BitVec 6) (g : BitVec 5)
  /-- R99: Multiply-add modulo 2^w. -/
  | mad (d : BitVec 6) (a : BitVec 6) (b : BitVec 6) (g : BitVec 5)
  /-- R99: Signed minimum. -/
  | minOp (d : BitVec 6) (a : BitVec 6) (b : BitVec 6) (g : BitVec 5)
  /-- R99: Signed maximum. -/
  | maxOp (d : BitVec 6) (a : BitVec 6) (b : BitVec 6) (g : BitVec 5)
  /-- R100: Bitwise AND. -/
  | andOp (d : BitVec 6) (a : BitVec 6) (b : BitVec 6) (g : BitVec 5)
  /-- R100: Bitwise OR. -/
  | orOp (d : BitVec 6) (a : BitVec 6) (b : BitVec 6) (g : BitVec 5)
  /-- R100: Bitwise XOR. -/
  | xorOp (d : BitVec 6) (a : BitVec 6) (b : BitVec 6) (g : BitVec 5)
  /-- R100: a AND NOT b. -/
  | andn (d : BitVec 6) (a : BitVec 6) (b : BitVec 6) (g : BitVec 5)
  /-- R100: Shift left by register. -/
  | shl (d : BitVec 6) (a : BitVec 6) (b : BitVec 6) (g : BitVec 5)
  /-- R100: Logical shift right by register. -/
  | shr (d : BitVec 6) (a : BitVec 6) (b : BitVec 6) (g : BitVec 5)
  /-- R100: Arithmetic shift right by register. -/
  | sar (d : BitVec 6) (a : BitVec 6) (b : BitVec 6) (g : BitVec 5)
  /-- R100: Rotate left by register. -/
  | rotl (d : BitVec 6) (a : BitVec 6) (b : BitVec 6) (g : BitVec 5)
  /-- R101: Natural minimum. -/
  | minn (d : BitVec 6) (a : BitVec 6) (b : BitVec 6) (g : BitVec 5)
  /-- R101: Natural maximum. -/
  | maxn (d : BitVec 6) (a : BitVec 6) (b : BitVec 6) (g : BitVec 5)
  /-- R101: Signed absolute value modulo 2^w. -/
  | absOp (d : BitVec 6) (a : BitVec 6) (g : BitVec 5)
  /-- R101: Negation modulo 2^w. -/
  | neg (d : BitVec 6) (a : BitVec 6) (g : BitVec 5)
  /-- R101: Funnel shift right of the pair (b, a). -/
  | fshr (d : BitVec 6) (a : BitVec 6) (b : BitVec 6) (g : BitVec 5)
  /-- R102: Bit-field extract. -/
  | bfx (d : BitVec 6) (a : BitVec 6) (b : BitVec 6) (g : BitVec 5)
  /-- R102: Bit-field insert. -/
  | bfi (d : BitVec 6) (a : BitVec 6) (b : BitVec 6) (g : BitVec 5)
  /-- R103: Byte permute of the pair (a, b). -/
  | bprm (d : BitVec 6) (a : BitVec 6) (b : BitVec 6) (g : BitVec 5)
  /-- R104: Population count. -/
  | popc (d : BitVec 6) (a : BitVec 6) (g : BitVec 5)
  /-- R104: Count leading zeros. -/
  | clz (d : BitVec 6) (a : BitVec 6) (g : BitVec 5)
  /-- R104: Count trailing zeros. -/
  | ctz (d : BitVec 6) (a : BitVec 6) (g : BitVec 5)
  /-- R104: Bit reverse. -/
  | brev (d : BitVec 6) (a : BitVec 6) (g : BitVec 5)
  /-- R104: Signed 32x32 product into a pair. -/
  | mulw (d : BitVec 6) (a : BitVec 6) (b : BitVec 6) (g : BitVec 5)
  /-- R104: Natural 32x32 product into a pair. -/
  | mulwn (d : BitVec 6) (a : BitVec 6) (b : BitVec 6) (g : BitVec 5)
  /-- R105: Add with carry into a pair. -/
  | addc (d : BitVec 6) (a : BitVec 6) (b : BitVec 6) (g : BitVec 5)
  /-- R105: Subtract with borrow into a pair. -/
  | subc (d : BitVec 6) (a : BitVec 6) (b : BitVec 6) (g : BitVec 5)
  /-- R106: Add a signed immediate. -/
  | addi (d : BitVec 6) (a : BitVec 6) (i : BitVec 9) (g : BitVec 5)
  /-- R106: AND with a sign-extended immediate. -/
  | andi (d : BitVec 6) (a : BitVec 6) (i : BitVec 9) (g : BitVec 5)
  /-- R106: OR with a sign-extended immediate. -/
  | ori (d : BitVec 6) (a : BitVec 6) (i : BitVec 9) (g : BitVec 5)
  /-- R106: XOR with a sign-extended immediate. -/
  | xori (d : BitVec 6) (a : BitVec 6) (i : BitVec 9) (g : BitVec 5)
  /-- R107: Shift or rotate by an immediate amount of the kind in IMM9 bits 8:6. -/
  | shi (d : BitVec 6) (a : BitVec 6) (k : BitVec 2) (n : BitVec 6) (g : BitVec 5)
  /-- R108: Load a sign-extended immediate. -/
  | limm (d : BitVec 6) (i : BitVec 15) (g : BitVec 5)
  /-- R109: Register move. -/
  | mov (d : BitVec 6) (a : BitVec 6) (g : BitVec 5)
  /-- R110: Select A or B by the predicate named in GD. -/
  | sel (d : BitVec 6) (a : BitVec 6) (b : BitVec 6) (s : BitVec 5)
  /-- R109: Sign-extend a byte. -/
  | sxb (d : BitVec 6) (a : BitVec 6) (g : BitVec 5)
  /-- R109: Sign-extend a half-word. -/
  | sxh (d : BitVec 6) (a : BitVec 6) (g : BitVec 5)
  /-- R109: Zero-extend a byte. -/
  | zxb (d : BitVec 6) (a : BitVec 6) (g : BitVec 5)
  /-- R109: Zero-extend a half-word. -/
  | zxh (d : BitVec 6) (a : BitVec 6) (g : BitVec 5)
  /-- R111: Read MODE into a pair. -/
  | moder (d : BitVec 6) (g : BitVec 5)
  /-- R111: Write MODE and optionally SEED, reseeding the generators. -/
  | modew (a : BitVec 6) (b : BitVec 6) (g : BitVec 5)
  /-- R112: Integer compare for equality into a predicate. -/
  | icmpEq (p : BitVec 6) (a : BitVec 6) (b : BitVec 6) (g : BitVec 5)
  /-- R112: Integer compare for inequality. -/
  | icmpNe (p : BitVec 6) (a : BitVec 6) (b : BitVec 6) (g : BitVec 5)
  /-- R112: Signed less-than compare. -/
  | icmpLt (p : BitVec 6) (a : BitVec 6) (b : BitVec 6) (g : BitVec 5)
  /-- R112: Signed less-or-equal compare. -/
  | icmpLe (p : BitVec 6) (a : BitVec 6) (b : BitVec 6) (g : BitVec 5)
  /-- R112: Natural less-than compare. -/
  | icmpLtn (p : BitVec 6) (a : BitVec 6) (b : BitVec 6) (g : BitVec 5)
  /-- R112: Natural less-or-equal compare. -/
  | icmpLen (p : BitVec 6) (a : BitVec 6) (b : BitVec 6) (g : BitVec 5)
  /-- R112: True when a AND b is non-zero. -/
  | icmpBits (p : BitVec 6) (a : BitVec 6) (b : BitVec 6) (g : BitVec 5)
  /-- R112: True when a AND b is zero. -/
  | icmpNone (p : BitVec 6) (a : BitVec 6) (b : BitVec 6) (g : BitVec 5)
  /-- R113: Binary32 ordered equal compare. -/
  | fcmpEq (p : BitVec 6) (a : BitVec 6) (b : BitVec 6) (g : BitVec 5)
  /-- R113: Binary32 unordered-or-not-equal compare. -/
  | fcmpNe (p : BitVec 6) (a : BitVec 6) (b : BitVec 6) (g : BitVec 5)
  /-- R113: Binary32 ordered less-than compare. -/
  | fcmpLt (p : BitVec 6) (a : BitVec 6) (b : BitVec 6) (g : BitVec 5)
  /-- R113: Binary32 ordered less-or-equal compare. -/
  | fcmpLe (p : BitVec 6) (a : BitVec 6) (b : BitVec 6) (g : BitVec 5)
  /-- R113: Binary32 ordered greater-than compare. -/
  | fcmpGt (p : BitVec 6) (a : BitVec 6) (b : BitVec 6) (g : BitVec 5)
  /-- R113: Binary32 ordered greater-or-equal compare. -/
  | fcmpGe (p : BitVec 6) (a : BitVec 6) (b : BitVec 6) (g : BitVec 5)
  /-- R113: Binary32 unordered test. -/
  | fcmpUn (p : BitVec 6) (a : BitVec 6) (b : BitVec 6) (g : BitVec 5)
  /-- R113: Binary32 ordered test. -/
  | fcmpOrd (p : BitVec 6) (a : BitVec 6) (b : BitVec 6) (g : BitVec 5)
  /-- R113: Binary64 ordered equal compare. -/
  | dcmpEq (p : BitVec 6) (a : BitVec 6) (b : BitVec 6) (g : BitVec 5)
  /-- R113: Binary64 unordered-or-not-equal compare. -/
  | dcmpNe (p : BitVec 6) (a : BitVec 6) (b : BitVec 6) (g : BitVec 5)
  /-- R113: Binary64 ordered less-than compare. -/
  | dcmpLt (p : BitVec 6) (a : BitVec 6) (b : BitVec 6) (g : BitVec 5)
  /-- R113: Binary64 ordered less-or-equal compare. -/
  | dcmpLe (p : BitVec 6) (a : BitVec 6) (b : BitVec 6) (g : BitVec 5)
  /-- R113: Binary64 ordered greater-than compare. -/
  | dcmpGt (p : BitVec 6) (a : BitVec 6) (b : BitVec 6) (g : BitVec 5)
  /-- R113: Binary64 ordered greater-or-equal compare. -/
  | dcmpGe (p : BitVec 6) (a : BitVec 6) (b : BitVec 6) (g : BitVec 5)
  /-- R113: Binary64 unordered test. -/
  | dcmpUn (p : BitVec 6) (a : BitVec 6) (b : BitVec 6) (g : BitVec 5)
  /-- R113: Binary64 ordered test. -/
  | dcmpOrd (p : BitVec 6) (a : BitVec 6) (b : BitVec 6) (g : BitVec 5)
  /-- R114: Predicate AND. -/
  | plopAnd (p : BitVec 6) (a : BitVec 6) (b : BitVec 6) (g : BitVec 5)
  /-- R114: Predicate OR. -/
  | plopOr (p : BitVec 6) (a : BitVec 6) (b : BitVec 6) (g : BitVec 5)
  /-- R114: Predicate XOR. -/
  | plopXor (p : BitVec 6) (a : BitVec 6) (b : BitVec 6) (g : BitVec 5)
  /-- R114: Predicate AND NOT. -/
  | plopAndn (p : BitVec 6) (a : BitVec 6) (b : BitVec 6) (g : BitVec 5)
  /-- R114: Predicate OR NOT. -/
  | plopOrn (p : BitVec 6) (a : BitVec 6) (b : BitVec 6) (g : BitVec 5)
  /-- R114: Predicate NAND. -/
  | plopNand (p : BitVec 6) (a : BitVec 6) (b : BitVec 6) (g : BitVec 5)
  /-- R114: Predicate NOR. -/
  | plopNor (p : BitVec 6) (a : BitVec 6) (b : BitVec 6) (g : BitVec 5)
  /-- R114: Predicate XNOR. -/
  | plopXnor (p : BitVec 6) (a : BitVec 6) (b : BitVec 6) (g : BitVec 5)
  /-- R115: Predicate to register. -/
  | p2g (d : BitVec 6) (p : BitVec 6) (g : BitVec 5)
  /-- R115: Register to predicate. -/
  | g2p (p : BitVec 6) (a : BitVec 6) (g : BitVec 5)
  /-- R116: 64-bit mask of active lanes with a true predicate. -/
  | ballot (d : BitVec 6) (p : BitVec 6) (g : BitVec 5)
  /-- R116: Vote: predicate true in some active lane. -/
  | anyOp (q : BitVec 6) (p : BitVec 6) (g : BitVec 5)
  /-- R116: Vote: predicate true in every active lane. -/
  | allOp (q : BitVec 6) (p : BitVec 6) (g : BitVec 5)
  /-- R116: Vote: register uniform over active lanes. -/
  | uni (p : BitVec 6) (a : BitVec 6) (g : BitVec 5)
  /-- R115: Read 32 predicates into a register. -/
  | pgetw (d : BitVec 6) (n : BitVec 6) (g : BitVec 5)
  /-- R115: Write 32 predicates from a register. -/
  | psetw (a : BitVec 6) (n : BitVec 6) (g : BitVec 5)
  /-- R82: Binary32 addition. -/
  | fadd (d : BitVec 6) (a : BitVec 6) (b : BitVec 6) (g : BitVec 5)
  /-- R82: Binary32 subtraction. -/
  | fsub (d : BitVec 6) (a : BitVec 6) (b : BitVec 6) (g : BitVec 5)
  /-- R82: Binary32 multiplication. -/
  | fmul (d : BitVec 6) (a : BitVec 6) (b : BitVec 6) (g : BitVec 5)
  /-- R82: Binary32 fused multiply-add. -/
  | ffma (d : BitVec 6) (a : BitVec 6) (b : BitVec 6) (g : BitVec 5)
  /-- R82: Binary32 fused multiply-subtract. -/
  | ffms (d : BitVec 6) (a : BitVec 6) (b : BitVec 6) (g : BitVec 5)
  /-- R84: Binary32 minimumNumber. -/
  | fmin (d : BitVec 6) (a : BitVec 6) (b : BitVec 6) (g : BitVec 5)
  /-- R84: Binary32 maximumNumber. -/
  | fmax (d : BitVec 6) (a : BitVec 6) (b : BitVec 6) (g : BitVec 5)
  /-- R85: Binary32 sign operation selected by B. -/
  | fabsn (d : BitVec 6) (a : BitVec 6) (o : BitVec 6) (g : BitVec 5)
  /-- R86: Correctly rounded binary32 reciprocal. -/
  | frcp (d : BitVec 6) (a : BitVec 6) (g : BitVec 5)
  /-- R86: Correctly rounded reciprocal square root. -/
  | frsq (d : BitVec 6) (a : BitVec 6) (g : BitVec 5)
  /-- R86: Binary32 square root under ARND. -/
  | fsqrt (d : BitVec 6) (a : BitVec 6) (g : BitVec 5)
  /-- R86: Correctly rounded 2^a. -/
  | fex2 (d : BitVec 6) (a : BitVec 6) (g : BitVec 5)
  /-- R86: Correctly rounded log2 a. -/
  | flg2 (d : BitVec 6) (a : BitVec 6) (g : BitVec 5)
  /-- R86: Correctly rounded sine. -/
  | fsin (d : BitVec 6) (a : BitVec 6) (g : BitVec 5)
  /-- R86: Correctly rounded cosine. -/
  | fcos (d : BitVec 6) (a : BitVec 6) (g : BitVec 5)
  /-- R86: Round to an integral binary32 value. -/
  | frint (d : BitVec 6) (a : BitVec 6) (g : BitVec 5)
  /-- R88: Binary64 addition. -/
  | dadd (d : BitVec 6) (a : BitVec 6) (b : BitVec 6) (g : BitVec 5)
  /-- R88: Binary64 subtraction. -/
  | dsub (d : BitVec 6) (a : BitVec 6) (b : BitVec 6) (g : BitVec 5)
  /-- R88: Binary64 multiplication. -/
  | dmul (d : BitVec 6) (a : BitVec 6) (b : BitVec 6) (g : BitVec 5)
  /-- R88: Binary64 fused multiply-add. -/
  | dfma (d : BitVec 6) (a : BitVec 6) (b : BitVec 6) (g : BitVec 5)
  /-- R88: Binary64 minimumNumber. -/
  | dmin (d : BitVec 6) (a : BitVec 6) (b : BitVec 6) (g : BitVec 5)
  /-- R88: Binary64 maximumNumber. -/
  | dmax (d : BitVec 6) (a : BitVec 6) (b : BitVec 6) (g : BitVec 5)
  /-- R88: Binary64 sign operation. -/
  | dabsn (d : BitVec 6) (a : BitVec 6) (o : BitVec 6) (g : BitVec 5)
  /-- R88: Binary64 square root. -/
  | dsqrt (d : BitVec 6) (a : BitVec 6) (g : BitVec 5)
  /-- R89: Packed binary16 addition. -/
  | hadd2 (d : BitVec 6) (a : BitVec 6) (b : BitVec 6) (g : BitVec 5)
  /-- R89: Packed binary16 multiplication. -/
  | hmul2 (d : BitVec 6) (a : BitVec 6) (b : BitVec 6) (g : BitVec 5)
  /-- R89: Packed binary16 fused multiply-add. -/
  | hfma2 (d : BitVec 6) (a : BitVec 6) (b : BitVec 6) (g : BitVec 5)
  /-- R89: Packed binary16 maximum. -/
  | hmax2 (d : BitVec 6) (a : BitVec 6) (b : BitVec 6) (g : BitVec 5)
  /-- R89: Packed bfloat16 addition. -/
  | badd2 (d : BitVec 6) (a : BitVec 6) (b : BitVec 6) (g : BitVec 5)
  /-- R89: Packed bfloat16 multiplication. -/
  | bmul2 (d : BitVec 6) (a : BitVec 6) (b : BitVec 6) (g : BitVec 5)
  /-- R89: Packed bfloat16 fused multiply-add. -/
  | bfma2 (d : BitVec 6) (a : BitVec 6) (b : BitVec 6) (g : BitVec 5)
  /-- R89: Packed bfloat16 maximum. -/
  | bmax2 (d : BitVec 6) (a : BitVec 6) (b : BitVec 6) (g : BitVec 5)
  /-- R91: Binary32 to signed integer. -/
  | f2i (d : BitVec 6) (a : BitVec 6) (g : BitVec 5)
  /-- R92: Signed integer to binary32. -/
  | i2f (d : BitVec 6) (a : BitVec 6) (g : BitVec 5)
  /-- R91: Binary32 to natural integer. -/
  | f2n (d : BitVec 6) (a : BitVec 6) (g : BitVec 5)
  /-- R92: Natural integer to binary32. -/
  | n2f (d : BitVec 6) (a : BitVec 6) (g : BitVec 5)
  /-- R92: Binary32 to binary64 pair, exact. -/
  | f2d (d : BitVec 6) (a : BitVec 6) (g : BitVec 5)
  /-- R92: Binary64 pair to binary32. -/
  | d2f (d : BitVec 6) (a : BitVec 6) (g : BitVec 5)
  /-- R92: Two binary32 to packed binary16. -/
  | f2h2 (d : BitVec 6) (a : BitVec 6) (b : BitVec 6) (g : BitVec 5)
  /-- R92: Two binary32 to packed bfloat16. -/
  | f2b2 (d : BitVec 6) (a : BitVec 6) (b : BitVec 6) (g : BitVec 5)
  /-- R92: Packed binary16 to binary32 pair. -/
  | h2f (d : BitVec 6) (a : BitVec 6) (g : BitVec 5)
  /-- R92: Packed bfloat16 to binary32 pair. -/
  | b2f (d : BitVec 6) (a : BitVec 6) (g : BitVec 5)
  /-- R91: Binary64 pair to signed integer. -/
  | d2i (d : BitVec 6) (a : BitVec 6) (g : BitVec 5)
  /-- R92: Signed integer to binary64 pair. -/
  | i2d (d : BitVec 6) (a : BitVec 6) (g : BitVec 5)
  /-- R93: Four binary32 values to four Bend8 bytes. -/
  | f2k (d : BitVec 6) (a : BitVec 6) (b : BitVec 6) (g : BitVec 5)
  /-- R94: Two Bend8 bytes to a binary32 pair. -/
  | k2f (d : BitVec 6) (a : BitVec 6) (h : BitVec 6) (g : BitVec 5)
  /-- R118: Shuffle by per-lane index. -/
  | shfli (d : BitVec 6) (a : BitVec 6) (b : BitVec 6) (g : BitVec 5)
  /-- R118: Shuffle up by k. -/
  | shflu (d : BitVec 6) (a : BitVec 6) (k : BitVec 6) (g : BitVec 5)
  /-- R118: Shuffle down by k. -/
  | shfld (d : BitVec 6) (a : BitVec 6) (k : BitVec 6) (g : BitVec 5)
  /-- R118: Shuffle by XOR with k. -/
  | shflx (d : BitVec 6) (a : BitVec 6) (k : BitVec 6) (g : BitVec 5)
  /-- R119: Mask of earlier active lanes with an equal value. -/
  | confl (d : BitVec 6) (a : BitVec 6) (g : BitVec 5)
  /-- R119: Mask of all active lanes with an equal value. -/
  | matchOp (d : BitVec 6) (a : BitVec 6) (g : BitVec 5)
  /-- R118: Broadcast lane k's value. -/
  | bcast (d : BitVec 6) (a : BitVec 6) (k : BitVec 6) (g : BitVec 5)
  /-- R120: Integer sum reduction. -/
  | iredadd (d : BitVec 6) (a : BitVec 6) (g : BitVec 5)
  /-- R120: Signed minimum reduction. -/
  | iredmin (d : BitVec 6) (a : BitVec 6) (g : BitVec 5)
  /-- R120: Signed maximum reduction. -/
  | iredmax (d : BitVec 6) (a : BitVec 6) (g : BitVec 5)
  /-- R120: OR reduction. -/
  | iredor (d : BitVec 6) (a : BitVec 6) (g : BitVec 5)
  /-- R120: AND reduction. -/
  | iredand (d : BitVec 6) (a : BitVec 6) (g : BitVec 5)
  /-- R78: Binary32 sum over the fixed tree. -/
  | fredadd (d : BitVec 6) (a : BitVec 6) (g : BitVec 5)
  /-- R78: Binary32 minimum reduction. -/
  | fredmin (d : BitVec 6) (a : BitVec 6) (g : BitVec 5)
  /-- R78: Binary32 maximum reduction. -/
  | fredmax (d : BitVec 6) (a : BitVec 6) (g : BitVec 5)
  /-- R121: Inclusive integer prefix sum. -/
  | iscan (d : BitVec 6) (a : BitVec 6) (g : BitVec 5)
  /-- R121: Exclusive integer prefix sum. -/
  | iscanx (d : BitVec 6) (a : BitVec 6) (g : BitVec 5)
  /-- R121: Inclusive binary32 prefix sum. -/
  | fscan (d : BitVec 6) (a : BitVec 6) (g : BitVec 5)
  /-- R121: Exclusive binary32 prefix sum. -/
  | fscanx (d : BitVec 6) (a : BitVec 6) (g : BitVec 5)
  /-- R121: Inclusive signed maximum scan. -/
  | iscanmax (d : BitVec 6) (a : BitVec 6) (g : BitVec 5)
  /-- R121: Inclusive OR scan. -/
  | iscanor (d : BitVec 6) (a : BitVec 6) (g : BitVec 5)
  /-- R168: Bind the group's lanes into lanyard segments. -/
  | lbind (a : BitVec 6) (k : BitVec 6) (g : BitVec 5)
  /-- R168: Unbind every lanyard segment. -/
  | lfree (g : BitVec 5)
  /-- R167: Lanyard addition. -/
  | ladd (d : BitVec 6) (a : BitVec 6) (b : BitVec 6) (g : BitVec 5)
  /-- R167: Lanyard subtraction. -/
  | lsub (d : BitVec 6) (a : BitVec 6) (b : BitVec 6) (g : BitVec 5)
  /-- R167: Lanyard negation. -/
  | lneg (d : BitVec 6) (a : BitVec 6) (g : BitVec 5)
  /-- R167: Lanyard shift left. -/
  | lshl (d : BitVec 6) (a : BitVec 6) (b : BitVec 6) (g : BitVec 5)
  /-- R167: Lanyard arithmetic shift right. -/
  | lshr (d : BitVec 6) (a : BitVec 6) (b : BitVec 6) (g : BitVec 5)
  /-- R167: Lanyard signed compare, broadcast. -/
  | lcmp (d : BitVec 6) (a : BitVec 6) (b : BitVec 6) (g : BitVec 5)
  /-- R167: Lanyard times a signed scalar. -/
  | lmuls (d : BitVec 6) (a : BitVec 6) (b : BitVec 6) (g : BitVec 5)
  /-- R169: Deposit binary32 values exactly at the binary point. -/
  | ldep (d : BitVec 6) (a : BitVec 6) (g : BitVec 5)
  /-- R169: Deposit binary64 values exactly at the binary point. -/
  | ldepd (d : BitVec 6) (a : BitVec 6) (g : BitVec 5)
  /-- R170: Round a segment to binary32, broadcast. -/
  | lrnd (d : BitVec 6) (a : BitVec 6) (g : BitVec 5)
  /-- R170: Round a segment to binary64, broadcast. -/
  | lrndd (d : BitVec 6) (a : BitVec 6) (g : BitVec 5)
  /-- R167: Broadcast the significant width of a segment. -/
  | ltop (d : BitVec 6) (a : BitVec 6) (g : BitVec 5)
  /-- R162: Read each segment's status word. -/
  | lstat (d : BitVec 6) (g : BitVec 5)
  /-- R167: Clear sticky lanyard flags by mask. -/
  | lclr (m : BitVec 6) (g : BitVec 5)
  /-- R138: Direct branch, dividing the path where lanes differ. -/
  | bra (o : BitVec 18) (g : BitVec 5)
  /-- R138: Direct call setting the link register. -/
  | call (o : BitVec 18) (g : BitVec 5)
  /-- R131: Push a join-stack entry. -/
  | split (o : BitVec 18) (g : BitVec 5)
  /-- R132: Park at the region's join; resume when all members arrive. -/
  | join (g : BitVec 5)
  /-- R133: Break out of n divergent regions. -/
  | brk (n : BitVec 4) (o : BitVec 14) (g : BitVec 5)
  /-- R451: Give up one issue opportunity. -/
  | yield (g : BitVec 5)
  /-- R140: End lanes, a lead or hank strands. -/
  | endOp (g : BitVec 5)
  /-- R138: No operation. -/
  | nop (g : BitVec 5)
  /-- R139: Indirect jump. -/
  | jmp (a : BitVec 6) (g : BitVec 5)
  /-- R139: Indirect call. -/
  | callr (d : BitVec 6) (a : BitVec 6) (g : BitVec 5)
  /-- R139: Indirect return. -/
  | ret (a : BitVec 6) (g : BitVec 5)
  /-- R145: File active strands into bins by next offset. -/
  | reform (a : BitVec 6) (n : BitVec 6) (g : BitVec 5)
  /-- R141: Push a hardware loop frame or skip the body. -/
  | loop (a : BitVec 6) (n : BitVec 6) (g : BitVec 5)
  /-- R143: Issue the next unit n times. -/
  | repeatOp (n : BitVec 6) (g : BitVec 5)
  /-- R152: Map a queue register to an endpoint. -/
  | qmap (d : BitVec 6) (a : BitVec 6) (b : BitVec 6) (g : BitVec 5)
  /-- R156: Read a queue register's status. -/
  | qstat (d : BitVec 6) (a : BitVec 6) (g : BitVec 5)
  /-- R196: Load from local space. -/
  | ldl (t : BitVec 6) (b : BitVec 6) (o : BitVec 7) (s : BitVec 2) (g : BitVec 5)
  /-- R196: Store to local space. -/
  | stl (t : BitVec 6) (b : BitVec 6) (o : BitVec 7) (s : BitVec 2) (g : BitVec 5)
  /-- R196: Load from cluster space. -/
  | ldc (t : BitVec 6) (b : BitVec 6) (o : BitVec 7) (s : BitVec 2) (g : BitVec 5)
  /-- R196: Store to cluster space. -/
  | stc (t : BitVec 6) (b : BitVec 6) (o : BitVec 7) (s : BitVec 2) (g : BitVec 5)
  /-- R197: Atomic add. -/
  | aadd (d : BitVec 6) (a : BitVec 6) (b : BitVec 6) (g : BitVec 5)
  /-- R197: Atomic signed minimum. -/
  | amin (d : BitVec 6) (a : BitVec 6) (b : BitVec 6) (g : BitVec 5)
  /-- R197: Atomic signed maximum. -/
  | amax (d : BitVec 6) (a : BitVec 6) (b : BitVec 6) (g : BitVec 5)
  /-- R197: Atomic AND. -/
  | aand (d : BitVec 6) (a : BitVec 6) (b : BitVec 6) (g : BitVec 5)
  /-- R197: Atomic OR. -/
  | aor (d : BitVec 6) (a : BitVec 6) (b : BitVec 6) (g : BitVec 5)
  /-- R197: Atomic XOR. -/
  | axor (d : BitVec 6) (a : BitVec 6) (b : BitVec 6) (g : BitVec 5)
  /-- R197: Atomic exchange. -/
  | axch (d : BitVec 6) (a : BitVec 6) (b : BitVec 6) (g : BitVec 5)
  /-- R197: Atomic binary32 add, RN. -/
  | afadd (d : BitVec 6) (a : BitVec 6) (b : BitVec 6) (g : BitVec 5)
  /-- R198: Atomic compare and swap. -/
  | acas (d : BitVec 6) (a : BitVec 6) (b : BitVec 6) (g : BitVec 5)
  /-- R199: Register interest in a line at its home. -/
  | watch (a : BitVec 6) (g : BitVec 5)
  /-- R199: Release a watch. -/
  | unwatch (a : BitVec 6) (g : BitVec 5)
  /-- R200: Wait until a word differs from b. -/
  | waitw (d : BitVec 6) (a : BitVec 6) (b : BitVec 6) (g : BitVec 5)
  /-- R200: Wait until a word reaches b modulo 2^32. -/
  | waitge (d : BitVec 6) (a : BitVec 6) (b : BitVec 6) (g : BitVec 5)
  /-- R202: Wait until older stores, atomics and sends complete. -/
  | fence (g : BitVec 5)
  /-- R202: Indexed word load. -/
  | ldx (d : BitVec 6) (a : BitVec 6) (b : BitVec 6) (g : BitVec 5)
  /-- R202: Indexed word store. -/
  | stx (d : BitVec 6) (a : BitVec 6) (b : BitVec 6) (g : BitVec 5)
  /-- R203: Compacted store of active lanes, completing in part on a bound. -/
  | cstr (d : BitVec 6) (a : BitVec 6) (b : BitVec 6) (g : BitVec 5)
  /-- R204: Expanding load by active-lane rank. -/
  | xlde (d : BitVec 6) (a : BitVec 6) (g : BitVec 5)
  /-- R205: Transposing 8x8 block load. -/
  | ldt (d : BitVec 6) (a : BitVec 6) (b : BitVec 6) (g : BitVec 5)
  /-- R206: Load one 64-byte block and select a word per lane. -/
  | bldl (d : BitVec 6) (a : BitVec 6) (b : BitVec 6) (g : BitVec 5)
  /-- R256: Queue a copy from virtual memory to a local buffer. -/
  | haul (a : BitVec 6) (b : BitVec 6) (q : BitVec 2) (g : BitVec 5)
  /-- R256: Queue a copy from a local buffer to virtual memory. -/
  | stow (a : BitVec 6) (b : BitVec 6) (q : BitVec 2) (g : BitVec 5)
  /-- R256: HAUL with a far counter. -/
  | haul2 (a : BitVec 6) (b : BitVec 6) (q : BitVec 2) (g : BitVec 5)
  /-- R256: STOW with a far counter. -/
  | stow2 (a : BitVec 6) (b : BitVec 6) (q : BitVec 2) (g : BitVec 5)
  /-- R257: Queue a fill of operand slots from virtual memory. -/
  | hault (a : BitVec 6) (b : BitVec 6) (q : BitVec 2) (g : BitVec 5)
  /-- R261: Place a join entry across engine queues. -/
  | qfence (m : BitVec 4) (g : BitVec 5)
  /-- R258: Queue an entry that adds to a counter. -/
  | cbump (a : BitVec 6) (b : BitVec 6) (q : BitVec 2) (g : BitVec 5)
  /-- R259: Read queue status and optionally clear a faulted queue. -/
  | xstat (a : BitVec 6) (q : BitVec 2) (g : BitVec 5)
  /-- R269: Reserve and initialise a run of slots. -/
  | claim (a : BitVec 6) (b : BitVec 6) (g : BitVec 5)
  /-- R286: Free a reservation once idle. -/
  | release (a : BitVec 6) (g : BitVec 5)
  /-- R284: Read a slot's status. -/
  | tstat (a : BitVec 6) (s : BitVec 6) (g : BitVec 5)
  /-- R272: Copy rows from local or cluster space into slots. -/
  | tfill (a : BitVec 6) (b : BitVec 6) (g : BitVec 5)
  /-- R272: Copy rows from slots to local or cluster space. -/
  | tdrain (a : BitVec 6) (b : BitVec 6) (g : BitVec 5)
  /-- R273: Convert lane registers into one slot row chunk. -/
  | cvtom (a : BitVec 6) (s : BitVec 6) (c : BitVec 4) (g : BitVec 5)
  /-- R275: Zero an accumulator. -/
  | accz (c : BitVec 2) (g : BitVec 5)
  /-- R275: Read accumulator elements into lane registers. -/
  | accrd (a : BitVec 6) (h : BitVec 3) (c : BitVec 2) (g : BitVec 5)
  /-- R275: Write accumulator elements from lane registers. -/
  | accwr (a : BitVec 6) (h : BitVec 3) (c : BitVec 2) (g : BitVec 5)
  /-- R281: Close the open batch and return its number. -/
  | commit (a : BitVec 6) (g : BitVec 5)
  /-- R281: Wait until a batch has completed. -/
  | waitb (a : BitVec 6) (g : BitVec 5)
  /-- R282: Arm a slot exchange with a partner core. -/
  | splice (s : BitVec 6) (m : BitVec 2) (g : BitVec 5)
  /-- R277: Matrix step into an accumulator. -/
  | mma (a : BitVec 6) (b : BitVec 6) (c : BitVec 2) (g : BitVec 5)
  /-- R277: Matrix step written transposed. -/
  | mmat (a : BitVec 6) (b : BitVec 6) (c : BitVec 2) (g : BitVec 5)
  /-- R278: Structured 2-of-4 sparse matrix step. -/
  | mmss (a : BitVec 6) (b : BitVec 6) (q : BitVec 2) (c : BitVec 2) (g : BitVec 5)
  /-- R296: Sparse matrix step through the fid, WAIT or GO form. -/
  | mmas (a : BitVec 6) (b : BitVec 6) (t : BitVec 1) (f : BitVec 1) (c : BitVec 2) (g : BitVec 5)
  /-- R300: Read a slot's fid record. -/
  | pstat (a : BitVec 6) (s : BitVec 6) (g : BitVec 5)
  /-- R301: Make a slot's fid record absent. -/
  | pinv (s : BitVec 6) (g : BitVec 5)
  /-- R304: Gather table words by index from their owners. -/
  | gather (d : BitVec 6) (a : BitVec 6) (b : BitVec 6) (g : BitVec 5)
  /-- R305: Scatter values by index, last lane wins. -/
  | scatter (d : BitVec 6) (a : BitVec 6) (b : BitVec 6) (g : BitVec 5)
  /-- R305: Scatter-add integers. -/
  | scadd (d : BitVec 6) (a : BitVec 6) (b : BitVec 6) (g : BitVec 5)
  /-- R305: Scatter-add binary32 values. -/
  | scfadd (d : BitVec 6) (a : BitVec 6) (b : BitVec 6) (g : BitVec 5)
  /-- R305: Scatter signed minimum. -/
  | scmin (d : BitVec 6) (a : BitVec 6) (b : BitVec 6) (g : BitVec 5)
  /-- R305: Scatter signed maximum. -/
  | scmax (d : BitVec 6) (a : BitVec 6) (b : BitVec 6) (g : BitVec 5)
  /-- R308: Insert or accumulate keys in a local hash table. -/
  | hacc (d : BitVec 6) (a : BitVec 6) (b : BitVec 6) (g : BitVec 5)
  /-- R309: Look up keys in a local hash table. -/
  | hfind (d : BitVec 6) (a : BitVec 6) (b : BitVec 6) (g : BitVec 5)
  /-- R331: Send an active message. -/
  | send (a : BitVec 6) (b : BitVec 6) (g : BitVec 5)
  /-- R330: Bind a handler identifier. -/
  | hbind (a : BitVec 6) (b : BitVec 6) (g : BitVec 5)
  /-- R330: Unbind a handler identifier. -/
  | hunbind (a : BitVec 6) (g : BitVec 5)
  /-- R321: End a handler run, releasing its send buffer. -/
  | hdone (g : BitVec 5)
  /-- R326: Post a value to a mailbox. -/
  | mpost (a : BitVec 6) (b : BitVec 6) (m : BitVec 5) (g : BitVec 5)
  /-- R327: Wait for and take a mailbox value. -/
  | mtake (a : BitVec 6) (m : BitVec 5) (g : BitVec 5)
  /-- R328: Open a masked window in a low-priority run. -/
  | maskon (g : BitVec 5)
  /-- R328: Close the masked window. -/
  | maskoff (g : BitVec 5)
  /-- R330: Halve a ray's weight share. -/
  | wsplit (a : BitVec 6) (g : BitVec 5)
  /-- R330: Return a weight amount to the generator word. -/
  | wret (a : BitVec 6) (b : BitVec 6) (g : BitVec 5)
  /-- R359: Send a ray, direct or as a directory ray. -/
  | rsend (a : BitVec 6) (b : BitVec 6) (g : BitVec 5)
  /-- R360: Load a ray from local space. -/
  | rld (a : BitVec 6) (b : BitVec 6) (g : BitVec 5)
  /-- R338: Test a ray against a node's four child boxes. -/
  | rbox4 (a : BitVec 6) (b : BitVec 6) (f : BitVec 5) (g : BitVec 5)
  /-- R340: Watertight ray-triangle test. -/
  | rtri (a : BitVec 6) (b : BitVec 6) (f : BitVec 5) (g : BitVec 5)
  /-- R363: Send a hit record on the HIT class. -/
  | rhit (a : BitVec 6) (b : BitVec 6) (g : BitVec 5)
  /-- R364: Look up a treelet's owner. -/
  | town (a : BitVec 6) (b : BitVec 6) (g : BitVec 5)
  /-- R365: Ask for a treelet to be pinned in a frame. -/
  | tpin (a : BitVec 6) (b : BitVec 6) (g : BitVec 5)
  /-- R366: Free a treelet frame. -/
  | tevict (a : BitVec 6) (g : BitVec 5)
  /-- R214: Arrive at a barrier and wait for its point. -/
  | bar (i : BitVec 6) (s : BitVec 3) (g : BitVec 5)
  /-- R214: Arrive at a barrier and return a token. -/
  | bara (a : BitVec 6) (i : BitVec 6) (s : BitVec 3) (g : BitVec 5)
  /-- R214: Wait for the barrier generation after a token. -/
  | barw (a : BitVec 6) (i : BitVec 6) (s : BitVec 3) (g : BitVec 5)
  /-- R215: Set a barrier's expected count. -/
  | barinit (a : BitVec 6) (i : BitVec 6) (s : BitVec 3) (g : BitVec 5)
  /-- R216: Barrier that sums event counters over the instance. -/
  | cntsum (a : BitVec 6) (i : BitVec 6) (s : BitVec 3) (g : BitVec 5)
  /-- R383: Read a launch record and create a kernel launch. -/
  | launch (a : BitVec 6) (b : BitVec 6) (g : BitVec 5)
  /-- R384: Wait for a launch to end and read its status. -/
  | kwait (a : BitVec 6) (g : BitVec 5)
  /-- R384: Read a launch's status. -/
  | kstat (a : BitVec 6) (b : BitVec 6) (g : BitVec 5)
  /-- R406: Raise TRAP_SW. -/
  | trap (g : BitVec 5)
  /-- R398: End a trap, reloading spill records, optionally skipping the unit. -/
  | rte (g : BitVec 5)
  /-- R407: Read a system register. -/
  | sysr (a : BitVec 6) (g : BitVec 5)
  /-- R407: Write a system register. -/
  | sysw (a : BitVec 6) (g : BitVec 5)
  /-- R237: Write back dirty L2 lines in a range. -/
  | l2wb (a : BitVec 6) (b : BitVec 6) (g : BitVec 5)
  /-- R237: Drop L2 lines in a range, optionally writing back. -/
  | l2inv (a : BitVec 6) (b : BitVec 6) (g : BitVec 5)
  /-- R238: Drop cached translations and retry or refuse stalled pieces. -/
  | tsinv (a : BitVec 6) (b : BitVec 6) (g : BitVec 5)
  /-- R239: Pin local-store pages. -/
  | lspin (a : BitVec 6) (b : BitVec 6) (g : BitVec 5)
  /-- R239: Unpin local-store pages. -/
  | lsunpin (a : BitVec 6) (b : BitVec 6) (g : BitVec 5)
  /-- R399: End the trapped group or fault the context. -/
  | halt (a : BitVec 6) (g : BitVec 5)
  /-- R408: Create a context from a record. -/
  | csaveCreate (a : BitVec 6) (b : BitVec 6) (g : BitVec 5)
  /-- R408: Place a created or saved context on a rectangle. -/
  | csavePlace (a : BitVec 6) (b : BitVec 6) (g : BitVec 5)
  /-- R401: Pre-empt a context and write its image. -/
  | csaveSave (a : BitVec 6) (b : BitVec 6) (g : BitVec 5)
  /-- R408: Destroy a context without a save. -/
  | csaveDestroy (a : BitVec 6) (b : BitVec 6) (g : BitVec 5)
  /-- R408: Read a context's status word. -/
  | csaveStatus (a : BitVec 6) (b : BitVec 6) (g : BitVec 5)
  /-- R375: The scheduler places a pending group on a core where it fits. -/
  | groupPlacement (ctx : Nat) (handle : BitVec 32)
  /-- R124: A group whose lanes and lead ended retires once its engine work completes. -/
  | groupRetirement (core unit : Nat)
  /-- R146: A filling bin's age reaches 2,048 cycles and it is drawn. -/
  | binAgeExpiry (core bin : Nat)
  /-- R147: A drawn bin gets registers and its strands load as a hank. -/
  | hankPlacement (core bin : Nat)
  /-- R343: A HIT message moves from the HIT inbox into the hit queue. -/
  | hitArrival (core : Nat)
  /-- R149: The head hit record is filed into a bin as a strand. -/
  | hitRecordFiling (core : Nat)
  /-- R376: A stream ready 4,096 cycles without issue gets effective priority 4. -/
  | priorityAging (core unit : Nat)
  /-- R400: A lead ready 2^(b+8) cycles without blocking traps. -/
  | budgetLead (core unit : Nat)
  /-- R155: A queue entry crosses a nearest-neighbour wire into the receiver's queue. -/
  | nnLinkDelivery (core unit q : Nat)
  /-- R373: A launch whose predecessors have retired chooses its rectangle. -/
  | launchPlacing (ctx : Nat) (handle : BitVec 32)
  /-- R373: A draining launch with no strands and an empty release buffer retires. -/
  | launchRetirement (ctx : Nat) (handle : BitVec 32)
  /-- R368: A dispatch fetch waiting on the tail word proceeds. -/
  | dispatchFetchResume (die : Nat)
  /-- R429: An HBM4 read finds an uncorrectable error and signals the scheduler. -/
  | uncorrectableError (pa : Nat)
  /-- R373: A completed rollback re-places or fails the launch. -/
  | rollbackComplete (ctx : Nat) (handle : BitVec 32)
  /-- R191: A cluster-load renewal is performed at the line's home. -/
  | leaseRenewal (core n : Nat)
  /-- R191: A renewed line with its times arrives at the requester. -/
  | clusterLoadReply (core n : Nat)
  /-- R192: A cluster store or atomic is performed at the line's home. -/
  | storeAtHome (core n : Nat)
  /-- R183: A store's acknowledgement reaches the issuing core. -/
  | storeAcknowledgement (core n : Nat)
  /-- R190: A core's logical clock rises within every 64 cycles. -/
  | logicalClockTick (core : Nat)
  /-- R193: A pushed renewal arrives and waits re-examine their word. -/
  | watchRenewal (core n : Nat)
  /-- R201: A waiting WAITW or WAITGE re-reads its word every 256 cycles. -/
  | waitPoll (ref : StreamRef)
  /-- R213: The network releases the waiting parties after the barrier point. -/
  | barrierDeparture (ctx scope inst id : Nat)
  /-- R419: A .pod arrival packet is counted at the ROOT package. -/
  | podArrival (setId : BitVec 16) (id : Nat)
  /-- R220: A local-store page fill completes and waiting accesses proceed. -/
  | lsPageFillComplete (core ctx page : Nat)
  /-- R220: A draining page's write-back completes. -/
  | lsPageWritebackComplete (core ctx page : Nat)
  /-- R224: A station's page-table walk completes or fails. -/
  | translationWalk (stn n : Nat)
  /-- R229: A station with a full fault queue re-reads the consumer index. -/
  | faultQueueRecheck (stn ctx : Nat)
  /-- R233: Writing a domain mask checks and begins an interleave commit. -/
  | l2commit (mask : BitVec 16)
  /-- R233: All slices have drained; new mapping taken, GEN raised, held requests answered REPLAY. -/
  | l2CommitPoint
  /-- R439: A station reloads its domain copies; the last clears BUSY. -/
  | stationReload (stn : Nat)
  /-- R234: A station receives REPLAY, reloads, refolds and resends. -/
  | l2Replay (core unit q p line : Nat)
  /-- R237: Every slice has finished an L2WB or L2INV. -/
  | l2MaintenanceDone
  /-- R238: All 64 stations have acknowledged a TSINV. -/
  | tsinvComplete
  /-- R12: An engine command message is taken and its entry started: place n of the CTL inbox, or from n = 32 on place n − 32 of the
  PAGE inbox. -/
  | engineCommand (core n : Nat)
  /-- R245: An engine piece is performed. -/
  | enginePiecePerformed (core unit q p : Nat)
  /-- R252: A refused entry's trap reaches the issuing stream at its next unit. -/
  | engineTrapDelivery (core unit : Nat)
  /-- R257: A HAULT entry at its turn makes its slots filling once readers are gone. -/
  | haultSlotWrite (core unit q : Nat)
  /-- R272: A TFILL's rows are written; slots ready, counter bumped. -/
  | tfillComplete (core n : Nat)
  /-- R272: A TDRAIN's writes are performed; slots ready, counter bumped. -/
  | tdrainComplete (core n : Nat)
  /-- R279: The engine begins the next accepted step. -/
  | matrixStepStart (core : Nat)
  /-- R279: A step writes its rows and releases its readers. -/
  | matrixStepComplete (core : Nat)
  /-- R282: Two armed SPLICEs pair and start their exchange. -/
  | splicePairing (core n : Nat)
  /-- R282: A slot receives its partner's bytes and becomes ready. -/
  | spliceExchangeComplete (core n : Nat)
  /-- R295: The fid starts compiling the next queued identity. -/
  | fidCompileStart (core : Nat)
  /-- R293: Packing ends; the record becomes valid or refused. -/
  | fidCompileComplete (core : Nat)
  /-- R441: An owner performs a whole element-message train. -/
  | elementMessage (core n : Nat)
  /-- R303: An owner's reply or acknowledgement train reaches the issuer. -/
  | elementReply (core n : Nat)
  /-- R318: The dispatcher starts one handler run. -/
  | handlerDispatch (core : Nat)
  /-- R321: A buffered message is released once outbound room exists. -/
  | hdoneRelease (core run : Nat)
  /-- R322: A run's cycle count reaches its budget. -/
  | budget (core run : Nat)
  /-- R328: The 257th unit in a masked window traps. -/
  | maskWindow (core run : Nat)
  /-- R326: A mailbox post is accepted or refused at the destination. -/
  | mailboxPost (core n : Nat)
  /-- R326: A refused post is resent every 256 cycles. -/
  | mailboxResend (core n : Nat)
  /-- R330: A WRET message adds its amount to the generator word. -/
  | weightReturn (core n : Nat)
  /-- R347: A directory ray arrives at a treelet's home. -/
  | directoryRay (core n : Nat)
  /-- R445: A lookup arrives at the home and is counted and answered. -/
  | treeletLookup (core n : Nat)
  /-- R364: A lookup reply fills the owner cache. -/
  | lookupReply (core n : Nat)
  /-- R350: An owner update fills the sender's owner cache. -/
  | ownerUpdate (core n : Nat)
  /-- R348: A core answers the home's frame request. -/
  | frameRequest (core n : Nat)
  /-- R348: The home receives a frame grant and commands the fill. -/
  | frameGrant (core n : Nat)
  /-- R347: A TPIN request is decided at the home. -/
  | tpinRequest (core n : Nat)
  /-- R347: A treelet fill completes; entry resident, rays released, copy may start. -/
  | treeletFillComplete (core frame : Nat)
  /-- R347: A fill is refused or reads an uncorrectable error; entry cold, report sent. -/
  | treeletFillFailed (core frame : Nat)
  /-- R347: A copy completes and the owner is added. -/
  | treeletCopyComplete (core frame : Nat)
  /-- R348: A paging entry repeats its frame round every 4,096 cycles. -/
  | victimRetry (core tid : Nat)
  /-- R347: The arrival counter restarts at each 2^RWIN boundary. -/
  | arrivalWindowRestart (core : Nat)
  /-- R351: A released parked ray is forwarded when RAY room exists. -/
  | parkedRayRelease (core tid : Nat)
  /-- R347: A frame with no live run is freed and the entry moves on. -/
  | treeletEviction (core frame : Nat)
  /-- R355: A RAY message arriving at a full inbox is written to the spill ring. -/
  | raySpill (src dst : Nat)
  /-- R355: The spill ring feeds the RAY inbox as places free. -/
  | spillRingFeed (core : Nat)
  /-- R401: The context image is written and cores released. -/
  | contextSaved (ctx : Nat)
  /-- R403: Every core loaded and pins taken; the context is resident. -/
  | contextRestored (ctx : Nat)
  /-- R390: A dead context's cores, frames and records are released. -/
  | contextFreed (ctx : Nat)
  /-- R412: A refused out-of-order packet is resent after its predecessor's acknowledgement. -/
  | packetRefusal (src dst : Nat) (cls : MsgClass)
  /-- R412: A flow acknowledgement frees the source's copy. -/
  | flowAcknowledgement (src dst : Nat) (cls : MsgClass)
  /-- R413: A packet 512 cycles past release is promoted to slack 0. -/
  | slackPromotion (src dst : Nat) (cls : MsgClass) (seq : Nat)
  /-- R415: A link finishes training and comes up. -/
  | linkTrained (link : Nat)
  /-- R415: CRC errors past the retry limit or a lost lane start retraining. -/
  | linkError (link : Nat)
  /-- R415: A retraining link comes up and replays held flits. -/
  | linkRetrained (link : Nat)
  /-- R415: A training or retraining link fails. -/
  | linkFailureTimeout (link : Nat)
  /-- R415: Writing FPCTL.EN disables or retrains a fabric port. -/
  | fpctlWrite (port : Nat) (en : Bool)
  /-- R418: A fabric packet is performed, answered as duplicate, or discarded. -/
  | fabricPacket (pkg seq : Nat) (op : FabricOp)
  /-- R418: A cumulative acknowledgement frees the sender's replay buffer. -/
  | fabricAcknowledgement (pkg seq : Nat)
  /-- R418: A receiver returns an acknowledgement at least every 4 us. -/
  | fabricAckTimer (pkg : Nat)
  /-- R418: After 50 us the sender resends unacknowledged packets. -/
  | fabricResendTimeout (pkg : Nat)
  /-- R423: A host write into a dispatch window is a store event. -/
  | hostBar2Write (addr size : Nat) (value : BitVec 64)
  /-- R423: A host read from a dispatch window is a load event. -/
  | hostBar2Read (addr size : Nat)
  /-- R423: A host write into the device aperture is taken by the L2. -/
  | hostBar4Write (off : Nat) (bytes : List (BitVec 8))
  /-- R230: A host read from the device aperture. -/
  | hostBar4Read (off size : Nat)
  /-- R423: The zero-length read after a device write to host memory completes. -/
  | hostWriteCompletion (core unit q p : Nat)
  /-- R430: A host write to a BAR0 register with no behaviour of its own. -/
  | hostRegWrite (addr : Nat) (value : BitVec 64)
  /-- R424: Writing ones clears host event flags. -/
  | hevtWrite (value : BitVec 64)
  /-- R431: Writing ones clears error count bits. -/
  | heccWrite (value : BitVec 64)
  /-- R430: Locking the host windows moves phase 2 to phase 3 and starts firmware. -/
  | hwlockWrite (value : BitVec 64)
  /-- R432: A FACCEPT write stores its value ANDed with FOFFER. -/
  | facceptWrite (w : Nat) (value : BitVec 64)
  /-- R432: Fixing FACCEPT moves phase 3 to phase 4. -/
  | fcommitWrite (value : BitVec 64)
  /-- R436: Starts an attestation report for the nonce. -/
  | acmdWrite (value : BitVec 64)
  /-- R436: The signed report is written and ASTAT set. -/
  | attestationReportDone
  /-- R430: Reset release starts bring-up. -/
  | packageReset
  /-- R430: Self-test and training end in phase 2 or phase 5. -/
  | bringUpDone (fail : BitVec 4)
  /-- R427: Four missed heartbeats move refresh to the controllers. -/
  | heartbeatTimeout (stack : Nat)
  /-- R427: 16 us of heartbeats return refresh to the base die. -/
  | heartbeatResumed (stack : Nat)
  /-- R428: A stack's alert stops activates and starts refresh management. -/
  | neighbourRefreshAlert (stack : Nat)
  /-- R428: The alert clears and activates resume. -/
  | alertCleared (stack : Nat)
  /-- R434: Each microsecond power and temperature are sensed and the clock stepped down if over. -/
  | powerSense (milliwatts celsius : Nat)
  /-- R434: Every 10 us below limits the clock steps up 50 MHz. -/
  | clockStepUp (milliwatts celsius : Nat)
  /-- R435: 120 C stops the clock and holds reset in phase 5. -/
  | thermalStop
  /-- R412: A packet of a flow reaches its destination and is placed into the class's inbox in sequence order, or held in the reorder store until its predecessor arrives. -/
  | packetArrival (src dst : Nat) (cls : MsgClass) (seq : Nat)
  /-- R234: A request from a station reaches an L2 slice, which serves it, holds it during a commit, or answers REPLAY for an address the active mapping does not assign to it. -/
  | sliceRequest (core unit q p line : Nat)
  /-- R429: A 64-byte read from an HBM4 channel returns to its slice, is checked, and has any correctable error corrected and counted in HECC.CE. -/
  | hbm4ReadComplete (core unit q p line : Nat) (corrected : Bool)
  /-- R427: While the channel controllers own a stack's refresh, each expiry of the stack's refresh interval makes them issue a refresh. -/
  | stackRefresh (stack : Nat)
  /-- R447: The home's message telling a core that its frame holds a treelet arrives, from which moment TOWN and the dispatch check of R354 treat the frame as holding it. -/
  | frameHoldsTreelet (core n : Nat)
deriving DecidableEq, Repr, Inhabited

end Sys2Proof
end

