-- ==== Sys2Proof/WellFormed.lean ====
section
/-! DEFINITION. What makes an instruction well formed: a word that the encoding has, or an event about objects the machine has. -/

namespace Sys2Proof

/-- A stream of the machine: core 0 to 1,151, unit 0 to 15, path 0 to 63, handler context 0 to 31 (R8, R11, R123). -/
def StreamRef.inRange : StreamRef → Bool
  | .group c u p => decide (c < 1152) && decide (u < 16) && decide (p < 64)
  | .lead c u => decide (c < 1152) && decide (u < 16)
  | .run c x => decide (c < 1152) && decide (x < 32)

/-- ADD whose word would be 0x0000_0000, which no statement encodes (R25, R49), is ill formed; an event names only
cores, units, queues, pieces, links and the like that the machine has. Every other instruction word is well formed: its
fields have the widths of the opcode table. -/
def Instr.wellFormed : Instr → Bool
  | .add d a b g => !(d == 0 && a == 0 && b == 0 && g == 0)
  | .groupRetirement core unit => decide (core < 1152) && decide (unit < 16)
  | .binAgeExpiry core bin => decide (core < 1152) && decide (bin < 32)
  | .hankPlacement core bin => decide (core < 1152) && decide (bin < 32)
  | .hitArrival core => decide (core < 1152)
  | .hitRecordFiling core => decide (core < 1152)
  | .priorityAging core unit => decide (core < 1152) && decide (unit < 16)
  | .budgetLead core unit => decide (core < 1152) && decide (unit < 16)
  | .nnLinkDelivery core unit q => decide (core < 1152) && decide (unit < 16) && decide (q < 4)
  | .dispatchFetchResume die => decide (die < 4)
  | .leaseRenewal core _ => decide (core < 1152)
  | .clusterLoadReply core _ => decide (core < 1152)
  | .storeAtHome core _ => decide (core < 1152)
  | .storeAcknowledgement core _ => decide (core < 1152)
  | .logicalClockTick core => decide (core < 1152)
  | .watchRenewal core _ => decide (core < 1152)
  | .waitPoll ref => ref.inRange
  | .barrierDeparture _ scope _ _ => decide (scope < 7)
  | .lsPageFillComplete core _ page => decide (core < 1152) && decide (page < 256)
  | .lsPageWritebackComplete core _ page => decide (core < 1152) && decide (page < 256)
  | .translationWalk stn _ => decide (stn < 64)
  | .faultQueueRecheck stn _ => decide (stn < 64)
  | .stationReload stn => decide (stn < 64)
  | .l2Replay core unit q p line => decide (core < 1152) && decide (unit ≤ 16) && decide (q < 4) && decide (p < 8192) && decide (line < 64)
  | .engineCommand core _ => decide (core < 1152)
  | .enginePiecePerformed core unit q p => decide (core < 1152) && decide (unit ≤ 16) && decide (q < 4) && decide (p < 8192)
  | .engineTrapDelivery core unit => decide (core < 1152) && decide (unit < 16)
  | .haultSlotWrite core unit q => decide (core < 1152) && decide (unit < 16) && decide (q < 4)
  | .tfillComplete core _ => decide (core < 1152)
  | .tdrainComplete core _ => decide (core < 1152)
  | .matrixStepStart core => decide (core < 1152)
  | .matrixStepComplete core => decide (core < 1152)
  | .splicePairing core _ => decide (core < 1152)
  | .spliceExchangeComplete core _ => decide (core < 1152)
  | .fidCompileStart core => decide (core < 1152)
  | .fidCompileComplete core => decide (core < 1152)
  | .elementMessage core _ => decide (core < 1152)
  | .elementReply core _ => decide (core < 1152)
  | .handlerDispatch core => decide (core < 1152)
  | .hdoneRelease core run => decide (core < 1152) && decide (run < 32)
  | .budget core run => decide (core < 1152) && decide (run < 32)
  | .maskWindow core run => decide (core < 1152) && decide (run < 32)
  | .mailboxPost core _ => decide (core < 1152)
  | .mailboxResend core _ => decide (core < 1152)
  | .weightReturn core _ => decide (core < 1152)
  | .directoryRay core _ => decide (core < 1152)
  | .treeletLookup core _ => decide (core < 1152)
  | .lookupReply core _ => decide (core < 1152)
  | .ownerUpdate core _ => decide (core < 1152)
  | .frameRequest core _ => decide (core < 1152)
  | .frameGrant core _ => decide (core < 1152)
  | .tpinRequest core _ => decide (core < 1152)
  | .treeletFillComplete core frame => decide (core < 1152) && decide (frame < 256)
  | .treeletFillFailed core frame => decide (core < 1152) && decide (frame < 256)
  | .treeletCopyComplete core frame => decide (core < 1152) && decide (frame < 256)
  | .victimRetry core tid => decide (core < 1152) && decide (tid < 1073741824)
  | .arrivalWindowRestart core => decide (core < 1152)
  | .parkedRayRelease core tid => decide (core < 1152) && decide (tid < 1073741824)
  | .treeletEviction core frame => decide (core < 1152) && decide (frame < 256)
  | .raySpill src dst => decide (src < 1152) && decide (dst < 1152)
  | .spillRingFeed core => decide (core < 1152)
  | .packetRefusal src dst _ => decide (src < 1152) && decide (dst < 1152)
  | .flowAcknowledgement src dst _ => decide (src < 1152) && decide (dst < 1152)
  | .slackPromotion src dst _ _ => decide (src < 1152) && decide (dst < 1152)
  | .linkTrained link => decide (link < 136)
  | .linkError link => decide (link < 136)
  | .linkRetrained link => decide (link < 136)
  | .linkFailureTimeout link => decide (link < 136)
  | .fpctlWrite port _ => decide (port < 64)
  | .hostBar2Write _ size _ => decide (0 < size)
  | .hostBar2Read _ size => decide (0 < size)
  | .hostWriteCompletion core unit q p => decide (core < 1152) && decide (unit ≤ 16) && decide (q < 4) && decide (p < 8192)
  | .heartbeatTimeout stack => decide (stack < 16)
  | .heartbeatResumed stack => decide (stack < 16)
  | .neighbourRefreshAlert stack => decide (stack < 16)
  | .alertCleared stack => decide (stack < 16)
  | .packetArrival src dst _ _ => decide (src < 1152) && decide (dst < 1152)
  | .sliceRequest core unit q p line => decide (core < 1152) && decide (unit ≤ 16) && decide (q < 4) && decide (p < 8192) && decide (line < 64)
  | .hbm4ReadComplete core unit q p line _ => decide (core < 1152) && decide (unit ≤ 16) && decide (q < 4) && decide (p < 8192) && decide (line < 64)
  | .stackRefresh stack => decide (stack < 16)
  | .frameHoldsTreelet core _ => decide (core < 1152)
  | _ => true

end Sys2Proof
end

