-- ==== Sys2Proof/Decode.lean ====
section
/-! DEFINITION. The decoder, total on any bytes, rejecting by name, and after it the encoder (R23 to R25, R35, R42).
Lean's runtime cannot build an object of a constructor numbered above 244, so the definitions that build the later
instructions are marked noncomputable; the kernel evaluates them like any other. -/

namespace Sys2Proof

/-- Why bytes are no instruction. In code each of these traps ILLEGAL (R25, R37, R42). -/
inductive DecodeError where
  /-- Fewer than the four bytes of a word. -/
  | short
  /-- The word 0x0000_0000 (R25). -/
  | zeroWord
  /-- A major opcode from 2D to 3E (R42). -/
  | reservedMajor
  /-- A reserved value of MIN or FN9 bits 8:5 (R42). -/
  | reservedSelector
  /-- A hint of KIND 100 to 111 (R35): its unit is malformed (R37). -/
  | reservedHint
  /-- A non-zero unused field (R25), or a non-zero reserved payload bit of a hint (R37). -/
  | unusedField
deriving DecidableEq, Repr, Inhabited

/-- Bits lo+n-1 to lo of a word, as a number. -/
def field (w lo n : Nat) : Nat := w / 2 ^ lo % 2 ^ n

/-- Bits lo+n-1 to lo of a word. -/
def bits (w lo n : Nat) : BitVec n := BitVec.ofNat n (w / 2 ^ lo)

/-- The instruction, when the fields it does not use are zero (R25). -/
def whenClear (unused : Nat) (i : Instr) : Except DecodeError Instr :=
  if unused = 0 then .ok i else .error .unusedField

/-- Four bytes as a word, the first the lowest (R23). -/
def wordOfBytes : List Byte → Option (Nat × List Byte)
  | a :: b :: c :: d :: rest =>
    some (a.toNat + 256 * b.toNat + 65536 * c.toNat + 16777216 * d.toNat, rest)
  | _ => none

/-- The four bytes of a word, the lowest first (R23). -/
def bytesOfWord (w : Nat) : List Byte :=
  [BitVec.ofNat 8 w, BitVec.ofNat 8 (w / 256), BitVec.ofNat 8 (w / 65536), BitVec.ofNat 8 (w / 16777216)]

/-- Major 00 of the opcode map (R42). -/
def decodeMajor00 (w : Nat) : Except DecodeError Instr :=
  match field w 5 3 with
  | 0 => .ok (.add (bits w 20 6) (bits w 14 6) (bits w 8 6) (bits w 0 5))
  | 1 => .ok (.sub (bits w 20 6) (bits w 14 6) (bits w 8 6) (bits w 0 5))
  | 2 => .ok (.mul (bits w 20 6) (bits w 14 6) (bits w 8 6) (bits w 0 5))
  | 3 => .ok (.mulh (bits w 20 6) (bits w 14 6) (bits w 8 6) (bits w 0 5))
  | 4 => .ok (.mulhn (bits w 20 6) (bits w 14 6) (bits w 8 6) (bits w 0 5))
  | 5 => .ok (.mad (bits w 20 6) (bits w 14 6) (bits w 8 6) (bits w 0 5))
  | 6 => .ok (.minOp (bits w 20 6) (bits w 14 6) (bits w 8 6) (bits w 0 5))
  | _ => .ok (.maxOp (bits w 20 6) (bits w 14 6) (bits w 8 6) (bits w 0 5))

/-- Major 01 of the opcode map (R42). -/
def decodeMajor01 (w : Nat) : Except DecodeError Instr :=
  match field w 5 3 with
  | 0 => .ok (.andOp (bits w 20 6) (bits w 14 6) (bits w 8 6) (bits w 0 5))
  | 1 => .ok (.orOp (bits w 20 6) (bits w 14 6) (bits w 8 6) (bits w 0 5))
  | 2 => .ok (.xorOp (bits w 20 6) (bits w 14 6) (bits w 8 6) (bits w 0 5))
  | 3 => .ok (.andn (bits w 20 6) (bits w 14 6) (bits w 8 6) (bits w 0 5))
  | 4 => .ok (.shl (bits w 20 6) (bits w 14 6) (bits w 8 6) (bits w 0 5))
  | 5 => .ok (.shr (bits w 20 6) (bits w 14 6) (bits w 8 6) (bits w 0 5))
  | 6 => .ok (.sar (bits w 20 6) (bits w 14 6) (bits w 8 6) (bits w 0 5))
  | _ => .ok (.rotl (bits w 20 6) (bits w 14 6) (bits w 8 6) (bits w 0 5))

/-- Major 02 of the opcode map (R42). -/
def decodeMajor02 (w : Nat) : Except DecodeError Instr :=
  match field w 5 3 with
  | 0 => .ok (.minn (bits w 20 6) (bits w 14 6) (bits w 8 6) (bits w 0 5))
  | 1 => .ok (.maxn (bits w 20 6) (bits w 14 6) (bits w 8 6) (bits w 0 5))
  | 2 => whenClear (field w 8 6) (.absOp (bits w 20 6) (bits w 14 6) (bits w 0 5))
  | 3 => whenClear (field w 8 6) (.neg (bits w 20 6) (bits w 14 6) (bits w 0 5))
  | 4 => .ok (.fshr (bits w 20 6) (bits w 14 6) (bits w 8 6) (bits w 0 5))
  | 5 => .ok (.bfx (bits w 20 6) (bits w 14 6) (bits w 8 6) (bits w 0 5))
  | 6 => .ok (.bfi (bits w 20 6) (bits w 14 6) (bits w 8 6) (bits w 0 5))
  | _ => .ok (.bprm (bits w 20 6) (bits w 14 6) (bits w 8 6) (bits w 0 5))

/-- Major 03 of the opcode map (R42). -/
def decodeMajor03 (w : Nat) : Except DecodeError Instr :=
  match field w 5 3 with
  | 0 => whenClear (field w 8 6) (.popc (bits w 20 6) (bits w 14 6) (bits w 0 5))
  | 1 => whenClear (field w 8 6) (.clz (bits w 20 6) (bits w 14 6) (bits w 0 5))
  | 2 => whenClear (field w 8 6) (.ctz (bits w 20 6) (bits w 14 6) (bits w 0 5))
  | 3 => whenClear (field w 8 6) (.brev (bits w 20 6) (bits w 14 6) (bits w 0 5))
  | 4 => .ok (.mulw (bits w 20 6) (bits w 14 6) (bits w 8 6) (bits w 0 5))
  | 5 => .ok (.mulwn (bits w 20 6) (bits w 14 6) (bits w 8 6) (bits w 0 5))
  | 6 => .ok (.addc (bits w 20 6) (bits w 14 6) (bits w 8 6) (bits w 0 5))
  | _ => .ok (.subc (bits w 20 6) (bits w 14 6) (bits w 8 6) (bits w 0 5))

/-- Major 04 of the opcode map (R42). -/
def decodeMajor04 (w : Nat) : Except DecodeError Instr :=
  .ok (.addi (bits w 20 6) (bits w 14 6) (bits w 5 9) (bits w 0 5))

/-- Major 05 of the opcode map (R42). -/
def decodeMajor05 (w : Nat) : Except DecodeError Instr :=
  .ok (.andi (bits w 20 6) (bits w 14 6) (bits w 5 9) (bits w 0 5))

/-- Major 06 of the opcode map (R42). -/
def decodeMajor06 (w : Nat) : Except DecodeError Instr :=
  .ok (.ori (bits w 20 6) (bits w 14 6) (bits w 5 9) (bits w 0 5))

/-- Major 07 of the opcode map (R42). -/
def decodeMajor07 (w : Nat) : Except DecodeError Instr :=
  .ok (.xori (bits w 20 6) (bits w 14 6) (bits w 5 9) (bits w 0 5))

/-- Major 08 of the opcode map (R42). -/
def decodeMajor08 (w : Nat) : Except DecodeError Instr :=
  whenClear (field w 13 1) (.shi (bits w 20 6) (bits w 14 6) (bits w 11 2) (bits w 5 6) (bits w 0 5))

/-- Major 09 of the opcode map (R42). -/
def decodeMajor09 (w : Nat) : Except DecodeError Instr :=
  .ok (.limm (bits w 20 6) (bits w 5 15) (bits w 0 5))

/-- Major 0A of the opcode map (R42). -/
def decodeMajor0A (w : Nat) : Except DecodeError Instr :=
  match field w 5 3 with
  | 0 => whenClear (field w 8 6) (.mov (bits w 20 6) (bits w 14 6) (bits w 0 5))
  | 1 => .ok (.sel (bits w 20 6) (bits w 14 6) (bits w 8 6) (bits w 0 5))
  | 2 => whenClear (field w 8 6) (.sxb (bits w 20 6) (bits w 14 6) (bits w 0 5))
  | 3 => whenClear (field w 8 6) (.sxh (bits w 20 6) (bits w 14 6) (bits w 0 5))
  | 4 => whenClear (field w 8 6) (.zxb (bits w 20 6) (bits w 14 6) (bits w 0 5))
  | 5 => whenClear (field w 8 6) (.zxh (bits w 20 6) (bits w 14 6) (bits w 0 5))
  | 6 => whenClear (field w 8 12) (.moder (bits w 20 6) (bits w 0 5))
  | _ => whenClear (field w 20 6) (.modew (bits w 14 6) (bits w 8 6) (bits w 0 5))

/-- Major 0B of the opcode map (R42). -/
def decodeMajor0B (w : Nat) : Except DecodeError Instr :=
  match field w 5 3 with
  | 0 => .ok (.icmpEq (bits w 20 6) (bits w 14 6) (bits w 8 6) (bits w 0 5))
  | 1 => .ok (.icmpNe (bits w 20 6) (bits w 14 6) (bits w 8 6) (bits w 0 5))
  | 2 => .ok (.icmpLt (bits w 20 6) (bits w 14 6) (bits w 8 6) (bits w 0 5))
  | 3 => .ok (.icmpLe (bits w 20 6) (bits w 14 6) (bits w 8 6) (bits w 0 5))
  | 4 => .ok (.icmpLtn (bits w 20 6) (bits w 14 6) (bits w 8 6) (bits w 0 5))
  | 5 => .ok (.icmpLen (bits w 20 6) (bits w 14 6) (bits w 8 6) (bits w 0 5))
  | 6 => .ok (.icmpBits (bits w 20 6) (bits w 14 6) (bits w 8 6) (bits w 0 5))
  | _ => .ok (.icmpNone (bits w 20 6) (bits w 14 6) (bits w 8 6) (bits w 0 5))

/-- Major 0C of the opcode map (R42). -/
def decodeMajor0C (w : Nat) : Except DecodeError Instr :=
  match field w 5 3 with
  | 0 => .ok (.fcmpEq (bits w 20 6) (bits w 14 6) (bits w 8 6) (bits w 0 5))
  | 1 => .ok (.fcmpNe (bits w 20 6) (bits w 14 6) (bits w 8 6) (bits w 0 5))
  | 2 => .ok (.fcmpLt (bits w 20 6) (bits w 14 6) (bits w 8 6) (bits w 0 5))
  | 3 => .ok (.fcmpLe (bits w 20 6) (bits w 14 6) (bits w 8 6) (bits w 0 5))
  | 4 => .ok (.fcmpGt (bits w 20 6) (bits w 14 6) (bits w 8 6) (bits w 0 5))
  | 5 => .ok (.fcmpGe (bits w 20 6) (bits w 14 6) (bits w 8 6) (bits w 0 5))
  | 6 => .ok (.fcmpUn (bits w 20 6) (bits w 14 6) (bits w 8 6) (bits w 0 5))
  | _ => .ok (.fcmpOrd (bits w 20 6) (bits w 14 6) (bits w 8 6) (bits w 0 5))

/-- Major 0D of the opcode map (R42). -/
def decodeMajor0D (w : Nat) : Except DecodeError Instr :=
  match field w 5 3 with
  | 0 => .ok (.dcmpEq (bits w 20 6) (bits w 14 6) (bits w 8 6) (bits w 0 5))
  | 1 => .ok (.dcmpNe (bits w 20 6) (bits w 14 6) (bits w 8 6) (bits w 0 5))
  | 2 => .ok (.dcmpLt (bits w 20 6) (bits w 14 6) (bits w 8 6) (bits w 0 5))
  | 3 => .ok (.dcmpLe (bits w 20 6) (bits w 14 6) (bits w 8 6) (bits w 0 5))
  | 4 => .ok (.dcmpGt (bits w 20 6) (bits w 14 6) (bits w 8 6) (bits w 0 5))
  | 5 => .ok (.dcmpGe (bits w 20 6) (bits w 14 6) (bits w 8 6) (bits w 0 5))
  | 6 => .ok (.dcmpUn (bits w 20 6) (bits w 14 6) (bits w 8 6) (bits w 0 5))
  | _ => .ok (.dcmpOrd (bits w 20 6) (bits w 14 6) (bits w 8 6) (bits w 0 5))

/-- Major 0E of the opcode map (R42). -/
def decodeMajor0E (w : Nat) : Except DecodeError Instr :=
  match field w 5 3 with
  | 0 => .ok (.plopAnd (bits w 20 6) (bits w 14 6) (bits w 8 6) (bits w 0 5))
  | 1 => .ok (.plopOr (bits w 20 6) (bits w 14 6) (bits w 8 6) (bits w 0 5))
  | 2 => .ok (.plopXor (bits w 20 6) (bits w 14 6) (bits w 8 6) (bits w 0 5))
  | 3 => .ok (.plopAndn (bits w 20 6) (bits w 14 6) (bits w 8 6) (bits w 0 5))
  | 4 => .ok (.plopOrn (bits w 20 6) (bits w 14 6) (bits w 8 6) (bits w 0 5))
  | 5 => .ok (.plopNand (bits w 20 6) (bits w 14 6) (bits w 8 6) (bits w 0 5))
  | 6 => .ok (.plopNor (bits w 20 6) (bits w 14 6) (bits w 8 6) (bits w 0 5))
  | _ => .ok (.plopXnor (bits w 20 6) (bits w 14 6) (bits w 8 6) (bits w 0 5))

/-- Major 0F of the opcode map (R42). -/
def decodeMajor0F (w : Nat) : Except DecodeError Instr :=
  match field w 5 3 with
  | 0 => whenClear (field w 8 6) (.p2g (bits w 20 6) (bits w 14 6) (bits w 0 5))
  | 1 => whenClear (field w 8 6) (.g2p (bits w 20 6) (bits w 14 6) (bits w 0 5))
  | 2 => whenClear (field w 8 6) (.ballot (bits w 20 6) (bits w 14 6) (bits w 0 5))
  | 3 => whenClear (field w 8 6) (.anyOp (bits w 20 6) (bits w 14 6) (bits w 0 5))
  | 4 => whenClear (field w 8 6) (.allOp (bits w 20 6) (bits w 14 6) (bits w 0 5))
  | 5 => whenClear (field w 8 6) (.uni (bits w 20 6) (bits w 14 6) (bits w 0 5))
  | 6 => whenClear (field w 14 6) (.pgetw (bits w 20 6) (bits w 8 6) (bits w 0 5))
  | _ => whenClear (field w 20 6) (.psetw (bits w 14 6) (bits w 8 6) (bits w 0 5))

/-- Major 10 of the opcode map (R42). -/
def decodeMajor10 (w : Nat) : Except DecodeError Instr :=
  match field w 5 3 with
  | 0 => .ok (.fadd (bits w 20 6) (bits w 14 6) (bits w 8 6) (bits w 0 5))
  | 1 => .ok (.fsub (bits w 20 6) (bits w 14 6) (bits w 8 6) (bits w 0 5))
  | 2 => .ok (.fmul (bits w 20 6) (bits w 14 6) (bits w 8 6) (bits w 0 5))
  | 3 => .ok (.ffma (bits w 20 6) (bits w 14 6) (bits w 8 6) (bits w 0 5))
  | 4 => .ok (.ffms (bits w 20 6) (bits w 14 6) (bits w 8 6) (bits w 0 5))
  | 5 => .ok (.fmin (bits w 20 6) (bits w 14 6) (bits w 8 6) (bits w 0 5))
  | 6 => .ok (.fmax (bits w 20 6) (bits w 14 6) (bits w 8 6) (bits w 0 5))
  | _ => .ok (.fabsn (bits w 20 6) (bits w 14 6) (bits w 8 6) (bits w 0 5))

/-- Major 11 of the opcode map (R42). -/
def decodeMajor11 (w : Nat) : Except DecodeError Instr :=
  match field w 5 3 with
  | 0 => whenClear (field w 8 6) (.frcp (bits w 20 6) (bits w 14 6) (bits w 0 5))
  | 1 => whenClear (field w 8 6) (.frsq (bits w 20 6) (bits w 14 6) (bits w 0 5))
  | 2 => whenClear (field w 8 6) (.fsqrt (bits w 20 6) (bits w 14 6) (bits w 0 5))
  | 3 => whenClear (field w 8 6) (.fex2 (bits w 20 6) (bits w 14 6) (bits w 0 5))
  | 4 => whenClear (field w 8 6) (.flg2 (bits w 20 6) (bits w 14 6) (bits w 0 5))
  | 5 => whenClear (field w 8 6) (.fsin (bits w 20 6) (bits w 14 6) (bits w 0 5))
  | 6 => whenClear (field w 8 6) (.fcos (bits w 20 6) (bits w 14 6) (bits w 0 5))
  | _ => whenClear (field w 8 6) (.frint (bits w 20 6) (bits w 14 6) (bits w 0 5))

/-- Major 12 of the opcode map (R42). -/
def decodeMajor12 (w : Nat) : Except DecodeError Instr :=
  match field w 5 3 with
  | 0 => .ok (.dadd (bits w 20 6) (bits w 14 6) (bits w 8 6) (bits w 0 5))
  | 1 => .ok (.dsub (bits w 20 6) (bits w 14 6) (bits w 8 6) (bits w 0 5))
  | 2 => .ok (.dmul (bits w 20 6) (bits w 14 6) (bits w 8 6) (bits w 0 5))
  | 3 => .ok (.dfma (bits w 20 6) (bits w 14 6) (bits w 8 6) (bits w 0 5))
  | 4 => .ok (.dmin (bits w 20 6) (bits w 14 6) (bits w 8 6) (bits w 0 5))
  | 5 => .ok (.dmax (bits w 20 6) (bits w 14 6) (bits w 8 6) (bits w 0 5))
  | 6 => .ok (.dabsn (bits w 20 6) (bits w 14 6) (bits w 8 6) (bits w 0 5))
  | _ => whenClear (field w 8 6) (.dsqrt (bits w 20 6) (bits w 14 6) (bits w 0 5))

/-- Major 13 of the opcode map (R42). -/
def decodeMajor13 (w : Nat) : Except DecodeError Instr :=
  match field w 5 3 with
  | 0 => .ok (.hadd2 (bits w 20 6) (bits w 14 6) (bits w 8 6) (bits w 0 5))
  | 1 => .ok (.hmul2 (bits w 20 6) (bits w 14 6) (bits w 8 6) (bits w 0 5))
  | 2 => .ok (.hfma2 (bits w 20 6) (bits w 14 6) (bits w 8 6) (bits w 0 5))
  | 3 => .ok (.hmax2 (bits w 20 6) (bits w 14 6) (bits w 8 6) (bits w 0 5))
  | 4 => .ok (.badd2 (bits w 20 6) (bits w 14 6) (bits w 8 6) (bits w 0 5))
  | 5 => .ok (.bmul2 (bits w 20 6) (bits w 14 6) (bits w 8 6) (bits w 0 5))
  | 6 => .ok (.bfma2 (bits w 20 6) (bits w 14 6) (bits w 8 6) (bits w 0 5))
  | _ => .ok (.bmax2 (bits w 20 6) (bits w 14 6) (bits w 8 6) (bits w 0 5))

/-- Major 14 of the opcode map (R42). -/
def decodeMajor14 (w : Nat) : Except DecodeError Instr :=
  match field w 5 3 with
  | 0 => whenClear (field w 8 6) (.f2i (bits w 20 6) (bits w 14 6) (bits w 0 5))
  | 1 => whenClear (field w 8 6) (.i2f (bits w 20 6) (bits w 14 6) (bits w 0 5))
  | 2 => whenClear (field w 8 6) (.f2n (bits w 20 6) (bits w 14 6) (bits w 0 5))
  | 3 => whenClear (field w 8 6) (.n2f (bits w 20 6) (bits w 14 6) (bits w 0 5))
  | 4 => whenClear (field w 8 6) (.f2d (bits w 20 6) (bits w 14 6) (bits w 0 5))
  | 5 => whenClear (field w 8 6) (.d2f (bits w 20 6) (bits w 14 6) (bits w 0 5))
  | 6 => .ok (.f2h2 (bits w 20 6) (bits w 14 6) (bits w 8 6) (bits w 0 5))
  | _ => .ok (.f2b2 (bits w 20 6) (bits w 14 6) (bits w 8 6) (bits w 0 5))

/-- Major 15 of the opcode map (R42). -/
def decodeMajor15 (w : Nat) : Except DecodeError Instr :=
  match field w 5 3 with
  | 0 => whenClear (field w 8 6) (.h2f (bits w 20 6) (bits w 14 6) (bits w 0 5))
  | 1 => whenClear (field w 8 6) (.b2f (bits w 20 6) (bits w 14 6) (bits w 0 5))
  | 2 => whenClear (field w 8 6) (.d2i (bits w 20 6) (bits w 14 6) (bits w 0 5))
  | 3 => whenClear (field w 8 6) (.i2d (bits w 20 6) (bits w 14 6) (bits w 0 5))
  | 4 => .ok (.f2k (bits w 20 6) (bits w 14 6) (bits w 8 6) (bits w 0 5))
  | 5 => .ok (.k2f (bits w 20 6) (bits w 14 6) (bits w 8 6) (bits w 0 5))
  | _ => .error .reservedSelector

/-- Major 16 of the opcode map (R42). -/
def decodeMajor16 (w : Nat) : Except DecodeError Instr :=
  match field w 5 3 with
  | 0 => .ok (.shfli (bits w 20 6) (bits w 14 6) (bits w 8 6) (bits w 0 5))
  | 1 => .ok (.shflu (bits w 20 6) (bits w 14 6) (bits w 8 6) (bits w 0 5))
  | 2 => .ok (.shfld (bits w 20 6) (bits w 14 6) (bits w 8 6) (bits w 0 5))
  | 3 => .ok (.shflx (bits w 20 6) (bits w 14 6) (bits w 8 6) (bits w 0 5))
  | 4 => whenClear (field w 8 6) (.confl (bits w 20 6) (bits w 14 6) (bits w 0 5))
  | 5 => whenClear (field w 8 6) (.matchOp (bits w 20 6) (bits w 14 6) (bits w 0 5))
  | 6 => .ok (.bcast (bits w 20 6) (bits w 14 6) (bits w 8 6) (bits w 0 5))
  | _ => .error .reservedSelector

/-- Major 17 of the opcode map (R42). -/
def decodeMajor17 (w : Nat) : Except DecodeError Instr :=
  match field w 5 3 with
  | 0 => whenClear (field w 8 6) (.iredadd (bits w 20 6) (bits w 14 6) (bits w 0 5))
  | 1 => whenClear (field w 8 6) (.iredmin (bits w 20 6) (bits w 14 6) (bits w 0 5))
  | 2 => whenClear (field w 8 6) (.iredmax (bits w 20 6) (bits w 14 6) (bits w 0 5))
  | 3 => whenClear (field w 8 6) (.iredor (bits w 20 6) (bits w 14 6) (bits w 0 5))
  | 4 => whenClear (field w 8 6) (.iredand (bits w 20 6) (bits w 14 6) (bits w 0 5))
  | 5 => whenClear (field w 8 6) (.fredadd (bits w 20 6) (bits w 14 6) (bits w 0 5))
  | 6 => whenClear (field w 8 6) (.fredmin (bits w 20 6) (bits w 14 6) (bits w 0 5))
  | _ => whenClear (field w 8 6) (.fredmax (bits w 20 6) (bits w 14 6) (bits w 0 5))

/-- Major 18 of the opcode map (R42). -/
def decodeMajor18 (w : Nat) : Except DecodeError Instr :=
  match field w 5 3 with
  | 0 => whenClear (field w 8 6) (.iscan (bits w 20 6) (bits w 14 6) (bits w 0 5))
  | 1 => whenClear (field w 8 6) (.iscanx (bits w 20 6) (bits w 14 6) (bits w 0 5))
  | 2 => whenClear (field w 8 6) (.fscan (bits w 20 6) (bits w 14 6) (bits w 0 5))
  | 3 => whenClear (field w 8 6) (.fscanx (bits w 20 6) (bits w 14 6) (bits w 0 5))
  | 4 => whenClear (field w 8 6) (.iscanmax (bits w 20 6) (bits w 14 6) (bits w 0 5))
  | 5 => whenClear (field w 8 6) (.iscanor (bits w 20 6) (bits w 14 6) (bits w 0 5))
  | _ => .error .reservedSelector

/-- Major 19 of the opcode map (R42). -/
def decodeMajor19 (w : Nat) : Except DecodeError Instr :=
  match field w 5 3 with
  | 0 => whenClear (field w 20 6) (.lbind (bits w 14 6) (bits w 8 6) (bits w 0 5))
  | 1 => whenClear (field w 8 18) (.lfree (bits w 0 5))
  | 2 => .ok (.ladd (bits w 20 6) (bits w 14 6) (bits w 8 6) (bits w 0 5))
  | 3 => .ok (.lsub (bits w 20 6) (bits w 14 6) (bits w 8 6) (bits w 0 5))
  | 4 => whenClear (field w 8 6) (.lneg (bits w 20 6) (bits w 14 6) (bits w 0 5))
  | 5 => .ok (.lshl (bits w 20 6) (bits w 14 6) (bits w 8 6) (bits w 0 5))
  | 6 => .ok (.lshr (bits w 20 6) (bits w 14 6) (bits w 8 6) (bits w 0 5))
  | _ => .ok (.lcmp (bits w 20 6) (bits w 14 6) (bits w 8 6) (bits w 0 5))

/-- Major 1A of the opcode map (R42). -/
def decodeMajor1A (w : Nat) : Except DecodeError Instr :=
  match field w 5 3 with
  | 0 => .ok (.lmuls (bits w 20 6) (bits w 14 6) (bits w 8 6) (bits w 0 5))
  | 1 => whenClear (field w 8 6) (.ldep (bits w 20 6) (bits w 14 6) (bits w 0 5))
  | 2 => whenClear (field w 8 6) (.ldepd (bits w 20 6) (bits w 14 6) (bits w 0 5))
  | 3 => whenClear (field w 8 6) (.lrnd (bits w 20 6) (bits w 14 6) (bits w 0 5))
  | 4 => whenClear (field w 8 6) (.lrndd (bits w 20 6) (bits w 14 6) (bits w 0 5))
  | 5 => whenClear (field w 8 6) (.ltop (bits w 20 6) (bits w 14 6) (bits w 0 5))
  | 6 => whenClear (field w 8 12) (.lstat (bits w 20 6) (bits w 0 5))
  | _ => whenClear (field w 14 12) (.lclr (bits w 8 6) (bits w 0 5))

/-- Major 1B of the opcode map (R42). -/
def decodeMajor1B (w : Nat) : Except DecodeError Instr :=
  match field w 23 3 with
  | 0 => .ok (.bra (bits w 5 18) (bits w 0 5))
  | 1 => .ok (.call (bits w 5 18) (bits w 0 5))
  | 2 => .ok (.split (bits w 5 18) (bits w 0 5))
  | 3 => whenClear (field w 5 18) (.join (bits w 0 5))
  | 4 => .ok (.brk (bits w 19 4) (bits w 5 14) (bits w 0 5))
  | 5 => whenClear (field w 5 18) (.yield (bits w 0 5))
  | 6 => whenClear (field w 5 18) (.endOp (bits w 0 5))
  | _ => whenClear (field w 5 18) (.nop (bits w 0 5))

/-- Major 1C of the opcode map (R42). -/
def decodeMajor1C (w : Nat) : Except DecodeError Instr :=
  match field w 5 3 with
  | 0 => whenClear (field w 8 6 + field w 20 6) (.jmp (bits w 14 6) (bits w 0 5))
  | 1 => whenClear (field w 8 6) (.callr (bits w 20 6) (bits w 14 6) (bits w 0 5))
  | 2 => whenClear (field w 8 6 + field w 20 6) (.ret (bits w 14 6) (bits w 0 5))
  | 3 => whenClear (field w 20 6) (.reform (bits w 14 6) (bits w 8 6) (bits w 0 5))
  | 4 => whenClear (field w 20 6) (.loop (bits w 14 6) (bits w 8 6) (bits w 0 5))
  | 5 => whenClear (field w 14 12) (.repeatOp (bits w 8 6) (bits w 0 5))
  | 6 => .ok (.qmap (bits w 20 6) (bits w 14 6) (bits w 8 6) (bits w 0 5))
  | _ => whenClear (field w 8 6) (.qstat (bits w 20 6) (bits w 14 6) (bits w 0 5))

/-- Major 1D of the opcode map (R42). -/
def decodeMajor1D (w : Nat) : Except DecodeError Instr :=
  .ok (.ldl (bits w 20 6) (bits w 14 6) (bits w 7 7) (bits w 5 2) (bits w 0 5))

/-- Major 1E of the opcode map (R42). -/
def decodeMajor1E (w : Nat) : Except DecodeError Instr :=
  .ok (.stl (bits w 20 6) (bits w 14 6) (bits w 7 7) (bits w 5 2) (bits w 0 5))

/-- Major 1F of the opcode map (R42). -/
def decodeMajor1F (w : Nat) : Except DecodeError Instr :=
  .ok (.ldc (bits w 20 6) (bits w 14 6) (bits w 7 7) (bits w 5 2) (bits w 0 5))

/-- Major 20 of the opcode map (R42). -/
def decodeMajor20 (w : Nat) : Except DecodeError Instr :=
  .ok (.stc (bits w 20 6) (bits w 14 6) (bits w 7 7) (bits w 5 2) (bits w 0 5))

/-- Major 21 of the opcode map (R42). -/
def decodeMajor21 (w : Nat) : Except DecodeError Instr :=
  match field w 5 3 with
  | 0 => .ok (.aadd (bits w 20 6) (bits w 14 6) (bits w 8 6) (bits w 0 5))
  | 1 => .ok (.amin (bits w 20 6) (bits w 14 6) (bits w 8 6) (bits w 0 5))
  | 2 => .ok (.amax (bits w 20 6) (bits w 14 6) (bits w 8 6) (bits w 0 5))
  | 3 => .ok (.aand (bits w 20 6) (bits w 14 6) (bits w 8 6) (bits w 0 5))
  | 4 => .ok (.aor (bits w 20 6) (bits w 14 6) (bits w 8 6) (bits w 0 5))
  | 5 => .ok (.axor (bits w 20 6) (bits w 14 6) (bits w 8 6) (bits w 0 5))
  | 6 => .ok (.axch (bits w 20 6) (bits w 14 6) (bits w 8 6) (bits w 0 5))
  | _ => .ok (.afadd (bits w 20 6) (bits w 14 6) (bits w 8 6) (bits w 0 5))

/-- Major 22 of the opcode map (R42). -/
def decodeMajor22 (w : Nat) : Except DecodeError Instr :=
  match field w 5 3 with
  | 0 => .ok (.acas (bits w 20 6) (bits w 14 6) (bits w 8 6) (bits w 0 5))
  | 1 => whenClear (field w 8 6 + field w 20 6) (.watch (bits w 14 6) (bits w 0 5))
  | 2 => whenClear (field w 8 6 + field w 20 6) (.unwatch (bits w 14 6) (bits w 0 5))
  | 3 => .ok (.waitw (bits w 20 6) (bits w 14 6) (bits w 8 6) (bits w 0 5))
  | 4 => .ok (.waitge (bits w 20 6) (bits w 14 6) (bits w 8 6) (bits w 0 5))
  | 5 => whenClear (field w 8 18) (.fence (bits w 0 5))
  | 6 => .ok (.ldx (bits w 20 6) (bits w 14 6) (bits w 8 6) (bits w 0 5))
  | _ => .ok (.stx (bits w 20 6) (bits w 14 6) (bits w 8 6) (bits w 0 5))

/-- Major 23 of the opcode map (R42). -/
def decodeMajor23 (w : Nat) : Except DecodeError Instr :=
  match field w 5 3 with
  | 0 => .ok (.cstr (bits w 20 6) (bits w 14 6) (bits w 8 6) (bits w 0 5))
  | 1 => whenClear (field w 8 6) (.xlde (bits w 20 6) (bits w 14 6) (bits w 0 5))
  | 2 => .ok (.ldt (bits w 20 6) (bits w 14 6) (bits w 8 6) (bits w 0 5))
  | 3 => .ok (.bldl (bits w 20 6) (bits w 14 6) (bits w 8 6) (bits w 0 5))
  | _ => .error .reservedSelector

/-- Major 24 of the opcode map (R42). -/
def decodeMajor24 (w : Nat) : Except DecodeError Instr :=
  match field w 10 4 with
  | 0 => whenClear (field w 7 3) (.haul (bits w 20 6) (bits w 14 6) (bits w 5 2) (bits w 0 5))
  | 1 => whenClear (field w 7 3) (.stow (bits w 20 6) (bits w 14 6) (bits w 5 2) (bits w 0 5))
  | 2 => whenClear (field w 7 3) (.haul2 (bits w 20 6) (bits w 14 6) (bits w 5 2) (bits w 0 5))
  | 3 => whenClear (field w 7 3) (.stow2 (bits w 20 6) (bits w 14 6) (bits w 5 2) (bits w 0 5))
  | 4 => whenClear (field w 7 3) (.hault (bits w 20 6) (bits w 14 6) (bits w 5 2) (bits w 0 5))
  | 5 => whenClear (field w 9 1 + field w 14 12) (.qfence (bits w 5 4) (bits w 0 5))
  | 6 => whenClear (field w 7 3) (.cbump (bits w 20 6) (bits w 14 6) (bits w 5 2) (bits w 0 5))
  | 7 => whenClear (field w 7 3 + field w 14 6) (.xstat (bits w 20 6) (bits w 5 2) (bits w 0 5))
  | _ => .error .reservedSelector

/-- Major 25 of the opcode map (R42). -/
def decodeMajor25 (w : Nat) : Except DecodeError Instr :=
  match field w 10 4 with
  | 0 => whenClear (field w 5 5) (.claim (bits w 20 6) (bits w 14 6) (bits w 0 5))
  | 1 => whenClear (field w 5 5 + field w 14 6) (.release (bits w 20 6) (bits w 0 5))
  | 2 => whenClear (field w 5 5) (.tstat (bits w 20 6) (bits w 14 6) (bits w 0 5))
  | 3 => whenClear (field w 5 5) (.tfill (bits w 20 6) (bits w 14 6) (bits w 0 5))
  | 4 => whenClear (field w 5 5) (.tdrain (bits w 20 6) (bits w 14 6) (bits w 0 5))
  | 5 => whenClear (field w 9 1) (.cvtom (bits w 20 6) (bits w 14 6) (bits w 5 4) (bits w 0 5))
  | 6 => whenClear (field w 7 3 + field w 14 12) (.accz (bits w 5 2) (bits w 0 5))
  | 7 => whenClear (field w 14 6) (.accrd (bits w 20 6) (bits w 7 3) (bits w 5 2) (bits w 0 5))
  | 8 => whenClear (field w 14 6) (.accwr (bits w 20 6) (bits w 7 3) (bits w 5 2) (bits w 0 5))
  | 9 => whenClear (field w 5 5 + field w 14 6) (.commit (bits w 20 6) (bits w 0 5))
  | 10 => whenClear (field w 5 5 + field w 14 6) (.waitb (bits w 20 6) (bits w 0 5))
  | 11 => whenClear (field w 7 3 + field w 20 6) (.splice (bits w 14 6) (bits w 5 2) (bits w 0 5))
  | _ => .error .reservedSelector

/-- Major 26 of the opcode map (R42). -/
def decodeMajor26 (w : Nat) : Except DecodeError Instr :=
  match field w 10 4 with
  | 0 => whenClear (field w 7 3) (.mma (bits w 20 6) (bits w 14 6) (bits w 5 2) (bits w 0 5))
  | 1 => whenClear (field w 7 3) (.mmat (bits w 20 6) (bits w 14 6) (bits w 5 2) (bits w 0 5))
  | 2 => whenClear (field w 9 1) (.mmss (bits w 20 6) (bits w 14 6) (bits w 7 2) (bits w 5 2) (bits w 0 5))
  | 3 => whenClear (field w 9 1) (.mmas (bits w 20 6) (bits w 14 6) (bits w 8 1) (bits w 7 1) (bits w 5 2) (bits w 0 5))
  | 4 => whenClear (field w 5 5) (.pstat (bits w 20 6) (bits w 14 6) (bits w 0 5))
  | 5 => whenClear (field w 5 5 + field w 20 6) (.pinv (bits w 14 6) (bits w 0 5))
  | _ => .error .reservedSelector

/-- Major 27 of the opcode map (R42). -/
noncomputable def decodeMajor27 (w : Nat) : Except DecodeError Instr :=
  match field w 5 3 with
  | 0 => .ok (.gather (bits w 20 6) (bits w 14 6) (bits w 8 6) (bits w 0 5))
  | 1 => .ok (.scatter (bits w 20 6) (bits w 14 6) (bits w 8 6) (bits w 0 5))
  | 2 => .ok (.scadd (bits w 20 6) (bits w 14 6) (bits w 8 6) (bits w 0 5))
  | 3 => .ok (.scfadd (bits w 20 6) (bits w 14 6) (bits w 8 6) (bits w 0 5))
  | 4 => .ok (.scmin (bits w 20 6) (bits w 14 6) (bits w 8 6) (bits w 0 5))
  | 5 => .ok (.scmax (bits w 20 6) (bits w 14 6) (bits w 8 6) (bits w 0 5))
  | 6 => .ok (.hacc (bits w 20 6) (bits w 14 6) (bits w 8 6) (bits w 0 5))
  | _ => .ok (.hfind (bits w 20 6) (bits w 14 6) (bits w 8 6) (bits w 0 5))

/-- Major 28 of the opcode map (R42). -/
noncomputable def decodeMajor28 (w : Nat) : Except DecodeError Instr :=
  match field w 10 4 with
  | 0 => whenClear (field w 5 5) (.send (bits w 20 6) (bits w 14 6) (bits w 0 5))
  | 1 => whenClear (field w 5 5) (.hbind (bits w 20 6) (bits w 14 6) (bits w 0 5))
  | 2 => whenClear (field w 5 5 + field w 14 6) (.hunbind (bits w 20 6) (bits w 0 5))
  | 3 => whenClear (field w 5 5 + field w 14 12) (.hdone (bits w 0 5))
  | 4 => .ok (.mpost (bits w 20 6) (bits w 14 6) (bits w 5 5) (bits w 0 5))
  | 5 => whenClear (field w 14 6) (.mtake (bits w 20 6) (bits w 5 5) (bits w 0 5))
  | 6 => whenClear (field w 5 5 + field w 14 12) (.maskon (bits w 0 5))
  | 7 => whenClear (field w 5 5 + field w 14 12) (.maskoff (bits w 0 5))
  | 8 => whenClear (field w 5 5 + field w 14 6) (.wsplit (bits w 20 6) (bits w 0 5))
  | 9 => whenClear (field w 5 5) (.wret (bits w 20 6) (bits w 14 6) (bits w 0 5))
  | _ => .error .reservedSelector

/-- Major 29 of the opcode map (R42). -/
noncomputable def decodeMajor29 (w : Nat) : Except DecodeError Instr :=
  match field w 10 4 with
  | 0 => whenClear (field w 5 5) (.rsend (bits w 20 6) (bits w 14 6) (bits w 0 5))
  | 1 => whenClear (field w 5 5) (.rld (bits w 20 6) (bits w 14 6) (bits w 0 5))
  | 2 => .ok (.rbox4 (bits w 20 6) (bits w 14 6) (bits w 5 5) (bits w 0 5))
  | 3 => .ok (.rtri (bits w 20 6) (bits w 14 6) (bits w 5 5) (bits w 0 5))
  | 4 => whenClear (field w 5 5) (.rhit (bits w 20 6) (bits w 14 6) (bits w 0 5))
  | 5 => whenClear (field w 5 5) (.town (bits w 20 6) (bits w 14 6) (bits w 0 5))
  | 6 => whenClear (field w 5 5) (.tpin (bits w 20 6) (bits w 14 6) (bits w 0 5))
  | 7 => whenClear (field w 5 5 + field w 14 6) (.tevict (bits w 20 6) (bits w 0 5))
  | _ => .error .reservedSelector

/-- Major 2A of the opcode map (R42). -/
noncomputable def decodeMajor2A (w : Nat) : Except DecodeError Instr :=
  match field w 10 4 with
  | 0 => whenClear (field w 5 2 + field w 20 6) (.bar (bits w 14 6) (bits w 7 3) (bits w 0 5))
  | 1 => whenClear (field w 5 2) (.bara (bits w 20 6) (bits w 14 6) (bits w 7 3) (bits w 0 5))
  | 2 => whenClear (field w 5 2) (.barw (bits w 20 6) (bits w 14 6) (bits w 7 3) (bits w 0 5))
  | 3 => whenClear (field w 5 2) (.barinit (bits w 20 6) (bits w 14 6) (bits w 7 3) (bits w 0 5))
  | 4 => whenClear (field w 5 2) (.cntsum (bits w 20 6) (bits w 14 6) (bits w 7 3) (bits w 0 5))
  | _ => .error .reservedSelector

/-- Major 2B of the opcode map (R42). -/
noncomputable def decodeMajor2B (w : Nat) : Except DecodeError Instr :=
  match field w 10 4 with
  | 0 => whenClear (field w 5 5) (.launch (bits w 20 6) (bits w 14 6) (bits w 0 5))
  | 1 => whenClear (field w 5 5 + field w 14 6) (.kwait (bits w 20 6) (bits w 0 5))
  | 2 => whenClear (field w 5 5) (.kstat (bits w 20 6) (bits w 14 6) (bits w 0 5))
  | _ => .error .reservedSelector

/-- Major 2C of the opcode map (R42); the five CSAVE operations share one word and are chosen by K bits 2:0 of the unit (R408). -/
noncomputable def decodeMajor2C (k : Nat) (w : Nat) : Except DecodeError Instr :=
  match field w 10 4 with
  | 0 => whenClear (field w 5 5 + field w 14 12) (.trap (bits w 0 5))
  | 1 => whenClear (field w 5 5 + field w 14 12) (.rte (bits w 0 5))
  | 2 => whenClear (field w 5 5 + field w 14 6) (.sysr (bits w 20 6) (bits w 0 5))
  | 3 => whenClear (field w 5 5 + field w 14 6) (.sysw (bits w 20 6) (bits w 0 5))
  | 4 => whenClear (field w 5 5) (.l2wb (bits w 20 6) (bits w 14 6) (bits w 0 5))
  | 5 => whenClear (field w 5 5) (.l2inv (bits w 20 6) (bits w 14 6) (bits w 0 5))
  | 6 => whenClear (field w 5 5) (.tsinv (bits w 20 6) (bits w 14 6) (bits w 0 5))
  | 7 => whenClear (field w 5 5) (.lspin (bits w 20 6) (bits w 14 6) (bits w 0 5))
  | 8 => whenClear (field w 5 5) (.lsunpin (bits w 20 6) (bits w 14 6) (bits w 0 5))
  | 9 => whenClear (field w 5 5 + field w 14 6) (.halt (bits w 20 6) (bits w 0 5))
  | 10 =>
    match k % 8 with
    | 1 => whenClear (field w 5 5) (.csavePlace (bits w 20 6) (bits w 14 6) (bits w 0 5))
    | 2 => whenClear (field w 5 5) (.csaveSave (bits w 20 6) (bits w 14 6) (bits w 0 5))
    | 3 => whenClear (field w 5 5) (.csaveDestroy (bits w 20 6) (bits w 14 6) (bits w 0 5))
    | 4 => whenClear (field w 5 5) (.csaveStatus (bits w 20 6) (bits w 14 6) (bits w 0 5))
    | _ => whenClear (field w 5 5) (.csaveCreate (bits w 20 6) (bits w 14 6) (bits w 0 5))
  | _ => .error .reservedSelector

/-- The hint words, major 3F, by KIND (R35). -/
def decodeHint (w : Nat) : Except DecodeError Instr :=
  match field w 23 3 with
  | 0 => .ok (.ximmHint (bits w 0 23))
  | 1 => whenClear (field w 7 16) (.guardHint (bits w 6 1) (bits w 0 6))
  | 2 => whenClear (field w 5 18) (.schedHint (bits w 4 1) (bits w 0 4))
  | 3 => whenClear (field w 16 7) (.modHint (bits w 14 2) (bits w 13 1) (bits w 7 6) (bits w 6 1) (bits w 4 2) (bits w 3 1) (bits w 0 3))
  | _ => .error .reservedHint

/-- The instruction that word `w` encodes, in a unit whose XIMM hint carries `k` (0 without one). -/
noncomputable def decodeWord (k w : Nat) : Except DecodeError Instr :=
  if w = 0 then .error .zeroWord else
  match field w 26 6 with
  | 0x00 => decodeMajor00 w
  | 0x01 => decodeMajor01 w
  | 0x02 => decodeMajor02 w
  | 0x03 => decodeMajor03 w
  | 0x04 => decodeMajor04 w
  | 0x05 => decodeMajor05 w
  | 0x06 => decodeMajor06 w
  | 0x07 => decodeMajor07 w
  | 0x08 => decodeMajor08 w
  | 0x09 => decodeMajor09 w
  | 0x0A => decodeMajor0A w
  | 0x0B => decodeMajor0B w
  | 0x0C => decodeMajor0C w
  | 0x0D => decodeMajor0D w
  | 0x0E => decodeMajor0E w
  | 0x0F => decodeMajor0F w
  | 0x10 => decodeMajor10 w
  | 0x11 => decodeMajor11 w
  | 0x12 => decodeMajor12 w
  | 0x13 => decodeMajor13 w
  | 0x14 => decodeMajor14 w
  | 0x15 => decodeMajor15 w
  | 0x16 => decodeMajor16 w
  | 0x17 => decodeMajor17 w
  | 0x18 => decodeMajor18 w
  | 0x19 => decodeMajor19 w
  | 0x1A => decodeMajor1A w
  | 0x1B => decodeMajor1B w
  | 0x1C => decodeMajor1C w
  | 0x1D => decodeMajor1D w
  | 0x1E => decodeMajor1E w
  | 0x1F => decodeMajor1F w
  | 0x20 => decodeMajor20 w
  | 0x21 => decodeMajor21 w
  | 0x22 => decodeMajor22 w
  | 0x23 => decodeMajor23 w
  | 0x24 => decodeMajor24 w
  | 0x25 => decodeMajor25 w
  | 0x26 => decodeMajor26 w
  | 0x27 => decodeMajor27 w
  | 0x28 => decodeMajor28 w
  | 0x29 => decodeMajor29 w
  | 0x2A => decodeMajor2A w
  | 0x2B => decodeMajor2B w
  | 0x2C => decodeMajor2C k w
  | 0x3F => decodeHint w
  | _ => .error .reservedMajor

/-- The first instruction of a list of bytes, with the bytes that follow it. -/
noncomputable def decode (k : Nat) (bytes : List Byte) : Except DecodeError (Instr × List Byte) :=
  match wordOfBytes bytes with
  | none => .error .short
  | some (w, rest) =>
    match decodeWord k w with
    | .ok i => .ok (i, rest)
    | .error e => .error e

/-- The K bits that tell the five CSAVE operations apart (R408); 0 for every other instruction. -/
def selectorK : Instr → Nat
  | .csavePlace _ _ _ => 1
  | .csaveSave _ _ _ => 2
  | .csaveDestroy _ _ _ => 3
  | .csaveStatus _ _ _ => 4
  | _ => 0

/-- The instruction the decoder reads from the opcode table's bits of a row: every instruction is one 32-bit word (R23). -/
noncomputable def decodeTableWord (nbits w : Nat) : Option Instr :=
  if nbits = 32 then
    match decode 0 (bytesOfWord w) with
    | .ok (i, []) => some i
    | _ => none
  else none

/-- The word of an instruction, from the same tables (R23, R42): major, selector and fields, every unused field zero (R25).
An event has no word. -/
def encode : Instr → Option Nat
  | .ximmHint x => some (0xfc000000 + x.toNat)
  | .guardHint s p => some (0xfc800000 + s.toNat * 64 + p.toNat)
  | .schedHint y c => some (0xfd000000 + y.toNat * 16 + c.toNat)
  | .modHint l e c f s n r => some (0xfd800000 + l.toNat * 16384 + e.toNat * 8192 + c.toNat * 128 + f.toNat * 64 + s.toNat * 16 + n.toNat * 8 + r.toNat)
  | .add d a b g => some (0x0 + d.toNat * 1048576 + a.toNat * 16384 + b.toNat * 256 + g.toNat)
  | .sub d a b g => some (0x20 + d.toNat * 1048576 + a.toNat * 16384 + b.toNat * 256 + g.toNat)
  | .mul d a b g => some (0x40 + d.toNat * 1048576 + a.toNat * 16384 + b.toNat * 256 + g.toNat)
  | .mulh d a b g => some (0x60 + d.toNat * 1048576 + a.toNat * 16384 + b.toNat * 256 + g.toNat)
  | .mulhn d a b g => some (0x80 + d.toNat * 1048576 + a.toNat * 16384 + b.toNat * 256 + g.toNat)
  | .mad d a b g => some (0xa0 + d.toNat * 1048576 + a.toNat * 16384 + b.toNat * 256 + g.toNat)
  | .minOp d a b g => some (0xc0 + d.toNat * 1048576 + a.toNat * 16384 + b.toNat * 256 + g.toNat)
  | .maxOp d a b g => some (0xe0 + d.toNat * 1048576 + a.toNat * 16384 + b.toNat * 256 + g.toNat)
  | .andOp d a b g => some (0x4000000 + d.toNat * 1048576 + a.toNat * 16384 + b.toNat * 256 + g.toNat)
  | .orOp d a b g => some (0x4000020 + d.toNat * 1048576 + a.toNat * 16384 + b.toNat * 256 + g.toNat)
  | .xorOp d a b g => some (0x4000040 + d.toNat * 1048576 + a.toNat * 16384 + b.toNat * 256 + g.toNat)
  | .andn d a b g => some (0x4000060 + d.toNat * 1048576 + a.toNat * 16384 + b.toNat * 256 + g.toNat)
  | .shl d a b g => some (0x4000080 + d.toNat * 1048576 + a.toNat * 16384 + b.toNat * 256 + g.toNat)
  | .shr d a b g => some (0x40000a0 + d.toNat * 1048576 + a.toNat * 16384 + b.toNat * 256 + g.toNat)
  | .sar d a b g => some (0x40000c0 + d.toNat * 1048576 + a.toNat * 16384 + b.toNat * 256 + g.toNat)
  | .rotl d a b g => some (0x40000e0 + d.toNat * 1048576 + a.toNat * 16384 + b.toNat * 256 + g.toNat)
  | .minn d a b g => some (0x8000000 + d.toNat * 1048576 + a.toNat * 16384 + b.toNat * 256 + g.toNat)
  | .maxn d a b g => some (0x8000020 + d.toNat * 1048576 + a.toNat * 16384 + b.toNat * 256 + g.toNat)
  | .absOp d a g => some (0x8000040 + d.toNat * 1048576 + a.toNat * 16384 + g.toNat)
  | .neg d a g => some (0x8000060 + d.toNat * 1048576 + a.toNat * 16384 + g.toNat)
  | .fshr d a b g => some (0x8000080 + d.toNat * 1048576 + a.toNat * 16384 + b.toNat * 256 + g.toNat)
  | .bfx d a b g => some (0x80000a0 + d.toNat * 1048576 + a.toNat * 16384 + b.toNat * 256 + g.toNat)
  | .bfi d a b g => some (0x80000c0 + d.toNat * 1048576 + a.toNat * 16384 + b.toNat * 256 + g.toNat)
  | .bprm d a b g => some (0x80000e0 + d.toNat * 1048576 + a.toNat * 16384 + b.toNat * 256 + g.toNat)
  | .popc d a g => some (0xc000000 + d.toNat * 1048576 + a.toNat * 16384 + g.toNat)
  | .clz d a g => some (0xc000020 + d.toNat * 1048576 + a.toNat * 16384 + g.toNat)
  | .ctz d a g => some (0xc000040 + d.toNat * 1048576 + a.toNat * 16384 + g.toNat)
  | .brev d a g => some (0xc000060 + d.toNat * 1048576 + a.toNat * 16384 + g.toNat)
  | .mulw d a b g => some (0xc000080 + d.toNat * 1048576 + a.toNat * 16384 + b.toNat * 256 + g.toNat)
  | .mulwn d a b g => some (0xc0000a0 + d.toNat * 1048576 + a.toNat * 16384 + b.toNat * 256 + g.toNat)
  | .addc d a b g => some (0xc0000c0 + d.toNat * 1048576 + a.toNat * 16384 + b.toNat * 256 + g.toNat)
  | .subc d a b g => some (0xc0000e0 + d.toNat * 1048576 + a.toNat * 16384 + b.toNat * 256 + g.toNat)
  | .addi d a i g => some (0x10000000 + d.toNat * 1048576 + a.toNat * 16384 + i.toNat * 32 + g.toNat)
  | .andi d a i g => some (0x14000000 + d.toNat * 1048576 + a.toNat * 16384 + i.toNat * 32 + g.toNat)
  | .ori d a i g => some (0x18000000 + d.toNat * 1048576 + a.toNat * 16384 + i.toNat * 32 + g.toNat)
  | .xori d a i g => some (0x1c000000 + d.toNat * 1048576 + a.toNat * 16384 + i.toNat * 32 + g.toNat)
  | .shi d a k n g => some (0x20000000 + d.toNat * 1048576 + a.toNat * 16384 + k.toNat * 2048 + n.toNat * 32 + g.toNat)
  | .limm d i g => some (0x24000000 + d.toNat * 1048576 + i.toNat * 32 + g.toNat)
  | .mov d a g => some (0x28000000 + d.toNat * 1048576 + a.toNat * 16384 + g.toNat)
  | .sel d a b s => some (0x28000020 + d.toNat * 1048576 + a.toNat * 16384 + b.toNat * 256 + s.toNat)
  | .sxb d a g => some (0x28000040 + d.toNat * 1048576 + a.toNat * 16384 + g.toNat)
  | .sxh d a g => some (0x28000060 + d.toNat * 1048576 + a.toNat * 16384 + g.toNat)
  | .zxb d a g => some (0x28000080 + d.toNat * 1048576 + a.toNat * 16384 + g.toNat)
  | .zxh d a g => some (0x280000a0 + d.toNat * 1048576 + a.toNat * 16384 + g.toNat)
  | .moder d g => some (0x280000c0 + d.toNat * 1048576 + g.toNat)
  | .modew a b g => some (0x280000e0 + a.toNat * 16384 + b.toNat * 256 + g.toNat)
  | .icmpEq p a b g => some (0x2c000000 + p.toNat * 1048576 + a.toNat * 16384 + b.toNat * 256 + g.toNat)
  | .icmpNe p a b g => some (0x2c000020 + p.toNat * 1048576 + a.toNat * 16384 + b.toNat * 256 + g.toNat)
  | .icmpLt p a b g => some (0x2c000040 + p.toNat * 1048576 + a.toNat * 16384 + b.toNat * 256 + g.toNat)
  | .icmpLe p a b g => some (0x2c000060 + p.toNat * 1048576 + a.toNat * 16384 + b.toNat * 256 + g.toNat)
  | .icmpLtn p a b g => some (0x2c000080 + p.toNat * 1048576 + a.toNat * 16384 + b.toNat * 256 + g.toNat)
  | .icmpLen p a b g => some (0x2c0000a0 + p.toNat * 1048576 + a.toNat * 16384 + b.toNat * 256 + g.toNat)
  | .icmpBits p a b g => some (0x2c0000c0 + p.toNat * 1048576 + a.toNat * 16384 + b.toNat * 256 + g.toNat)
  | .icmpNone p a b g => some (0x2c0000e0 + p.toNat * 1048576 + a.toNat * 16384 + b.toNat * 256 + g.toNat)
  | .fcmpEq p a b g => some (0x30000000 + p.toNat * 1048576 + a.toNat * 16384 + b.toNat * 256 + g.toNat)
  | .fcmpNe p a b g => some (0x30000020 + p.toNat * 1048576 + a.toNat * 16384 + b.toNat * 256 + g.toNat)
  | .fcmpLt p a b g => some (0x30000040 + p.toNat * 1048576 + a.toNat * 16384 + b.toNat * 256 + g.toNat)
  | .fcmpLe p a b g => some (0x30000060 + p.toNat * 1048576 + a.toNat * 16384 + b.toNat * 256 + g.toNat)
  | .fcmpGt p a b g => some (0x30000080 + p.toNat * 1048576 + a.toNat * 16384 + b.toNat * 256 + g.toNat)
  | .fcmpGe p a b g => some (0x300000a0 + p.toNat * 1048576 + a.toNat * 16384 + b.toNat * 256 + g.toNat)
  | .fcmpUn p a b g => some (0x300000c0 + p.toNat * 1048576 + a.toNat * 16384 + b.toNat * 256 + g.toNat)
  | .fcmpOrd p a b g => some (0x300000e0 + p.toNat * 1048576 + a.toNat * 16384 + b.toNat * 256 + g.toNat)
  | .dcmpEq p a b g => some (0x34000000 + p.toNat * 1048576 + a.toNat * 16384 + b.toNat * 256 + g.toNat)
  | .dcmpNe p a b g => some (0x34000020 + p.toNat * 1048576 + a.toNat * 16384 + b.toNat * 256 + g.toNat)
  | .dcmpLt p a b g => some (0x34000040 + p.toNat * 1048576 + a.toNat * 16384 + b.toNat * 256 + g.toNat)
  | .dcmpLe p a b g => some (0x34000060 + p.toNat * 1048576 + a.toNat * 16384 + b.toNat * 256 + g.toNat)
  | .dcmpGt p a b g => some (0x34000080 + p.toNat * 1048576 + a.toNat * 16384 + b.toNat * 256 + g.toNat)
  | .dcmpGe p a b g => some (0x340000a0 + p.toNat * 1048576 + a.toNat * 16384 + b.toNat * 256 + g.toNat)
  | .dcmpUn p a b g => some (0x340000c0 + p.toNat * 1048576 + a.toNat * 16384 + b.toNat * 256 + g.toNat)
  | .dcmpOrd p a b g => some (0x340000e0 + p.toNat * 1048576 + a.toNat * 16384 + b.toNat * 256 + g.toNat)
  | .plopAnd p a b g => some (0x38000000 + p.toNat * 1048576 + a.toNat * 16384 + b.toNat * 256 + g.toNat)
  | .plopOr p a b g => some (0x38000020 + p.toNat * 1048576 + a.toNat * 16384 + b.toNat * 256 + g.toNat)
  | .plopXor p a b g => some (0x38000040 + p.toNat * 1048576 + a.toNat * 16384 + b.toNat * 256 + g.toNat)
  | .plopAndn p a b g => some (0x38000060 + p.toNat * 1048576 + a.toNat * 16384 + b.toNat * 256 + g.toNat)
  | .plopOrn p a b g => some (0x38000080 + p.toNat * 1048576 + a.toNat * 16384 + b.toNat * 256 + g.toNat)
  | .plopNand p a b g => some (0x380000a0 + p.toNat * 1048576 + a.toNat * 16384 + b.toNat * 256 + g.toNat)
  | .plopNor p a b g => some (0x380000c0 + p.toNat * 1048576 + a.toNat * 16384 + b.toNat * 256 + g.toNat)
  | .plopXnor p a b g => some (0x380000e0 + p.toNat * 1048576 + a.toNat * 16384 + b.toNat * 256 + g.toNat)
  | .p2g d p g => some (0x3c000000 + d.toNat * 1048576 + p.toNat * 16384 + g.toNat)
  | .g2p p a g => some (0x3c000020 + p.toNat * 1048576 + a.toNat * 16384 + g.toNat)
  | .ballot d p g => some (0x3c000040 + d.toNat * 1048576 + p.toNat * 16384 + g.toNat)
  | .anyOp q p g => some (0x3c000060 + q.toNat * 1048576 + p.toNat * 16384 + g.toNat)
  | .allOp q p g => some (0x3c000080 + q.toNat * 1048576 + p.toNat * 16384 + g.toNat)
  | .uni p a g => some (0x3c0000a0 + p.toNat * 1048576 + a.toNat * 16384 + g.toNat)
  | .pgetw d n g => some (0x3c0000c0 + d.toNat * 1048576 + n.toNat * 256 + g.toNat)
  | .psetw a n g => some (0x3c0000e0 + a.toNat * 16384 + n.toNat * 256 + g.toNat)
  | .fadd d a b g => some (0x40000000 + d.toNat * 1048576 + a.toNat * 16384 + b.toNat * 256 + g.toNat)
  | .fsub d a b g => some (0x40000020 + d.toNat * 1048576 + a.toNat * 16384 + b.toNat * 256 + g.toNat)
  | .fmul d a b g => some (0x40000040 + d.toNat * 1048576 + a.toNat * 16384 + b.toNat * 256 + g.toNat)
  | .ffma d a b g => some (0x40000060 + d.toNat * 1048576 + a.toNat * 16384 + b.toNat * 256 + g.toNat)
  | .ffms d a b g => some (0x40000080 + d.toNat * 1048576 + a.toNat * 16384 + b.toNat * 256 + g.toNat)
  | .fmin d a b g => some (0x400000a0 + d.toNat * 1048576 + a.toNat * 16384 + b.toNat * 256 + g.toNat)
  | .fmax d a b g => some (0x400000c0 + d.toNat * 1048576 + a.toNat * 16384 + b.toNat * 256 + g.toNat)
  | .fabsn d a o g => some (0x400000e0 + d.toNat * 1048576 + a.toNat * 16384 + o.toNat * 256 + g.toNat)
  | .frcp d a g => some (0x44000000 + d.toNat * 1048576 + a.toNat * 16384 + g.toNat)
  | .frsq d a g => some (0x44000020 + d.toNat * 1048576 + a.toNat * 16384 + g.toNat)
  | .fsqrt d a g => some (0x44000040 + d.toNat * 1048576 + a.toNat * 16384 + g.toNat)
  | .fex2 d a g => some (0x44000060 + d.toNat * 1048576 + a.toNat * 16384 + g.toNat)
  | .flg2 d a g => some (0x44000080 + d.toNat * 1048576 + a.toNat * 16384 + g.toNat)
  | .fsin d a g => some (0x440000a0 + d.toNat * 1048576 + a.toNat * 16384 + g.toNat)
  | .fcos d a g => some (0x440000c0 + d.toNat * 1048576 + a.toNat * 16384 + g.toNat)
  | .frint d a g => some (0x440000e0 + d.toNat * 1048576 + a.toNat * 16384 + g.toNat)
  | .dadd d a b g => some (0x48000000 + d.toNat * 1048576 + a.toNat * 16384 + b.toNat * 256 + g.toNat)
  | .dsub d a b g => some (0x48000020 + d.toNat * 1048576 + a.toNat * 16384 + b.toNat * 256 + g.toNat)
  | .dmul d a b g => some (0x48000040 + d.toNat * 1048576 + a.toNat * 16384 + b.toNat * 256 + g.toNat)
  | .dfma d a b g => some (0x48000060 + d.toNat * 1048576 + a.toNat * 16384 + b.toNat * 256 + g.toNat)
  | .dmin d a b g => some (0x48000080 + d.toNat * 1048576 + a.toNat * 16384 + b.toNat * 256 + g.toNat)
  | .dmax d a b g => some (0x480000a0 + d.toNat * 1048576 + a.toNat * 16384 + b.toNat * 256 + g.toNat)
  | .dabsn d a o g => some (0x480000c0 + d.toNat * 1048576 + a.toNat * 16384 + o.toNat * 256 + g.toNat)
  | .dsqrt d a g => some (0x480000e0 + d.toNat * 1048576 + a.toNat * 16384 + g.toNat)
  | .hadd2 d a b g => some (0x4c000000 + d.toNat * 1048576 + a.toNat * 16384 + b.toNat * 256 + g.toNat)
  | .hmul2 d a b g => some (0x4c000020 + d.toNat * 1048576 + a.toNat * 16384 + b.toNat * 256 + g.toNat)
  | .hfma2 d a b g => some (0x4c000040 + d.toNat * 1048576 + a.toNat * 16384 + b.toNat * 256 + g.toNat)
  | .hmax2 d a b g => some (0x4c000060 + d.toNat * 1048576 + a.toNat * 16384 + b.toNat * 256 + g.toNat)
  | .badd2 d a b g => some (0x4c000080 + d.toNat * 1048576 + a.toNat * 16384 + b.toNat * 256 + g.toNat)
  | .bmul2 d a b g => some (0x4c0000a0 + d.toNat * 1048576 + a.toNat * 16384 + b.toNat * 256 + g.toNat)
  | .bfma2 d a b g => some (0x4c0000c0 + d.toNat * 1048576 + a.toNat * 16384 + b.toNat * 256 + g.toNat)
  | .bmax2 d a b g => some (0x4c0000e0 + d.toNat * 1048576 + a.toNat * 16384 + b.toNat * 256 + g.toNat)
  | .f2i d a g => some (0x50000000 + d.toNat * 1048576 + a.toNat * 16384 + g.toNat)
  | .i2f d a g => some (0x50000020 + d.toNat * 1048576 + a.toNat * 16384 + g.toNat)
  | .f2n d a g => some (0x50000040 + d.toNat * 1048576 + a.toNat * 16384 + g.toNat)
  | .n2f d a g => some (0x50000060 + d.toNat * 1048576 + a.toNat * 16384 + g.toNat)
  | .f2d d a g => some (0x50000080 + d.toNat * 1048576 + a.toNat * 16384 + g.toNat)
  | .d2f d a g => some (0x500000a0 + d.toNat * 1048576 + a.toNat * 16384 + g.toNat)
  | .f2h2 d a b g => some (0x500000c0 + d.toNat * 1048576 + a.toNat * 16384 + b.toNat * 256 + g.toNat)
  | .f2b2 d a b g => some (0x500000e0 + d.toNat * 1048576 + a.toNat * 16384 + b.toNat * 256 + g.toNat)
  | .h2f d a g => some (0x54000000 + d.toNat * 1048576 + a.toNat * 16384 + g.toNat)
  | .b2f d a g => some (0x54000020 + d.toNat * 1048576 + a.toNat * 16384 + g.toNat)
  | .d2i d a g => some (0x54000040 + d.toNat * 1048576 + a.toNat * 16384 + g.toNat)
  | .i2d d a g => some (0x54000060 + d.toNat * 1048576 + a.toNat * 16384 + g.toNat)
  | .f2k d a b g => some (0x54000080 + d.toNat * 1048576 + a.toNat * 16384 + b.toNat * 256 + g.toNat)
  | .k2f d a h g => some (0x540000a0 + d.toNat * 1048576 + a.toNat * 16384 + h.toNat * 256 + g.toNat)
  | .shfli d a b g => some (0x58000000 + d.toNat * 1048576 + a.toNat * 16384 + b.toNat * 256 + g.toNat)
  | .shflu d a k g => some (0x58000020 + d.toNat * 1048576 + a.toNat * 16384 + k.toNat * 256 + g.toNat)
  | .shfld d a k g => some (0x58000040 + d.toNat * 1048576 + a.toNat * 16384 + k.toNat * 256 + g.toNat)
  | .shflx d a k g => some (0x58000060 + d.toNat * 1048576 + a.toNat * 16384 + k.toNat * 256 + g.toNat)
  | .confl d a g => some (0x58000080 + d.toNat * 1048576 + a.toNat * 16384 + g.toNat)
  | .matchOp d a g => some (0x580000a0 + d.toNat * 1048576 + a.toNat * 16384 + g.toNat)
  | .bcast d a k g => some (0x580000c0 + d.toNat * 1048576 + a.toNat * 16384 + k.toNat * 256 + g.toNat)
  | .iredadd d a g => some (0x5c000000 + d.toNat * 1048576 + a.toNat * 16384 + g.toNat)
  | .iredmin d a g => some (0x5c000020 + d.toNat * 1048576 + a.toNat * 16384 + g.toNat)
  | .iredmax d a g => some (0x5c000040 + d.toNat * 1048576 + a.toNat * 16384 + g.toNat)
  | .iredor d a g => some (0x5c000060 + d.toNat * 1048576 + a.toNat * 16384 + g.toNat)
  | .iredand d a g => some (0x5c000080 + d.toNat * 1048576 + a.toNat * 16384 + g.toNat)
  | .fredadd d a g => some (0x5c0000a0 + d.toNat * 1048576 + a.toNat * 16384 + g.toNat)
  | .fredmin d a g => some (0x5c0000c0 + d.toNat * 1048576 + a.toNat * 16384 + g.toNat)
  | .fredmax d a g => some (0x5c0000e0 + d.toNat * 1048576 + a.toNat * 16384 + g.toNat)
  | .iscan d a g => some (0x60000000 + d.toNat * 1048576 + a.toNat * 16384 + g.toNat)
  | .iscanx d a g => some (0x60000020 + d.toNat * 1048576 + a.toNat * 16384 + g.toNat)
  | .fscan d a g => some (0x60000040 + d.toNat * 1048576 + a.toNat * 16384 + g.toNat)
  | .fscanx d a g => some (0x60000060 + d.toNat * 1048576 + a.toNat * 16384 + g.toNat)
  | .iscanmax d a g => some (0x60000080 + d.toNat * 1048576 + a.toNat * 16384 + g.toNat)
  | .iscanor d a g => some (0x600000a0 + d.toNat * 1048576 + a.toNat * 16384 + g.toNat)
  | .lbind a k g => some (0x64000000 + a.toNat * 16384 + k.toNat * 256 + g.toNat)
  | .lfree g => some (0x64000020 + g.toNat)
  | .ladd d a b g => some (0x64000040 + d.toNat * 1048576 + a.toNat * 16384 + b.toNat * 256 + g.toNat)
  | .lsub d a b g => some (0x64000060 + d.toNat * 1048576 + a.toNat * 16384 + b.toNat * 256 + g.toNat)
  | .lneg d a g => some (0x64000080 + d.toNat * 1048576 + a.toNat * 16384 + g.toNat)
  | .lshl d a b g => some (0x640000a0 + d.toNat * 1048576 + a.toNat * 16384 + b.toNat * 256 + g.toNat)
  | .lshr d a b g => some (0x640000c0 + d.toNat * 1048576 + a.toNat * 16384 + b.toNat * 256 + g.toNat)
  | .lcmp d a b g => some (0x640000e0 + d.toNat * 1048576 + a.toNat * 16384 + b.toNat * 256 + g.toNat)
  | .lmuls d a b g => some (0x68000000 + d.toNat * 1048576 + a.toNat * 16384 + b.toNat * 256 + g.toNat)
  | .ldep d a g => some (0x68000020 + d.toNat * 1048576 + a.toNat * 16384 + g.toNat)
  | .ldepd d a g => some (0x68000040 + d.toNat * 1048576 + a.toNat * 16384 + g.toNat)
  | .lrnd d a g => some (0x68000060 + d.toNat * 1048576 + a.toNat * 16384 + g.toNat)
  | .lrndd d a g => some (0x68000080 + d.toNat * 1048576 + a.toNat * 16384 + g.toNat)
  | .ltop d a g => some (0x680000a0 + d.toNat * 1048576 + a.toNat * 16384 + g.toNat)
  | .lstat d g => some (0x680000c0 + d.toNat * 1048576 + g.toNat)
  | .lclr m g => some (0x680000e0 + m.toNat * 256 + g.toNat)
  | .bra o g => some (0x6c000000 + o.toNat * 32 + g.toNat)
  | .call o g => some (0x6c800000 + o.toNat * 32 + g.toNat)
  | .split o g => some (0x6d000000 + o.toNat * 32 + g.toNat)
  | .join g => some (0x6d800000 + g.toNat)
  | .brk n o g => some (0x6e000000 + n.toNat * 524288 + o.toNat * 32 + g.toNat)
  | .yield g => some (0x6e800000 + g.toNat)
  | .endOp g => some (0x6f000000 + g.toNat)
  | .nop g => some (0x6f800000 + g.toNat)
  | .jmp a g => some (0x70000000 + a.toNat * 16384 + g.toNat)
  | .callr d a g => some (0x70000020 + d.toNat * 1048576 + a.toNat * 16384 + g.toNat)
  | .ret a g => some (0x70000040 + a.toNat * 16384 + g.toNat)
  | .reform a n g => some (0x70000060 + a.toNat * 16384 + n.toNat * 256 + g.toNat)
  | .loop a n g => some (0x70000080 + a.toNat * 16384 + n.toNat * 256 + g.toNat)
  | .repeatOp n g => some (0x700000a0 + n.toNat * 256 + g.toNat)
  | .qmap d a b g => some (0x700000c0 + d.toNat * 1048576 + a.toNat * 16384 + b.toNat * 256 + g.toNat)
  | .qstat d a g => some (0x700000e0 + d.toNat * 1048576 + a.toNat * 16384 + g.toNat)
  | .ldl t b o s g => some (0x74000000 + t.toNat * 1048576 + b.toNat * 16384 + o.toNat * 128 + s.toNat * 32 + g.toNat)
  | .stl t b o s g => some (0x78000000 + t.toNat * 1048576 + b.toNat * 16384 + o.toNat * 128 + s.toNat * 32 + g.toNat)
  | .ldc t b o s g => some (0x7c000000 + t.toNat * 1048576 + b.toNat * 16384 + o.toNat * 128 + s.toNat * 32 + g.toNat)
  | .stc t b o s g => some (0x80000000 + t.toNat * 1048576 + b.toNat * 16384 + o.toNat * 128 + s.toNat * 32 + g.toNat)
  | .aadd d a b g => some (0x84000000 + d.toNat * 1048576 + a.toNat * 16384 + b.toNat * 256 + g.toNat)
  | .amin d a b g => some (0x84000020 + d.toNat * 1048576 + a.toNat * 16384 + b.toNat * 256 + g.toNat)
  | .amax d a b g => some (0x84000040 + d.toNat * 1048576 + a.toNat * 16384 + b.toNat * 256 + g.toNat)
  | .aand d a b g => some (0x84000060 + d.toNat * 1048576 + a.toNat * 16384 + b.toNat * 256 + g.toNat)
  | .aor d a b g => some (0x84000080 + d.toNat * 1048576 + a.toNat * 16384 + b.toNat * 256 + g.toNat)
  | .axor d a b g => some (0x840000a0 + d.toNat * 1048576 + a.toNat * 16384 + b.toNat * 256 + g.toNat)
  | .axch d a b g => some (0x840000c0 + d.toNat * 1048576 + a.toNat * 16384 + b.toNat * 256 + g.toNat)
  | .afadd d a b g => some (0x840000e0 + d.toNat * 1048576 + a.toNat * 16384 + b.toNat * 256 + g.toNat)
  | .acas d a b g => some (0x88000000 + d.toNat * 1048576 + a.toNat * 16384 + b.toNat * 256 + g.toNat)
  | .watch a g => some (0x88000020 + a.toNat * 16384 + g.toNat)
  | .unwatch a g => some (0x88000040 + a.toNat * 16384 + g.toNat)
  | .waitw d a b g => some (0x88000060 + d.toNat * 1048576 + a.toNat * 16384 + b.toNat * 256 + g.toNat)
  | .waitge d a b g => some (0x88000080 + d.toNat * 1048576 + a.toNat * 16384 + b.toNat * 256 + g.toNat)
  | .fence g => some (0x880000a0 + g.toNat)
  | .ldx d a b g => some (0x880000c0 + d.toNat * 1048576 + a.toNat * 16384 + b.toNat * 256 + g.toNat)
  | .stx d a b g => some (0x880000e0 + d.toNat * 1048576 + a.toNat * 16384 + b.toNat * 256 + g.toNat)
  | .cstr d a b g => some (0x8c000000 + d.toNat * 1048576 + a.toNat * 16384 + b.toNat * 256 + g.toNat)
  | .xlde d a g => some (0x8c000020 + d.toNat * 1048576 + a.toNat * 16384 + g.toNat)
  | .ldt d a b g => some (0x8c000040 + d.toNat * 1048576 + a.toNat * 16384 + b.toNat * 256 + g.toNat)
  | .bldl d a b g => some (0x8c000060 + d.toNat * 1048576 + a.toNat * 16384 + b.toNat * 256 + g.toNat)
  | .haul a b q g => some (0x90000000 + a.toNat * 1048576 + b.toNat * 16384 + q.toNat * 32 + g.toNat)
  | .stow a b q g => some (0x90000400 + a.toNat * 1048576 + b.toNat * 16384 + q.toNat * 32 + g.toNat)
  | .haul2 a b q g => some (0x90000800 + a.toNat * 1048576 + b.toNat * 16384 + q.toNat * 32 + g.toNat)
  | .stow2 a b q g => some (0x90000c00 + a.toNat * 1048576 + b.toNat * 16384 + q.toNat * 32 + g.toNat)
  | .hault a b q g => some (0x90001000 + a.toNat * 1048576 + b.toNat * 16384 + q.toNat * 32 + g.toNat)
  | .qfence m g => some (0x90001400 + m.toNat * 32 + g.toNat)
  | .cbump a b q g => some (0x90001800 + a.toNat * 1048576 + b.toNat * 16384 + q.toNat * 32 + g.toNat)
  | .xstat a q g => some (0x90001c00 + a.toNat * 1048576 + q.toNat * 32 + g.toNat)
  | .claim a b g => some (0x94000000 + a.toNat * 1048576 + b.toNat * 16384 + g.toNat)
  | .release a g => some (0x94000400 + a.toNat * 1048576 + g.toNat)
  | .tstat a s g => some (0x94000800 + a.toNat * 1048576 + s.toNat * 16384 + g.toNat)
  | .tfill a b g => some (0x94000c00 + a.toNat * 1048576 + b.toNat * 16384 + g.toNat)
  | .tdrain a b g => some (0x94001000 + a.toNat * 1048576 + b.toNat * 16384 + g.toNat)
  | .cvtom a s c g => some (0x94001400 + a.toNat * 1048576 + s.toNat * 16384 + c.toNat * 32 + g.toNat)
  | .accz c g => some (0x94001800 + c.toNat * 32 + g.toNat)
  | .accrd a h c g => some (0x94001c00 + a.toNat * 1048576 + h.toNat * 128 + c.toNat * 32 + g.toNat)
  | .accwr a h c g => some (0x94002000 + a.toNat * 1048576 + h.toNat * 128 + c.toNat * 32 + g.toNat)
  | .commit a g => some (0x94002400 + a.toNat * 1048576 + g.toNat)
  | .waitb a g => some (0x94002800 + a.toNat * 1048576 + g.toNat)
  | .splice s m g => some (0x94002c00 + s.toNat * 16384 + m.toNat * 32 + g.toNat)
  | .mma a b c g => some (0x98000000 + a.toNat * 1048576 + b.toNat * 16384 + c.toNat * 32 + g.toNat)
  | .mmat a b c g => some (0x98000400 + a.toNat * 1048576 + b.toNat * 16384 + c.toNat * 32 + g.toNat)
  | .mmss a b q c g => some (0x98000800 + a.toNat * 1048576 + b.toNat * 16384 + q.toNat * 128 + c.toNat * 32 + g.toNat)
  | .mmas a b t f c g => some (0x98000c00 + a.toNat * 1048576 + b.toNat * 16384 + t.toNat * 256 + f.toNat * 128 + c.toNat * 32 + g.toNat)
  | .pstat a s g => some (0x98001000 + a.toNat * 1048576 + s.toNat * 16384 + g.toNat)
  | .pinv s g => some (0x98001400 + s.toNat * 16384 + g.toNat)
  | .gather d a b g => some (0x9c000000 + d.toNat * 1048576 + a.toNat * 16384 + b.toNat * 256 + g.toNat)
  | .scatter d a b g => some (0x9c000020 + d.toNat * 1048576 + a.toNat * 16384 + b.toNat * 256 + g.toNat)
  | .scadd d a b g => some (0x9c000040 + d.toNat * 1048576 + a.toNat * 16384 + b.toNat * 256 + g.toNat)
  | .scfadd d a b g => some (0x9c000060 + d.toNat * 1048576 + a.toNat * 16384 + b.toNat * 256 + g.toNat)
  | .scmin d a b g => some (0x9c000080 + d.toNat * 1048576 + a.toNat * 16384 + b.toNat * 256 + g.toNat)
  | .scmax d a b g => some (0x9c0000a0 + d.toNat * 1048576 + a.toNat * 16384 + b.toNat * 256 + g.toNat)
  | .hacc d a b g => some (0x9c0000c0 + d.toNat * 1048576 + a.toNat * 16384 + b.toNat * 256 + g.toNat)
  | .hfind d a b g => some (0x9c0000e0 + d.toNat * 1048576 + a.toNat * 16384 + b.toNat * 256 + g.toNat)
  | .send a b g => some (0xa0000000 + a.toNat * 1048576 + b.toNat * 16384 + g.toNat)
  | .hbind a b g => some (0xa0000400 + a.toNat * 1048576 + b.toNat * 16384 + g.toNat)
  | .hunbind a g => some (0xa0000800 + a.toNat * 1048576 + g.toNat)
  | .hdone g => some (0xa0000c00 + g.toNat)
  | .mpost a b m g => some (0xa0001000 + a.toNat * 1048576 + b.toNat * 16384 + m.toNat * 32 + g.toNat)
  | .mtake a m g => some (0xa0001400 + a.toNat * 1048576 + m.toNat * 32 + g.toNat)
  | .maskon g => some (0xa0001800 + g.toNat)
  | .maskoff g => some (0xa0001c00 + g.toNat)
  | .wsplit a g => some (0xa0002000 + a.toNat * 1048576 + g.toNat)
  | .wret a b g => some (0xa0002400 + a.toNat * 1048576 + b.toNat * 16384 + g.toNat)
  | .rsend a b g => some (0xa4000000 + a.toNat * 1048576 + b.toNat * 16384 + g.toNat)
  | .rld a b g => some (0xa4000400 + a.toNat * 1048576 + b.toNat * 16384 + g.toNat)
  | .rbox4 a b f g => some (0xa4000800 + a.toNat * 1048576 + b.toNat * 16384 + f.toNat * 32 + g.toNat)
  | .rtri a b f g => some (0xa4000c00 + a.toNat * 1048576 + b.toNat * 16384 + f.toNat * 32 + g.toNat)
  | .rhit a b g => some (0xa4001000 + a.toNat * 1048576 + b.toNat * 16384 + g.toNat)
  | .town a b g => some (0xa4001400 + a.toNat * 1048576 + b.toNat * 16384 + g.toNat)
  | .tpin a b g => some (0xa4001800 + a.toNat * 1048576 + b.toNat * 16384 + g.toNat)
  | .tevict a g => some (0xa4001c00 + a.toNat * 1048576 + g.toNat)
  | .bar i s g => some (0xa8000000 + i.toNat * 16384 + s.toNat * 128 + g.toNat)
  | .bara a i s g => some (0xa8000400 + a.toNat * 1048576 + i.toNat * 16384 + s.toNat * 128 + g.toNat)
  | .barw a i s g => some (0xa8000800 + a.toNat * 1048576 + i.toNat * 16384 + s.toNat * 128 + g.toNat)
  | .barinit a i s g => some (0xa8000c00 + a.toNat * 1048576 + i.toNat * 16384 + s.toNat * 128 + g.toNat)
  | .cntsum a i s g => some (0xa8001000 + a.toNat * 1048576 + i.toNat * 16384 + s.toNat * 128 + g.toNat)
  | .launch a b g => some (0xac000000 + a.toNat * 1048576 + b.toNat * 16384 + g.toNat)
  | .kwait a g => some (0xac000400 + a.toNat * 1048576 + g.toNat)
  | .kstat a b g => some (0xac000800 + a.toNat * 1048576 + b.toNat * 16384 + g.toNat)
  | .trap g => some (0xb0000000 + g.toNat)
  | .rte g => some (0xb0000400 + g.toNat)
  | .sysr a g => some (0xb0000800 + a.toNat * 1048576 + g.toNat)
  | .sysw a g => some (0xb0000c00 + a.toNat * 1048576 + g.toNat)
  | .l2wb a b g => some (0xb0001000 + a.toNat * 1048576 + b.toNat * 16384 + g.toNat)
  | .l2inv a b g => some (0xb0001400 + a.toNat * 1048576 + b.toNat * 16384 + g.toNat)
  | .tsinv a b g => some (0xb0001800 + a.toNat * 1048576 + b.toNat * 16384 + g.toNat)
  | .lspin a b g => some (0xb0001c00 + a.toNat * 1048576 + b.toNat * 16384 + g.toNat)
  | .lsunpin a b g => some (0xb0002000 + a.toNat * 1048576 + b.toNat * 16384 + g.toNat)
  | .halt a g => some (0xb0002400 + a.toNat * 1048576 + g.toNat)
  | .csaveCreate a b g => some (0xb0002800 + a.toNat * 1048576 + b.toNat * 16384 + g.toNat)
  | .csavePlace a b g => some (0xb0002800 + a.toNat * 1048576 + b.toNat * 16384 + g.toNat)
  | .csaveSave a b g => some (0xb0002800 + a.toNat * 1048576 + b.toNat * 16384 + g.toNat)
  | .csaveDestroy a b g => some (0xb0002800 + a.toNat * 1048576 + b.toNat * 16384 + g.toNat)
  | .csaveStatus a b g => some (0xb0002800 + a.toNat * 1048576 + b.toNat * 16384 + g.toNat)
  | .groupPlacement _ _ => none
  | .groupRetirement _ _ => none
  | .binAgeExpiry _ _ => none
  | .hankPlacement _ _ => none
  | .hitArrival _ => none
  | .hitRecordFiling _ => none
  | .priorityAging _ _ => none
  | .budgetLead _ _ => none
  | .nnLinkDelivery _ _ _ => none
  | .launchPlacing _ _ => none
  | .launchRetirement _ _ => none
  | .dispatchFetchResume _ => none
  | .uncorrectableError _ => none
  | .rollbackComplete _ _ => none
  | .leaseRenewal _ _ => none
  | .clusterLoadReply _ _ => none
  | .storeAtHome _ _ => none
  | .storeAcknowledgement _ _ => none
  | .logicalClockTick _ => none
  | .watchRenewal _ _ => none
  | .waitPoll _ => none
  | .barrierDeparture _ _ _ _ => none
  | .podArrival _ _ => none
  | .lsPageFillComplete _ _ _ => none
  | .lsPageWritebackComplete _ _ _ => none
  | .translationWalk _ _ => none
  | .faultQueueRecheck _ _ => none
  | .l2commit _ => none
  | .l2CommitPoint => none
  | .stationReload _ => none
  | .l2Replay _ _ _ _ _ => none
  | .l2MaintenanceDone => none
  | .tsinvComplete => none
  | .engineCommand _ _ => none
  | .enginePiecePerformed _ _ _ _ => none
  | .engineTrapDelivery _ _ => none
  | .haultSlotWrite _ _ _ => none
  | .tfillComplete _ _ => none
  | .tdrainComplete _ _ => none
  | .matrixStepStart _ => none
  | .matrixStepComplete _ => none
  | .splicePairing _ _ => none
  | .spliceExchangeComplete _ _ => none
  | .fidCompileStart _ => none
  | .fidCompileComplete _ => none
  | .elementMessage _ _ => none
  | .elementReply _ _ => none
  | .handlerDispatch _ => none
  | .hdoneRelease _ _ => none
  | .budget _ _ => none
  | .maskWindow _ _ => none
  | .mailboxPost _ _ => none
  | .mailboxResend _ _ => none
  | .weightReturn _ _ => none
  | .directoryRay _ _ => none
  | .treeletLookup _ _ => none
  | .lookupReply _ _ => none
  | .ownerUpdate _ _ => none
  | .frameRequest _ _ => none
  | .frameGrant _ _ => none
  | .tpinRequest _ _ => none
  | .treeletFillComplete _ _ => none
  | .treeletFillFailed _ _ => none
  | .treeletCopyComplete _ _ => none
  | .victimRetry _ _ => none
  | .arrivalWindowRestart _ => none
  | .parkedRayRelease _ _ => none
  | .treeletEviction _ _ => none
  | .raySpill _ _ => none
  | .spillRingFeed _ => none
  | .contextSaved _ => none
  | .contextRestored _ => none
  | .contextFreed _ => none
  | .packetRefusal _ _ _ => none
  | .flowAcknowledgement _ _ _ => none
  | .slackPromotion _ _ _ _ => none
  | .linkTrained _ => none
  | .linkError _ => none
  | .linkRetrained _ => none
  | .linkFailureTimeout _ => none
  | .fpctlWrite _ _ => none
  | .fabricPacket _ _ _ => none
  | .fabricAcknowledgement _ _ => none
  | .fabricAckTimer _ => none
  | .fabricResendTimeout _ => none
  | .hostBar2Write _ _ _ => none
  | .hostBar2Read _ _ => none
  | .hostBar4Write _ _ => none
  | .hostBar4Read _ _ => none
  | .hostWriteCompletion _ _ _ _ => none
  | .hostRegWrite _ _ => none
  | .hevtWrite _ => none
  | .heccWrite _ => none
  | .hwlockWrite _ => none
  | .facceptWrite _ _ => none
  | .fcommitWrite _ => none
  | .acmdWrite _ => none
  | .attestationReportDone => none
  | .packageReset => none
  | .bringUpDone _ => none
  | .heartbeatTimeout _ => none
  | .heartbeatResumed _ => none
  | .neighbourRefreshAlert _ => none
  | .alertCleared _ => none
  | .powerSense _ _ => none
  | .clockStepUp _ _ => none
  | .thermalStop => none
  | .packetArrival _ _ _ _ => none
  | .sliceRequest _ _ _ _ _ => none
  | .hbm4ReadComplete _ _ _ _ _ _ => none
  | .stackRefresh _ => none
  | .frameHoldsTreelet _ _ => none

end Sys2Proof
end

