-- ==== Sys2Proof/Config.lean ====
section
/-! DEFINITION. What one machine fixes and the spec leaves open: opaque constants, of which nothing can be proved. -/

namespace Sys2Proof

/-- One step of the machine: a core's cycle (R20, R376, R377), one word of a stream that its core's cycle has chosen, or one
step of an agent that acts on its own. -/
inductive Turn where
  | cycle (core : Nat)
  | stream (ref : StreamRef)
  /-- A stream that waits looks again at what it waits for (R193, R201). -/
  | poll (ref : StreamRef)
  | event (i : Instr)
deriving DecidableEq, Repr, Inhabited

/-- What nature chooses: that a core's next cycle begins, which its own schedulers then fill (R127, R376, R377), or that another
agent takes a step. -/
inductive Move where
  | cycle (core : Nat)
  | event (i : Instr)
deriving DecidableEq, Repr, Inhabited

/-- The turn that carries out a move. -/
def Move.turn : Move → Turn
  | .cycle c => .cycle c
  | .event i => .event i

/-- Who moves next: the spec fixes no order between cores, flows and engines (log entry 1). -/
opaque Config.nature : Nat → Move

/-- The n-th value that the spec leaves open (log entry 6). -/
opaque Config.freeValue : Nat → BitVec 64

/-- Whether a tie between the two Bend8 bodies of which neither is even, which R64 leaves open, goes to the larger magnitude: a function
of MODE, of the lane's generator and of the sign (R64, R80; log entry 16). -/
opaque Config.bendTie (mode : BitVec 64) (gen : BitVec 32) (neg : Bool) : Bool

/-- The sign of a zero that RBOX4 writes as the nearest bound where a tie of zeros of both signs leaves it open: a function of the node
and of the ray block's words (R22, R338, R339; log entry 19). -/
opaque Config.boxTie (node : Nat) (ray : List Nat) : Bool

/-- What the three bits TCAUSE.HINTS hold for a malformed unit of n hint words, n above 7 (R37, R396; log entry 82). -/
opaque Config.hintCount : Nat → BitVec 3

/-- PKGID, set by a strap (R419; log entry 21). -/
opaque Config.pkgId : BitVec 9

/-- FOFFER, the features that this package offers; only bits 4:0 can be set (R432; log entry 21). -/
opaque Config.features : BitVec 5

/-- HID.REV, set by a fuse (R431; log entry 21). -/
opaque Config.revision : BitVec 8

/-- The bytes of the firmware image and of the fuse state, which M0 and M1 of the attestation report measure and whose layouts the
spec leaves open (R436; log entry 35). -/
opaque Config.firmware : List (BitVec 8)
opaque Config.fuses : List (BitVec 8)

/-- Byte n of the ML-DSA-65 signature over a message, under the key pair of `Config.publicKey`; the second argument is what a signing
draws (R436; log entry 35). -/
opaque Config.signature : List (BitVec 8) → BitVec 64 → Nat → BitVec 8

/-- The bytes of the ML-DSA-65 public key at 0x0_6000, whose key pair comes from a fused seed (R436; log entry 35). -/
opaque Config.publicKey : Nat → BitVec 8

end Sys2Proof
end

