-- ==== Sys2Proof/Machine/Data.lean ====
section
/-! DEFINITION. The two containers of the state: maps from numbers, and byte memories, both sorted lists without
repeats. What an unlisted address reads as is `Memory.blank`. -/

namespace Sys2Proof.Machine

/-- A finite map from numbers: keys strictly rising. -/
abbrev SMap (β : Type) := List (Nat × β)

/-- The entry at a key. -/
def SMap.find {β : Type} (m : SMap β) (k : Nat) : Option β :=
  match m with
  | [] => none
  | (i, v) :: r => if i = k then some v else if k < i then none else SMap.find r k

/-- The map with an entry at a key. -/
def SMap.put {β : Type} (m : SMap β) (k : Nat) (v : β) : SMap β :=
  match m with
  | [] => [(k, v)]
  | (i, w) :: r => if i = k then (k, v) :: r else if k < i then (k, v) :: (i, w) :: r else (i, w) :: SMap.put r k v

/-- The map without an entry at a key. -/
def SMap.drop {β : Type} (m : SMap β) (k : Nat) : SMap β :=
  match m with
  | [] => []
  | (i, w) :: r => if i = k then r else if k < i then (i, w) :: r else (i, w) :: SMap.drop r k

/-- The map with the entry at a key changed, when there is one. -/
def SMap.alter {β : Type} (m : SMap β) (k : Nat) (f : β → β) : SMap β :=
  match SMap.find m k with
  | some v => SMap.put m k (f v)
  | none => m

/-- The keys rise strictly above `lo`. -/
def SMap.above {β : Type} (lo : Nat) : SMap β → Bool
  | [] => true
  | (i, _) :: r => decide (lo < i) && SMap.above i r

/-- The keys rise strictly. -/
def SMap.wf {β : Type} : SMap β → Bool
  | [] => true
  | (i, _) :: r => SMap.above i r

/-- A word of a map whose unlisted keys read zero. -/
def SMap.word {n : Nat} (m : SMap (BitVec n)) (k : Nat) : BitVec n := (SMap.find m k).getD 0

/-- Writes a word of a map whose unlisted keys read zero; a zero is not listed. -/
def SMap.setWord {n : Nat} (m : SMap (BitVec n)) (k : Nat) (v : BitVec n) : SMap (BitVec n) :=
  if v = 0 then SMap.drop m k else SMap.put m k v

/-- A byte memory: the bytes that differ from `Memory.blank`, by rising address. -/
abbrev Memory := List Host.Cell

/-- What an address that nothing has written reads as (log entry 4). -/
def Memory.blank : Byte := 0

/-- One byte. -/
def Memory.read (m : Memory) (a : Nat) : Byte := (SMap.find m a).getD Memory.blank

/-- Writes one byte, keeping the canonical form. -/
def Memory.write (m : Memory) (a : Nat) (b : Byte) : Memory :=
  if b = Memory.blank then SMap.drop m a else SMap.put m a b

/-- No listed byte equals what an unlisted address reads as. -/
def Memory.noBlank : Memory → Bool
  | [] => true
  | (_, b) :: r => (b != Memory.blank) && Memory.noBlank r

/-- The canonical form: addresses strictly rising, no byte that an unlisted address reads as. -/
def Memory.wf (m : Memory) : Bool := SMap.wf m && Memory.noBlank m

/-- n bytes from an address up. -/
def Memory.readBytes (m : Memory) (a : Nat) : Nat → List Byte
  | 0 => []
  | n + 1 => Memory.read m a :: Memory.readBytes m (a + 1) n

/-- Writes bytes from an address up. -/
def Memory.writeBytes (m : Memory) (a : Nat) : List Byte → Memory
  | [] => m
  | b :: r => Memory.writeBytes (Memory.write m a b) (a + 1) r

/-- Bytes as a number, the lowest first (R3). -/
def natOfBytes : List Byte → Nat
  | [] => 0
  | b :: r => b.toNat + 256 * natOfBytes r

/-- The n low bytes of a number, the lowest first (R3). -/
def bytesOfNat (v : Nat) : Nat → List Byte
  | 0 => []
  | n + 1 => BitVec.ofNat 8 v :: bytesOfNat (v / 256) n

/-- A little-endian number of n bytes (R3). -/
def Memory.readNat (m : Memory) (a n : Nat) : Nat := natOfBytes (Memory.readBytes m a n)

/-- Stores the n low bytes of a number, little-endian (R3). -/
def Memory.writeNat (m : Memory) (a n v : Nat) : Memory := Memory.writeBytes m a (bytesOfNat v n)

end Sys2Proof.Machine
end

