-- ==== Sys2Proof/Machine/Stream.lean ====
section
/-! DEFINITION. The state that an instruction stream holds: hints, paths, join and loop stacks, trap registers, queue
registers, leads and handler runs (R35, R95, R123 to R155, R318, R396). -/

namespace Sys2Proof.Machine

/-- The hint words of the unit under way (R35 to R41). -/
structure Hints where
  ximm : Option (BitVec 23)
  /-- Sense, then predicate. -/
  guard : Option (BitVec 1 × BitVec 6)
  sched : Option (BitVec 1 × BitVec 4)
  /-- The payload bits 15:0 of MOD. -/
  mod : Option (BitVec 16)
  /-- Hint words so far. -/
  count : Nat
  /-- One of them makes the unit malformed (R37). -/
  bad : Bool
deriving DecidableEq, Repr, Inhabited

/-- Where a stream stands. -/
structure Front where
  /-- Code offset of the next word (R123). -/
  pc : Word
  hints : Hints
  /-- Issues of the next unit that a REPEAT still asks for; 0 without one (R143). -/
  rep : Nat
  /-- Issue opportunities still to give up (R39, R451). -/
  skip : Nat
deriving DecidableEq, Repr, Inhabited

/-- One frame of a loop stack (R141). -/
structure LoopFrame where
  first : Word
  last : Word
  remaining : Nat
deriving DecidableEq, Repr, Inhabited

/-- A path: lanes that stand at one offset (R129, R135). -/
structure Path where
  front : Front
  lanes : LaneMask
  spin : Nat
  /-- Issue opportunities for which the path is still demoted (R136). -/
  demoted : Nat
deriving DecidableEq, Repr, Inhabited

/-- One entry of the join stack, innermost first (R131). -/
structure Join where
  target : Word
  members : LaneMask
  arrived : LaneMask
deriving DecidableEq, Repr, Inhabited

/-- The trap registers that a vectored trap writes (R396). -/
structure TrapRegs where
  tpc : Word
  tcause : Dword
  tmask : Dword
  taddr : Dword
  tinfo : Dword
deriving DecidableEq, Repr, Inhabited

/-- What a trap records (R393, R396). -/
structure TrapRec where
  cause : Nat
  mask : LaneMask
  addr : Dword
  info : Dword
deriving DecidableEq, Repr, Inhabited

/-- What a trap sets aside until RTE (R393, R398). -/
structure TrapCtx where
  /-- The lead trapped, not the lanes. -/
  lead : Bool
  /-- No stream was left (R252). -/
  noStream : Bool
  /-- The paths as they stood, and which of them trapped. -/
  paths : List Path
  index : Nat
  front : Front
  loops : List LoopFrame
  mode : Dword
deriving DecidableEq, Repr, Inhabited

/-- A unit that has issued and still awaits replies from other cores: its lanes wait (R96, log entry 7). -/
structure Pending where
  /-- Names the unit in the replies. -/
  id : Nat
  lead : Bool
  lanes : LaneMask
  /-- The unit's first word, for a trap (R40). -/
  pc : Word
  hints : Nat
  dest : RegField
  /-- The result is a pair. -/
  pair : Bool
  /-- Lanes whose reply is still missing; bit 0 for a lead or run. -/
  missing : LaneMask
  /-- Values received, by lane. -/
  values : SMap Dword
  /-- A trap to take when every reply has come (R306), and lanes that write nothing. -/
  after : Option TrapRec
  writes : LaneMask
  /-- A GATHER: younger units go on, but for those that read its D (R303). -/
  loose : Bool
deriving DecidableEq, Repr, Inhabited

/-- One of the four queue registers of a group (R151). An entry is 64 words, lane by lane. -/
structure QueueReg where
  ep : Nat
  opt : Nat
  entries : List (List Word)
  /-- Places kept for pushes of units that await replies. -/
  kept : Nat
  /-- A peer has mapped its side of the link at some time (R154). -/
  hadPeer : Bool
  /-- Streams that have found it without an entry or without room: lead or not, and the word at which they stand (R152). -/
  blocked : List (Bool × Word)
deriving DecidableEq, Repr, Inhabited

/-- What one unit has sent to other cores and still awaits (R183, R202). -/
structure Outstanding where
  /-- Names the unit in the acknowledgements. -/
  id : Nat
  /-- The unit's first word (R40). -/
  pc : Word
  /-- The lanes of its path; bit 0 for a lead or run. -/
  lanes : LaneMask
  /-- Stores and atomics that their homes have not yet performed, and those not yet acknowledged. -/
  unperformed : Nat
  unacked : Nat
  /-- MIDs of its SENDs. -/
  sends : List Word
  /-- Lanes whose next unit waits for it, since a FENCE. -/
  held : LaneMask
deriving DecidableEq, Repr, Inhabited

/-- A lead, or a handler run: a scalar stream (R150, R318). -/
structure Scalar where
  front : Front
  /-- s0 to s55, or s0 to s31. -/
  regs : SMap Dword
  /-- p0 to p15, bit 0 unused. -/
  preds : BitVec 16
  mode : Dword
  seed : Word
  gen : Word
  loops : List LoopFrame
  out : List Outstanding
deriving DecidableEq, Repr, Inhabited

/-- The hint state of a stream between units. -/
def Hints.none : Hints := ⟨.none, .none, .none, .none, 0, false⟩

/-- A stream at a code offset, between units. -/
def Front.at (pc : Word) : Front := ⟨pc, Hints.none, 0, 0⟩

/-- A path of lanes at an offset. -/
def Path.start (pc : Word) (lanes : LaneMask) : Path := ⟨Front.at pc, lanes, 0, 0⟩

/-- Trap registers before the first trap (R396). -/
def TrapRegs.zero : TrapRegs := ⟨0, 0, 0, 0, 0⟩

/-- An unmapped queue register (R151). -/
def QueueReg.unmapped : QueueReg := ⟨0, 0, [], 0, false, []⟩

/-- A scalar stream at its start (R69, R71, R95). -/
def Scalar.start (pc : Word) : Scalar :=
  ⟨Front.at pc, [], 0, 0, 0, 0xFFFFFFFF, [], []⟩

end Sys2Proof.Machine
end

