-- ==== Sys2Proof/Machine/Engine.lean ====
section
/-! DEFINITION. The state that a core's engines hold: engine queues and their pieces (R241 to R261), slots, tile commands,
matrix steps, batches and splices (R263 to R288), and the fid (R290 to R295). -/

namespace Sys2Proof.Machine

/-- Who issued something, on its core; or what else waits for a local-store page (R223). -/
inductive Issuer where
  | lanes (unit : Nat)
  /-- One path of a unit: its lanes, and the first word of the unit that waits. -/
  | path (unit : Nat) (lanes : LaneMask) (pc : Word)
  | lead (unit : Nat)
  | run (ctx : Nat)
  /-- A run that has ended. -/
  | gone
  /-- An entry of an engine queue of a core. -/
  | queue (core unit q : Nat)
  /-- A unit of another core, by its core, its name there, its context and its launch. -/
  | remote (core id ctx : Nat) (launch : BitVec 32)
  /-- Loads of another core, of a line. -/
  | reader (core line : Nat)
deriving DecidableEq, Repr, Inhabited

/-- The window a stream may access (R174). -/
structure Window where
  base : Nat
  size : Nat
  /-- Privileged code: the whole local space. -/
  all : Bool
deriving DecidableEq, Repr, Inhabited

/-- Where a translated address lies (R225). -/
inductive Place where
  | hbm (pa : Nat)
  | host (a : Nat)
  | package (pkg pa : Nat)
deriving DecidableEq, Repr, Inhabited

/-- What an entry of an engine queue does (R256 to R258, R261). -/
inductive EngineOp where
  | copy (stow : Bool) (va len : Nat) (buf : Word) (far : Option Word) (near : Nat)
  | tiles (va pitch slot count near : Nat)
  | bump (addr inc : Word)
  | join (mask : BitVec 4) (id : Nat)
deriving DecidableEq, Repr, Inhabited

/-- How far a 64-byte line of a piece has come (R230, R233, R234). -/
inductive LineState where
  /-- Not yet answered. -/
  | asked
  /-- Held at its slice by a commit. -/
  | held
  /-- Answered REPLAY, with the domain of the address under the new mapping and its GEN (none: no domain holds it): the station brings
  its copy up to date and asks again (R234, R440). -/
  | replayed (answer : Option (Nat × Word))
  /-- To be folded under the copy of the domain that a REPLAY named. -/
  | under (d : Nat)
  /-- Missed in its slice; HBM4 is read. -/
  | missed
  /-- Its flits were discarded with a failed link (R416). -/
  | lost
  | done
deriving DecidableEq, Repr, Inhabited

/-- How far a piece has come (R244, R245, R249). -/
inductive PieceState where
  | untranslated
  | stalled
  | ready
  /-- Another package has answered it. -/
  | answered
  | performed
deriving DecidableEq, Repr, Inhabited

/-- One piece of an entry (R245): its translation, its lines and the bytes read so far, by offset in its 4 KiB block. -/
structure Piece where
  state : PieceState
  place : Option Place
  lines : SMap LineState
  data : SMap Byte
  /-- Sent to the host or to another package, and not yet answered (R247). -/
  sent : Bool
deriving DecidableEq, Repr, Inhabited

/-- An entry of an engine queue (R242, R254). -/
structure Entry where
  seq : Word
  op : EngineOp
  issuer : Issuer
  launch : BitVec 32
  /-- Its command message has been taken (R12). -/
  commanded : Bool
  /-- HAULT has moved its slots to filling (R257). -/
  filling : Bool
  /-- The pieces that have left their first state. -/
  pieces : SMap Piece
deriving DecidableEq, Repr, Inhabited

/-- An engine queue (R241, R244, R259). -/
structure EngineQueue where
  faulted : Bool
  entries : List Entry
  nextSeq : Word
  done : Word
  reason : Nat
deriving DecidableEq, Repr, Inhabited

/-- The state of an operand slot (R270). -/
inductive SlotState where
  | free | empty | filling | ready | draining
deriving DecidableEq, Repr, Inhabited

/-- One row of the tile table (R270). -/
structure Slot where
  state : SlotState
  gen : Word
  readers : Nat
  /-- HAULT write claims. -/
  claims : Nat
deriving DecidableEq, Repr, Inhabited

/-- A reservation record (R265, R269). -/
structure Reservation where
  first : Nat
  count : Nat
  rgen : Nat
  fmt : Nat
  bl : Bool
  scales : Bool
  soff : Nat
  ooff : Nat
  ocap : Nat
deriving DecidableEq, Repr, Inhabited

/-- A TFILL or TDRAIN command (R272). -/
structure TileCmd where
  fill : Bool
  unit : Nat
  lead : Bool
  addr : Word
  pitch : Nat
  slot : Nat
  count : Nat
  near : Nat
  launch : BitVec 32
  commanded : Bool
deriving DecidableEq, Repr, Inhabited

/-- A micro-op of a fid program: its columns, their row sets, and its tile chunk (R293, R294). -/
structure MicroOp where
  columns : List (Nat × LaneMask)
  chunk : Nat
deriving DecidableEq, Repr, Inhabited

/-- An accepted matrix step (R276 to R280, R296). -/
structure MatrixStep where
  unit : Nat
  batch : Word
  /-- Physical accumulator. -/
  acc : Nat
  transposed : Bool
  mask : LaneMask
  aslot : Nat
  bslot : Nat
  aoff : Nat
  boff : Nat
  k : Nat
  /-- MMSS: q, and the metadata word of each row. -/
  structured : Option (Nat × List Word)
  /-- MMAS: the program it runs, with the compilation that made it; none runs dense. -/
  prog : Option (Nat × List MicroOp)
  commanded : Bool
  started : Bool
deriving DecidableEq, Repr, Inhabited

/-- An armed SPLICE (R282). -/
structure Splice where
  unit : Nat
  slot : Nat
  m : Nat
  tag : Nat
  launch : BitVec 32
  paired : Bool
deriving DecidableEq, Repr, Inhabited

/-- The state of a fid record (R291). -/
inductive FidState where
  | absent | compiling | valid | stale | refused
deriving DecidableEq, Repr, Inhabited

/-- The fid's record of one slot (R290, R291, R300). -/
structure FidRecord where
  state : FidState
  ctx : Nat
  gen : Word
  nops : Nat
  columns : Nat
  prog : List MicroOp
  /-- Tells its compilation from others. -/
  made : Nat
  /-- Order of last use, for eviction (R295). -/
  used : Nat
deriving DecidableEq, Repr, Inhabited

def EngineQueue.idle : EngineQueue := ⟨false, [], 0, 0, 0⟩
def Slot.reset : Slot := ⟨.free, 0, 0, 0⟩
def FidRecord.reset : FidRecord := ⟨.absent, 0, 0, 0, 0, [], 0, 0⟩
def Piece.fresh : Piece := ⟨.untranslated, none, [], [], false⟩

end Sys2Proof.Machine
end

