-- ==== Sys2Proof/Machine/Message.lean ====
section
/-! DEFINITION. The messages that cores, stations and directories exchange, and the flows that carry them (R12, R312, R313,
R346, R410, R412). -/

namespace Sys2Proof.Machine

/-- The stream or engine for which an event in memory is made: its context and its launch. -/
structure Agent where
  ctx : Nat
  launch : BitVec 32
deriving DecidableEq, Repr, Inhabited

/-- Where a reply goes: a core, the stream that waits, and its unit's name there. -/
structure Asker where
  core : Nat
  who : Issuer
  id : Nat
  /-- Tells the stream from others that hold its place before or after it. -/
  gen : Nat
  agent : Agent
deriving DecidableEq, Repr, Inhabited

/-- The read-modify-write operations of the AT and AX families (R197, R198) and of owners (R305). -/
inductive AtomicOp where
  | add | min | max | and | or | xor | xchg | fadd
  /-- ACAS, with the expected value. -/
  | cas (expected : Word)
deriving DecidableEq, Repr, Inhabited

/-- What an element message asks of its owner: its words are read or updated (R303, R305), or its keys entered or looked up in the
table of 2^logc slots at `base` (R307 to R309). -/
inductive ElementOp where
  | read
  | update (op : AtomicOp)
  | insert (base logc : Nat)
  | find (base logc : Nat)
deriving DecidableEq, Repr, Inhabited

/-- An element record (R441): a lane, the word's offset or the key, and the value; in a reply, whether the lane's element is done,
or its key found. -/
structure Element where
  lane : Nat
  key : Nat
  value : Word
  ok : Bool
deriving DecidableEq, Repr, Inhabited

/-- Where a packet stands in its train of 1 to 5 (R441); in an inbox place, where the last packet that has come stands. -/
structure Part where
  index : Nat
  length : Nat
deriving DecidableEq, Repr, Inhabited

/-- The whole train is held (R441). -/
def Part.whole (p : Part) : Bool := p.index + 1 == p.length

/-- A message body. -/
inductive Msg where
  /-- Kind 0: a handler message with its HID, MID, SRC and payload (R312). -/
  | handler (hid : Nat) (mid : Word) (src : BitVec 16) (payload : List Dword)
  /-- Kind 1: an engine command for entry `seq` of a queue; unit 16 stands for the handler queues (R12, R242). -/
  | entry (unit q : Nat) (seq : Word)
  /-- Kind 1: a tile command, a matrix step, or the arming of nothing more (R272, R279). -/
  | tile (unit : Nat)
  | step (unit : Nat)
  /-- Kind 1: the fid compiles a slot's pattern; the copy engine fills a treelet frame (R12, R291, R346). -/
  | compile (slot : Nat)
  | fill (frame : Nat)
  /-- Kind 2: a mailbox post (R326). -/
  | post (m : Nat) (value : Dword) (asker : Asker)
  | postAnswer (accepted : Bool) (m : Nat) (value : Dword) (asker : Asker)
  /-- A cluster load: a line is renewed at its home (R191), and the home's answer. -/
  | renew (line clock : Nat)
  | renewed (line : Nat) (bytes : List Byte) (wts rts : Nat)
  /-- A cluster store, byte by byte, within one line (R182, R192). -/
  | store (writes : List (Nat × Byte)) (clock : Nat) (asker : Asker)
  /-- Cluster atomics of one unit at one home: lane, offset, operation, operand; `reply` says that results are awaited
  (R182, R197). -/
  | atomics (ops : List (Nat × Nat × AtomicOp × Word)) (reply : Bool) (clock : Nat) (asker : Asker)
  /-- The acknowledgement of a store, of atomics or of a weight return, with the values replaced, by lane (R183). -/
  | ack (clock : Nat) (olds : List (Nat × Word)) (asker : Asker)
  /-- A packet of an element message, or the message as far as it has come (R303, R441); `origin` is the unified address under which
  its unit names the owner's offset 0. -/
  | elements (part : Part) (op : ElementOp) (origin : Nat) (records : List Element) (clock : Nat) (asker : Asker)
  /-- The reply or acknowledgement, in the same packets; or the trap of an access that the owner refused (R223, R303). -/
  | elementsDone (part : Part) (refused : Option TrapRec) (records : List Element) (clock : Nat) (asker : Asker)
  /-- Kind 3: the renewal that a home pushes to a watcher (R193). -/
  | watched (home line : Nat) (bytes : List Byte) (wts rts : Nat)
  /-- Kind 3: a weight return (R330). -/
  | weight (off : Nat) (amount : Dword) (asker : Asker)
  /-- The bytes that a SPLICE sends (R282). -/
  | splice (slot : Nat) (bytes : List Byte)
  /-- A hit record, HIT class (R342). -/
  | hit (bytes : List Byte)
  /-- A directory ray (R346). -/
  | dirRay (hid : Nat) (src : BitVec 16) (payload : List Dword)
  | lookup (tid : Nat) (core : Nat)
  | lookupReply (tid : Nat) (owner : Option (Nat × Nat))
  | ownerUpdate (tid : Nat) (owner frame : Nat)
  /-- A home asks a core for a frame, in a search that its ticket names, and the answer (R348). -/
  | frameRequest (tid home : Nat) (evict copy : Bool) (ticket : Nat)
  | frameGrant (tid core : Nat) (frame : Option Nat) (ticket : Nat)
  /-- Evictions (R346, R347, R366): a home has a core give up a frame; a core gives one up; it has been freed. -/
  | evict (tid frame : Nat)
  | evicting (tid core frame : Nat)
  | evicted (tid core frame : Nat)
  | pinRequest (tid core frame : Nat) (asker : Asker)
  /-- The home tells a core that its frame holds a treelet (R447). -/
  | frameHolds (tid frame : Nat)
  /-- A `.pod` arrival at the root (R419). -/
  | podArrive (setId : BitVec 16) (id : Nat)
deriving DecidableEq, Repr, Inhabited

/-- A message and where it goes. -/
structure OutMsg where
  dst : Nat
  cls : MsgClass
  msg : Msg
deriving DecidableEq, Repr, Inhabited

/-- A message in an inbox place: its sender, its body, and the run it has started (R318). -/
structure InMsg where
  src : Nat
  msg : Msg
  run : Option Nat
deriving DecidableEq, Repr, Inhabited

/-- Where a packet of a flow is (R412). -/
inductive PacketState where
  | flying
  /-- In the destination's reorder store. -/
  | early
  | refused
  /-- Its flits were discarded with a failed link (R416). -/
  | lost
  /-- In the inbox, not yet acknowledged. -/
  | delivered
deriving DecidableEq, Repr, Inhabited

/-- An unacknowledged packet (R412, R413). -/
structure Packet where
  seq : Nat
  msg : Msg
  slack : Nat
  /-- The source core's cycle at its release (R413). -/
  born : Nat
  state : PacketState
deriving DecidableEq, Repr, Inhabited

/-- A flow: one source core, destination core and class (R412). -/
structure Flow where
  next : Nat
  packets : List Packet
  expected : Nat
deriving DecidableEq, Repr, Inhabited

def Flow.idle : Flow := ⟨0, [], 0⟩

end Sys2Proof.Machine
end

