-- ==== Sys2Proof/Machine/CoreState.lean ====
section
/-! DEFINITION. The state of one core: resident units, handlers, local store, cluster cache, engines, bins, and its part of
the hitch directory (files 01, 04 to 08, 10 to 14, 16). -/

namespace Sys2Proof.Machine

/-- What placement fixes for a resident group or hank (R122, R125, R126, R174). -/
structure UnitInfo where
  ctx : Nat
  handle : BitVec 32
  ggi : Word
  width : Nat
  regs : Nat
  base : Nat
  seg : Nat
  hank : Bool
  window : Window
  /-- Effective order of residence, or of the bin's age (R376). -/
  order : Nat
  /-- Ready without issuing, in cycles, and whether that raised its priority (R376). -/
  ready : Nat
  aged : Bool
  /-- The group, or its lead, was ready in the core's last cycle (R413). -/
  able : Bool
  /-- Issue opportunities still to give up (R39, R451). -/
  skip : Nat
deriving DecidableEq, Repr, Inhabited

/-- What the lanes of a unit hold besides lane registers (R69, R95, R183). -/
structure LaneState where
  live : LaneMask
  /-- p1 to p63 by lane; bit 0 is never set. -/
  preds : SMap Dword
  /-- Generator states; a lane not listed holds 0xFFFF_FFFF xor its index (R69). -/
  gens : SMap Word
  /-- A hank's group indexes, by lane (R122). -/
  ggis : SMap Word
  out : List Outstanding
deriving DecidableEq, Repr, Inhabited

/-- The control state of a unit's lanes (R70, R123 to R144, R396, R404). -/
structure Control where
  paths : List Path
  joins : List Join
  loops : List LoopFrame
  mode : Dword
  seed : Word
  scratch : SMap Dword
  traps : TrapRegs
  trap : Option TrapCtx
  /-- Traps that engines have yet to deliver, to the lead or to the lanes (R252). -/
  waiting : List (Bool × TrapRec)
  /-- The context faults as soon as it can (R391): cause. -/
  pending : List Pending
  /-- HALT has ended the group: it retires when its steps and started pieces have completed (R399). -/
  halted : Bool
deriving DecidableEq, Repr, Inhabited

/-- The lead of a group (R150, R396, R400). -/
structure Lead where
  s : Scalar
  ended : Bool
  traps : TrapRegs
  scratch : SMap Dword
  budget : Nat
  /-- Cycles ready without blocking (R400), and the trap due. -/
  readyFor : Nat
  due : Bool
deriving DecidableEq, Repr, Inhabited

/-- One segment of a bound group (R162, R163). -/
structure Segment where
  flags : BitVec 5
  bound : Bool
  faulted : Bool
deriving DecidableEq, Repr, Inhabited

/-- A lanyard binding (R160). -/
structure Lanyard where
  k : Nat
  f : Nat
  segments : List Segment
deriving DecidableEq, Repr, Inhabited

/-- A party that waits at a barrier by BAR, CNTSUM or BARW (R209, R213, R214, R216). A group's entry without lanes stands for its
record of CNTSUM. -/
structure BarWait where
  lead : Bool
  lanes : LaneMask
  /-- The offset of the unit that waits. -/
  pc : Word
  scope : Nat
  id : Nat
  /-- The generation it arrived in, once its arrival counts. -/
  token : Option Word
  /-- CNTSUM: where the record goes. -/
  sum : Option Nat
  /-- It has departed: the unit completes at its next turn. -/
  departed : Bool
deriving DecidableEq, Repr, Inhabited

/-- The arrival of a group that some paths have begun (R209, R214). -/
structure Arrival where
  scope : Nat
  id : Nat
  arrived : LaneMask
  /-- Registers that BARA units have still to write: lanes, register, and whether it takes the token or zero (R214). -/
  tokens : List (LaneMask × Nat × Bool)
  /-- CNTSUM takes part, with the address of the first path. -/
  sum : Option Nat
deriving DecidableEq, Repr, Inhabited

/-- A resident group or hank, with its lead and its shares of the core's engines (R124). -/
structure Resident where
  info : UnitInfo
  lanes : LaneState
  ctl : Control
  lead : Option Lead
  queues : List QueueReg
  engines : List EngineQueue
  /-- Slot run, physical accumulators, reservations, count of CLAIMs (R264, R269). -/
  slotBase : Nat
  slotCount : Nat
  accs : List Nat
  resvs : List Reservation
  rgen : Nat
  /-- The open batch (R280). -/
  batch : Word
  lanyard : Option Lanyard
  arrival : Option Arrival
  waits : List BarWait
  /-- Generations of the `.lane` barriers, by identifier (R211). -/
  laneGens : SMap Word
deriving DecidableEq, Repr, Inhabited

/-- The state of an entry of the binding table (R315). -/
inductive BindState where
  | unbound | bound | faulted
deriving DecidableEq, Repr, Inhabited

/-- An entry of the binding table (R315). -/
structure Binding where
  state : BindState
  entry : Word
  hi : Bool
  budget : Nat
  launch : BitVec 32
deriving DecidableEq, Repr, Inhabited

/-- A live handler run (R318 to R324, R328). -/
structure Run where
  s : Scalar
  hid : Nat
  hi : Bool
  mid : Word
  launch : BitVec 32
  window : Window
  cls : MsgClass
  /-- The treelet of the ray that started it (R354). -/
  tid : Option Nat
  sendBuffer : List OutMsg
  /-- HDONE has issued. -/
  done : Bool
  count : Nat
  budget : Nat
  /-- Units issued in the open masked window. -/
  masked : Option Nat
  pending : List Pending
  /-- The trap of a unit whose access another core refused, with the unit's first word, until the run's next unit (R323). -/
  due : Option (TrapRec × Word)
  /-- Tells it from the core's other runs. -/
  serial : Nat
deriving DecidableEq, Repr, Inhabited

/-- A mailbox (R326). -/
structure Mailbox where
  present : Bool
  value : Dword
deriving DecidableEq, Repr, Inhabited

/-- A strand held in a bin (R145, R146). -/
structure Strand where
  regs : List Word
  preds : Dword
  ggi : Word
deriving DecidableEq, Repr, Inhabited

/-- A bin (R146). -/
structure Bin where
  launch : BitVec 32
  offset : Word
  /-- In filing order. -/
  strands : List Strand
  drawn : Bool
  /-- Cycle at which it began to fill, and its place in the order of ages of the core's groups and bins (R376). -/
  born : Nat
  order : Nat
deriving DecidableEq, Repr, Inhabited

/-- The state of a local-store page (R220); a pinned page is one with a pin count above 0. -/
inductive FrameState where
  | filling | resident | dirty | draining
deriving DecidableEq, Repr, Inhabited

/-- Why a page has not been filled: its station refused the translation, or the read was uncorrectable (R223, R380). -/
inductive PageError where
  | refused | uncorrectable
deriving DecidableEq, Repr, Inhabited

/-- A local-store frame that a page holds (R220, R221, R223). -/
structure Frame where
  ctx : Nat
  page : Nat
  state : FrameState
  pins : Nat
  modified : Bool
  /-- Touched, and written, while draining. -/
  touched : Bool
  written : Bool
  used : Nat
  /-- The fill has failed, and the KIND of its fault record. -/
  refused : Option PageError
  kind : Nat
  /-- The accesses that wait for the page (R223). -/
  waiters : List Issuer
  place : Option Place
  /-- Another package has answered the read of its backing page (R418). -/
  answered : Bool
  /-- What its fill or write-back had on the way was discarded with a failed link (R416). -/
  lost : Bool
  /-- The context has left this core: the relative coordinate word for which the frame holds the page (R219, R222; log
  entry 30). -/
  old : Option (BitVec 16)
deriving DecidableEq, Repr, Inhabited

/-- An LSPIN unit that has raised the pin counts of its pages and waits for them: its stream, lanes and first word, and the pages
that have still to get a frame (R239). -/
structure PinWait where
  ctx : Nat
  who : Issuer
  lanes : LaneMask
  pc : Word
  pages : List Nat
deriving DecidableEq, Repr, Inhabited

/-- A line of the cluster cache (R190, R191). -/
structure CachedLine where
  bytes : List Byte
  wts : Nat
  rts : Nat
  /-- The home's page was refused: the cause that the loads that waited take, and those that have still to take it (R223). -/
  refused : Option Nat
  takers : List Issuer
deriving DecidableEq, Repr, Inhabited

/-- The home's directory entry of a line (R190, R192, R193). -/
structure HomeLine where
  wts : Nat
  rts : Nat
  owner : Option Nat
  watchers : List Nat
  /-- Further watching cores: the list that the watch-overflow handler keeps (R193; log entry 26). -/
  overflow : List Nat
deriving DecidableEq, Repr, Inhabited

/-- A watched line (R194). -/
structure Watch where
  home : Nat
  line : Nat
  who : Issuer
deriving DecidableEq, Repr, Inhabited

/-- A party counted at a barrier: its context, its launch, its core (none in another package), whether it takes part by CNTSUM,
and EVC0 to EVC7 of its core at its arrival (R211, R216, R419). -/
structure Party where
  ctx : Nat
  launch : BitVec 32
  core : Option Nat
  cntsum : Bool
  evc : List Word
deriving DecidableEq, Repr, Inhabited

/-- A barrier of a scope from `.core` to `.pod` (R211, R216). -/
structure Barrier where
  expected : Nat
  /-- The parties counted in the generation under way, the last first; n is their number. -/
  parties : List Party
  gen : Word
  /-- Records of generations past their barrier point whose parties have still to depart. -/
  records : SMap (List Dword)
  /-- Its place in the memory order: the logical time of its last BARINIT or arrival (R212; log entry 81). -/
  clock : Nat
deriving DecidableEq, Repr, Inhabited

/-- The state of a directory entry (R347). -/
inductive DirState where
  | paging | resident | replicated | evicting
deriving DecidableEq, Repr, Inhabited

/-- A directory entry at a treelet's home (R345, R347). -/
structure DirEntry where
  state : DirState
  /-- Core and frame of each owner. -/
  owners : List (Nat × Nat)
  arrivals : Nat
  next : Nat
  /-- Parked rays: HID, SRC, payload. -/
  parked : List (Nat × BitVec 16 × List Dword)
  /-- Order of the last arrival, and the cycle in whose window the counter counts. -/
  lastArrival : Nat
  counted : Nat
  /-- The search for a frame: how many cores have been asked, whether frames may now be taken, and what tells its messages from those
  of other searches. -/
  asking : Option Nat
  taking : Bool
  ticket : Nat
  /-- The owners whose frames are being evicted. -/
  leaving : List (Nat × Nat)
  /-- A copy is under way. -/
  copying : Bool
deriving DecidableEq, Repr, Inhabited

/-- The state of a treelet frame (R344, R347, R366): once filled, it holds its treelet from the home's message on (R447). -/
inductive FrameUse where
  | filling | filled | resident | evicting
deriving DecidableEq, Repr, Inhabited

/-- A treelet frame of a core (R344). -/
structure TFrame where
  tid : Nat
  use : FrameUse
  pinned : Bool
  used : Nat
  /-- The TPIN that waits for the fill. -/
  forPin : Option Asker
  /-- It is filled as a copy. -/
  copy : Bool
  /-- The treelet that takes the frame once it is freed, whether as a copy, and in which search. -/
  taker : Option (Nat × Bool × Nat)
  /-- Translations of those of its 16 pages that are still to be filled, once the home has commanded the fill. -/
  pages : SMap Place
  /-- Those of them whose read another package has answered (R418). -/
  answered : List Nat
  /-- The pages that have been filled (R245, R346). -/
  landed : List Nat
  commanded : Bool
  /-- Its 16 local pages are pinned (R344, R346). -/
  held : Bool
  /-- The fill's translation was refused: the cause. -/
  refused : Option Nat
  /-- The TEVICT units that wait for it. -/
  evictors : List Asker
deriving DecidableEq, Repr, Inhabited

/-- A core's part of the hitch directory (R344, R345, R355, R364). -/
structure RayPart where
  rcfg0 : Dword
  rcfg1 : Dword
  rcfg2 : Dword
  entries : SMap DirEntry
  frames : SMap TFrame
  /-- Owner cache, most recent first: treelet, core, frame. -/
  owners : List (Nat × Nat × Nat)
  lookups : List Nat
  /-- The spill ring, oldest first. -/
  spill : List InMsg
  spillHead : Nat
  /-- Rays released to an owner and waiting for RAY room, oldest first: treelet, owner's core and frame, HID, SRC, payload
  (R350, R351). -/
  forwards : List (Nat × (Nat × Nat) × Nat × BitVec 16 × List Dword)
deriving DecidableEq, Repr, Inhabited

/-- The handlers' part of a core (R315, R318, R324, R326). -/
structure HandlerPart where
  bindings : SMap Binding
  runs : SMap Run
  mailboxes : SMap Mailbox
  /-- Posts sent and not yet accepted, by sending order; the flag says refused, to be resent (R326). -/
  posts : List (OutMsg × Bool)
  /-- MID (R312). -/
  mid : Word
  /-- Releases that a save left pending (R324). -/
  releases : List OutMsg
  queues : List EngineQueue
  /-- Round-robin positions of the dispatcher for messages bound lo and hi (R318), and of the scalar slots (R377). -/
  turn : Nat
  hiTurn : Nat
  slotTurn : Nat
  /-- Cycle count of the last dispatch, plus one (R318). -/
  dispatched : Nat
deriving DecidableEq, Repr, Inhabited

/-- The clustered-memory part of a core (R190 to R194). -/
structure ClusterPart where
  clock : Nat
  cache : SMap CachedLine
  homes : SMap HomeLine
  watches : List Watch
  /-- Renewals asked and not yet answered: home and line. -/
  asked : List (Nat × Nat)
  /-- The streams that wait for a line, by its key in the cache (R223). -/
  readers : List (Nat × Issuer)
deriving DecidableEq, Repr, Inhabited

/-- The matrix part of a core (R263 to R295). -/
structure TilePart where
  slots : SMap Slot
  opmem : Memory
  acc : SMap Word
  cmds : List TileCmd
  steps : List MatrixStep
  splices : List Splice
  fid : SMap FidRecord
  /-- Compilation requests, the one under compilation first, with whether the message of each has been taken (R12), and whether
  the first has started. -/
  requests : List (Nat × Bool)
  compiling : Bool
deriving DecidableEq, Repr, Inhabited

/-- One core. -/
structure CoreState where
  units : SMap Resident
  lrf : SMap Word
  evc : SMap Word
  /-- The local store: frame f at 4,096 f (R219). -/
  store : Memory
  frames : SMap Frame
  /-- The LSPIN units under way (R239). -/
  pinning : List PinWait
  handlers : HandlerPart
  cluster : ClusterPart
  tile : TilePart
  ray : RayPart
  bins : SMap Bin
  hitQueue : List (List Byte)
  inboxes : SMap (List InMsg)
  barriers : SMap Barrier
  podset : Dword
  cycle : Nat
  order : Nat
  nextId : Nat
  /-- DQBASE, DQSIZE, DQTAIL, DQHEAD (R369). -/
  dq : SMap Dword
  /-- Failed code fetches: stream, virtual address, cause (R380, R392). -/
  fetchRefused : List (StreamRef × Nat × Nat)
deriving DecidableEq, Repr, Inhabited

def LaneState.start (live : LaneMask) : LaneState := ⟨live, [], [], [], []⟩
def Mailbox.empty : Mailbox := ⟨false, 0⟩
def Binding.none : Binding := ⟨.unbound, 0, false, 65536, 0⟩
def Barrier.idle : Barrier := ⟨0, [], 0, [], 0⟩
def HomeLine.fresh : HomeLine := ⟨0, 0, .none, [], []⟩
def RayPart.reset : RayPart := ⟨0, 0, 0, [], [], [], [], [], 0, []⟩
def HandlerPart.reset : HandlerPart :=
  ⟨[], [], [], [], 0, [], [.idle, .idle, .idle, .idle], 0, 0, 0, 0⟩
def ClusterPart.reset : ClusterPart := ⟨0, [], [], [], [], []⟩
def TilePart.reset : TilePart := ⟨[], [], [], [], [], [], [], [], false⟩

/-- A core after package reset (R242, R270, R369; log entry 5). -/
def CoreState.reset : CoreState :=
  { units := [], lrf := [], evc := [], store := [], frames := [], pinning := [], handlers := .reset, cluster := .reset,
    tile := .reset, ray := .reset, bins := [], hitQueue := [], inboxes := [], barriers := [], podset := 0,
    cycle := 0, order := 0, nextId := 0, dq := [(1, 12)], fetchRefused := [] }

end Sys2Proof.Machine
end

