-- ==== Sys2Proof/Machine/State.lean ====
section
/-! DEFINITION. The whole state of the package as plain data, the reasons a step can stop, and the state after reset (files
09, 15, 16, 17, 18). -/

namespace Sys2Proof.Machine

/-- The states of a launch (R373, R384). -/
inductive LaunchState where
  | queued | waiting | placing | running | draining | retired | failed | replaying
deriving DecidableEq, Repr, Inhabited

/-- The fields of a launch record that outlive LAUNCH (R370). -/
structure LaunchRecord where
  code : Nat
  nx : Nat
  ny : Nat
  nz : Nat
  width : Nat
  regs : Nat
  lsp : Nat
  lbp : Nat
  slots : Nat
  acc : Nat
  prio : Nat
  replay : Bool
  reform : Bool
  lead : Option Word
  rw : Nat
  rh : Nat
  origin : Option (Nat × Nat)
  preds : List (BitVec 32)
  undo : Nat
  ulen : Nat
deriving DecidableEq, Repr, Inhabited

/-- A launch (R372, R373, R378). -/
structure Launch where
  handle : BitVec 32
  record : LaunchRecord
  state : LaunchState
  reason : Nat
  replays : Nat
  lapsed : Bool
  done : Nat
  /-- Order of acceptance (R374). -/
  order : Nat
  /-- The next group index to place, and the groups resident. -/
  nextGroup : Nat
  origin : Nat × Nat
  /-- The blocks logged in this attempt, newest first: address word and pre-image (R378). -/
  log : List (Nat × List Byte)
  /-- Stows to far space held until the launch retires, newest first (R378). -/
  release : List (Place × List Byte)
  /-- A rollback is under way, and whether a link failure caused it (R379, R381). -/
  linkFailed : Bool
  /-- The logical time that its groups follow, and, once it has retired, the time that follows every event of it (R383, R384). -/
  clock : Nat
deriving DecidableEq, Repr, Inhabited

/-- The states of a context (R390, R408). -/
inductive CtxState where
  | created | resident | running | preempting | saved | restoring | faulted | dead
deriving DecidableEq, Repr, Inhabited

/-- A context record (R386). -/
structure CtxRecord where
  priv : Bool
  rw : Nat
  rh : Nat
  troot : Nat
  lsvb : Nat
  fqb : Nat
  fqn : Nat
  fhc : BitVec 16
  fhid : Nat
  tsa : Nat
  tvb : Nat
  save : Nat
  saveLen : Nat
deriving DecidableEq, Repr, Inhabited

/-- Who waits for a translation (R227, R228, R346, R392). -/
inductive Walker where
  | piece (core unit q p : Nat) (seq : Word)
  | page (core frame : Nat)
  | treelet (core frame p : Nat)
  | fetch (ref : StreamRef)
  /-- The save of a context writes its save area (R391, R401). -/
  | save (ctx : Nat)
deriving DecidableEq, Repr, Inhabited

/-- How far a stalled request has come (R227 to R229, R238). -/
inductive StallState where
  /-- To be walked for the first time. -/
  | walking
  /-- Its walk failed; a record covers it, posted or held. -/
  | recorded
  /-- To be walked again: its record stays outstanding. -/
  | again
deriving DecidableEq, Repr, Inhabited

/-- A request that a station has not translated (R227, R229). -/
structure Stalled where
  who : Walker
  ctx : Nat
  va : Nat
  acc : Nat
  core : Nat
  queue : Nat
  /-- The relative coordinate word of the requesting core (R228). -/
  rel : BitVec 16
  state : StallState
  kind : Nat
  level : Nat
  /-- The step at which it stalled under its present record (R238). -/
  since : Nat
deriving DecidableEq, Repr, Inhabited

/-- What a save captures (R401, R402): the cores by the index that they had, the pin counts of each core's pages, the packets
on their way between them, and where the rectangle lay. -/
structure Image where
  cores : SMap CoreState
  pins : SMap (SMap Nat)
  flows : List (Nat × Nat × MsgClass × Flow)
  /-- The requests that stand under fault records (R254). -/
  stalled : List Stalled
  x : Nat
  y : Nat
  /-- FAULT of the header (R390). -/
  fault : Bool
deriving DecidableEq, Repr, Inhabited

/-- A context (R386 to R391, R372, R211). -/
structure Context where
  record : CtxRecord
  bytes : List Byte
  state : CtxState
  x : Nat
  y : Nat
  placed : Bool
  cause : Nat
  fcore : BitVec 16
  /-- It faulted from pre-empting (R390). -/
  midSave : Bool
  /-- It has faulted, and a CSAVE save of it has been accepted whose image is still to be written (R390, R408). -/
  closing : Bool
  launches : SMap Launch
  lastIndex : Nat
  serial : Nat
  accepted : Nat
  /-- Barriers from `.quad` to `.pod`, by scope, instance and identifier (R208, R211). -/
  barriers : SMap Barrier
  image : Option Image
deriving DecidableEq, Repr, Inhabited

/-- A cached translation (R224, R225). -/
structure Translation where
  ctx : Nat
  base : Nat
  size : Nat
  place : Place
  rd : Bool
  wr : Bool
deriving DecidableEq, Repr, Inhabited

/-- An interleave domain's registers (R231). -/
structure Domain where
  base : Nat
  lim : Nat
  gen : Word
  log2n : Nat
  en : Bool
  mask : Nat
  slices : BitVec 512
deriving DecidableEq, Repr, Inhabited

/-- A translation station (R224, R228, R229, R235). -/
structure Station where
  /-- Most recently used first. -/
  cache : List Translation
  copies : SMap Domain
  seq : Word
  stalled : List Stalled
  /-- Requests whose records wait for room in their fault queue, oldest first (R229). -/
  held : List Stalled
deriving DecidableEq, Repr, Inhabited

/-- A line that an L2 slice holds (R230, R429). -/
structure L2Line where
  bytes : List Byte
  dirty : Bool
deriving DecidableEq, Repr, Inhabited

/-- How far a commit has come (R233): written, holding and draining, switched. -/
inductive CommitStage where
  | requested | draining | switched
deriving DecidableEq, Repr, Inhabited

/-- A commit in progress (R233). -/
structure Commit where
  mask : BitVec 16
  stage : CommitStage
  /-- The staged sets as they stood at the SYSW (R438). -/
  staged : SMap Domain
  /-- The stations that have still to reload. -/
  reload : List Nat
  /-- The SYSW that waits. -/
  who : Asker
deriving DecidableEq, Repr, Inhabited

/-- An L2WB or L2INV in progress (R237). -/
structure Maintenance where
  /-- The unit that waits for it. -/
  who : Asker
  /-- Every line, else those of [base, limit). -/
  all : Bool
  base : Nat
  limit : Nat
  /-- L2INV, and its WB. -/
  invalidate : Bool
  writeBack : Bool
deriving DecidableEq, Repr, Inhabited

/-- A TSINV in progress (R238). -/
structure Shootdown where
  who : Asker
  ctx : Nat
  all : Bool
  base : Nat
  limit : Nat
  action : Nat
  /-- The requests stalled when it issued, with the steps at which they had stalled. -/
  stalled : List (Walker × Nat)
deriving DecidableEq, Repr, Inhabited

/-- The L2 (R230 to R237). -/
structure L2Part where
  /-- Lines by 512 x line address + slice. -/
  lines : SMap L2Line
  active : SMap Domain
  staged : SMap Domain
  stat : Dword
  commit : Option Commit
  maintenance : List Maintenance
  shootdowns : List Shootdown
  /-- Poisoned lines, by line address (R429). -/
  poisoned : List Nat
deriving DecidableEq, Repr, Inhabited

/-- The states of a link (R415, R419). -/
inductive LinkState where
  | reset | training | up | retraining | failed | disabled
deriving DecidableEq, Repr, Inhabited

/-- A fabric port (R419). -/
structure Port where
  en : Bool
  /-- A write of EN has not yet taken effect on the port's state (R415). -/
  written : Bool
  state : LinkState
  retrainings : Nat
deriving DecidableEq, Repr, Inhabited

/-- What a packet to another package asks (R246, R419). -/
inductive FabricAsk where
  | read (core unit q p : Nat) (seq : Word)
  | write (core unit q p : Nat) (seq : Word)
  | arrive (setId : BitVec 16) (id : Nat)
  /-- The backing page of a filling local page, and a page of a treelet that a frame is filled with. -/
  | page (core ctx page pa : Nat)
  | treelet (core frame p pa : Nat)
  /-- Bytes of a far stow that a launch held and has released. -/
  | release (from' : Agent) (pa : Nat)
deriving DecidableEq, Repr, Inhabited

/-- The fabric flow to and from one package (R418, R421). -/
structure FabricFlow where
  nextSend : Nat
  /-- Unacknowledged, oldest first. -/
  replay : List (Nat × FabricAsk)
  nextExpected : Nat
  /-- Replies cached for duplicates. -/
  replies : SMap (List Byte)
  /-- What was last returned for a packet of the other package: its number, and the reply, or nothing for a bare
  acknowledgement. -/
  answer : Option (Nat × List Byte)
  /-- The next expected number that the last acknowledgement returned has named. -/
  acked : Nat
  expiries : Nat
deriving DecidableEq, Repr, Inhabited

/-- Links and fabric (R415, R418, R419). -/
structure LinkPart where
  edges : SMap LinkState
  ports : SMap Port
  fps : SMap Dword
  fabric : SMap FabricFlow
  flows : SMap Flow
deriving DecidableEq, Repr, Inhabited

/-- Host-side registers and package status (R424, R427, R430 to R436). -/
structure HostPart where
  phase : Nat
  fail : Nat
  tko : BitVec 16
  pclamp : Bool
  tclamp : Bool
  clk : Nat
  ce : Word
  ue : Word
  facc : SMap Dword
  hwinBase : SMap Dword
  hwinLim : SMap Dword
  hwlock : Bool
  hwCount : Word
  hapBase : Dword
  hevt : Dword
  anonce : SMap Dword
  /-- A report is being produced, for the nonce that ACMD took. -/
  attesting : Bool
  nonce : SMap Dword
  astat : Bool
  /-- The report at 0x0_4000, once one has been written (R436). -/
  report : Option (List Byte)
  /-- MSI-X vectors raised, newest first. -/
  msix : List Nat
  /-- Stacks with a neighbour-refresh alert raised, and stacks whose owed refreshes are being caught up (R427, R428). -/
  alerts : BitVec 16
  owed : BitVec 16
  /-- What the last host read returned. -/
  answer : List Byte
deriving DecidableEq, Repr, Inhabited

/-- The machine. -/
structure State where
  /-- The contexts that are not free, by identifier. -/
  contexts : SMap Context
  /-- The cores, by package index; a core not listed is in its reset state. -/
  cores : SMap CoreState
  stations : SMap Station
  l2 : L2Part
  /-- HBM4, by device physical address (R230). -/
  hbm : Memory
  link : LinkPart
  host : HostPart
  /-- Bytes that engines have written to host memory and to other packages, as far as no other agent has written there since
  (R189). -/
  far : SMap Byte
  /-- Turns already decided, in order; the stream whose unit issues; whether the last unit failed to issue (log entry 1). -/
  agenda : List Turn
  cur : Option StreamRef
  stalled : Bool
  tick : Nat
  free : Nat
deriving DecidableEq, Repr, Inhabited

/-- Why the machine stops with a fault. No step of this machine stops so: every trap has an entry that the spec describes. -/
inductive Fault where
  /-- Raised by no meaning: code fetched by no stream. Safe. -/
  | none
deriving DecidableEq, Repr, Inhabited

/-- Why an instruction is refused. -/
inductive Refusal where
  /-- Raised by Dispatch for an instruction without a meaning yet. Safe: no next state is claimed. -/
  | notModelled (mnemonic : String)
  /-- Raised by the shared issue operation when an instruction word is executed with no stream issuing it; step never
  does so. Safe. -/
  | noIssuingStream
deriving DecidableEq, Repr, Inhabited

/-- A domain at reset; domain 0 covers everything (R231). -/
def Domain.reset (d : Nat) : Domain :=
  if d = 0 then ⟨0, 2 ^ 40, 0, 9, true, 0x1FF000, BitVec.allOnes 512⟩ else ⟨0, 0, 0, 0, false, 0, 0⟩

def Station.reset : Station := ⟨[], [], 0, [], []⟩
def Port.reset : Port := ⟨true, false, .reset, 0⟩
def FabricFlow.reset : FabricFlow := ⟨0, [], 0, [], none, 0, 0⟩
def L2Part.reset : L2Part := ⟨[], [], [], 0, none, [], [], []⟩
def LinkPart.reset : LinkPart := ⟨[], [], [], [], []⟩
def HostPart.reset : HostPart :=
  { phase := 0, fail := 0, tko := 0, pclamp := false, tclamp := false, clk := 1400, ce := 0, ue := 0, facc := [],
    hwinBase := [], hwinLim := [], hwlock := false, hwCount := 0, hapBase := 0, hevt := 0, anonce := [],
    attesting := false, nonce := [], astat := false, report := none, msix := [], alerts := 0, owed := 0, answer := [] }

/-- The machine right after reset (R430, R431 and the reset columns; log entries 4 to 6). -/
def State.reset : State :=
  { contexts := [], cores := [], stations := [], l2 := .reset, hbm := [], link := .reset, host := .reset, far := [],
    agenda := [], cur := none, stalled := false, tick := 0, free := 0 }

end Sys2Proof.Machine
end

