-- ==== Sys2Proof/Machine/Basic.lean ====
section
/-! DEFINITION. The parts of the state by name: cores, units, contexts, launches, coordinates, lanes, the local store and
its pages, messages and flows, leases. -/

namespace Sys2Proof.Machine

/-! ### Parts of the state -/

/-- A core of the package (R8); one not listed is as after reset. -/
def State.core (s : State) (c : Nat) : CoreState := (SMap.find s.cores c).getD CoreState.reset

def State.setCore (s : State) (c : Nat) (k : CoreState) : State := { s with cores := SMap.put s.cores c k }

def State.modCore (s : State) (c : Nat) (f : CoreState → CoreState) : State := s.setCore c (f (s.core c))

/-- The group or hank that is resident unit u of a core. -/
def State.unit (s : State) (c u : Nat) : Option Resident := SMap.find (s.core c).units u

def State.setUnit (s : State) (c u : Nat) (r : Resident) : State :=
  s.modCore c fun k => { k with units := SMap.put k.units u r }

def State.modUnit (s : State) (c u : Nat) (f : Resident → Resident) : State :=
  s.modCore c fun k => { k with units := SMap.alter k.units u f }

def State.modCtl (s : State) (c u : Nat) (f : Control → Control) : State :=
  s.modUnit c u fun r => { r with ctl := f r.ctl }

def State.modLead (s : State) (c u : Nat) (f : Lead → Lead) : State :=
  s.modUnit c u fun r => { r with lead := r.lead.map f }

def State.run (s : State) (c x : Nat) : Option Run := SMap.find (s.core c).handlers.runs x

def State.modHandlers (s : State) (c : Nat) (f : HandlerPart → HandlerPart) : State :=
  s.modCore c fun k => { k with handlers := f k.handlers }

def State.modRun (s : State) (c x : Nat) (f : Run → Run) : State :=
  s.modHandlers c fun h => { h with runs := SMap.alter h.runs x f }

def State.modTile (s : State) (c : Nat) (f : TilePart → TilePart) : State :=
  s.modCore c fun k => { k with tile := f k.tile }

def State.modRay (s : State) (c : Nat) (f : RayPart → RayPart) : State :=
  s.modCore c fun k => { k with ray := f k.ray }

def State.modCluster (s : State) (c : Nat) (f : ClusterPart → ClusterPart) : State :=
  s.modCore c fun k => { k with cluster := f k.cluster }

def State.modHost (s : State) (f : HostPart → HostPart) : State := { s with host := f s.host }

def State.modL2 (s : State) (f : L2Part → L2Part) : State := { s with l2 := f s.l2 }

def State.modLink (s : State) (f : LinkPart → LinkPart) : State := { s with link := f s.link }

def State.context (s : State) (x : Nat) : Option Context := SMap.find s.contexts x

def State.modContext (s : State) (x : Nat) (f : Context → Context) : State :=
  { s with contexts := SMap.alter s.contexts x f }

/-- A launch by its handle: bits 7:0 the index, the rest the serial (R372). -/
def Context.launch (x : Context) (h : BitVec 32) : Option Launch :=
  match SMap.find x.launches (h.toNat % 256) with
  | some l => if l.handle = h then some l else none
  | none => none

def State.launch (s : State) (x : Nat) (h : BitVec 32) : Option Launch :=
  (s.context x).bind (·.launch h)

def State.modLaunch (s : State) (x : Nat) (h : BitVec 32) (f : Launch → Launch) : State :=
  match s.launch x h with
  | some l => s.modContext x fun k => { k with launches := SMap.put k.launches (h.toNat % 256) (f l) }
  | none => s

def State.station (s : State) (n : Nat) : Station := (SMap.find s.stations n).getD Station.reset

def State.modStation (s : State) (n : Nat) (f : Station → Station) : State :=
  { s with stations := SMap.put s.stations n (f (s.station n)) }

/-- The next value that the spec leaves open (log entry 6). -/
def State.freeValue (s : State) : BitVec 64 × State := (Config.freeValue s.free, { s with free := s.free + 1 })

/-- Drops element n of a list. -/
def dropAt {α : Type} (n : Nat) (l : List α) : List α := l.take n ++ l.drop (n + 1)

/-- Changes element n of a list. -/
def setAt {α : Type} (n : Nat) (f : α → α) (l : List α) : List α :=
  match l with
  | [] => []
  | a :: r => match n with
    | 0 => f a :: r
    | n + 1 => a :: setAt n f r

/-! ### Coordinates (R8, R9, R16, R122, R176) -/

/-- Package coordinates of a core index Y x 48 + X (R8, R409). -/
def coreX (c : Nat) : Nat := c % 48
def coreY (c : Nat) : Nat := c / 48

/-- The die of a core (R8). -/
def dieOf (c : Nat) : Nat := coreX c / 24 + 2 * (coreY c / 12)

/-- The package cluster of a core (R8). -/
def clusterOf (c : Nat) : Nat := 3 * dieOf c + coreX c % 24 / 8

/-- The serving station of a core (R16). -/
def stationOf (c : Nat) : Nat :=
  16 * dieOf c + (if coreY c % 12 < 6 then 0 else 8) + coreX c % 24 / 3

/-- The context that holds a core, with its record (R388). -/
def State.holder (s : State) (c : Nat) : Option (Nat × Context) :=
  s.contexts.find? fun (_, x) =>
    x.placed && decide (x.x ≤ coreX c) && decide (coreX c < x.x + x.record.rw) && decide (x.y ≤ coreY c)
      && decide (coreY c < x.y + x.record.rh)

/-- The relative coordinate word of a core in a context (R122). -/
def Context.relative (x : Context) (c : Nat) : BitVec 16 :=
  BitVec.ofNat 16 (coreX c - x.x + 256 * (coreY c - x.y))

/-- The core that a relative coordinate word names; none outside the rectangle (R122, R314). -/
def Context.coreAt (x : Context) (w : BitVec 16) : Option Nat :=
  let rx := w.toNat % 256
  let ry := w.toNat / 256
  if rx < x.record.rw ∧ ry < x.record.rh then some ((x.y + ry) * 48 + (x.x + rx)) else none

/-- The cores of a context's rectangle in the order i = RY x W + RX. -/
def Context.cores (x : Context) : List Nat :=
  if x.placed then
    (List.range (x.record.rw * x.record.rh)).map fun i =>
      (x.y + i / x.record.rw) * 48 + (x.x + i % x.record.rw)
  else []

/-! ### Die edges (R14, R415, R416) -/

/-- The state of a die-edge link. -/
def State.edge (s : State) (l : Nat) : LinkState := (SMap.find s.link.edges l).getD .reset

/-- The dies that a link joins: 0 to 11 are the rows of edge 0–1, 12 to 23 those of 2–3, 24 to 47 the columns of 0–2, 48 to 71
those of 1–3 (R14). -/
def linkDies (l : Nat) : Nat × Nat :=
  if l < 12 then (0, 1) else if l < 24 then (2, 3) else if l < 48 then (0, 2) else (1, 3)

/-- A die in which a minimal route between two dies can lie (R411). -/
def onRoute (a b d : Nat) : Bool := (d % 2 == a % 2 || d % 2 == b % 2) && (d / 2 == a / 2 || d / 2 == b / 2)

/-- A minimal route between two dies can cross the edge that a link belongs to (R14, R411). -/
def routeCrosses (a b l : Nat) : Bool := onRoute a b (linkDies l).1 && onRoute a b (linkDies l).2

/-- The edge between two adjacent dies has a link that is up, to which packets detour (R416); a die reaches itself. -/
def State.edgeUp (s : State) (a b : Nat) : Bool :=
  a == b || (List.range 72).any fun l => linkDies l == (min a b, max a b) && s.edge l == .up

/-- A minimal route between two dies has a working link at each edge: over the one corner between them, or over the other (R411,
R415, R416). -/
def State.routeUp (s : State) (a b : Nat) : Bool :=
  let via (m : Nat) : Bool := s.edgeUp a m && s.edgeUp m b
  via (b % 2 + 2 * (a / 2)) || via (a % 2 + 2 * (b / 2))

/-! ### Lanes -/

/-- The lanes of a mask, ascending. -/
def lanesOf (m : LaneMask) : List Nat := (List.range 64).filter fun i => m.getLsbD i

/-- The lowest lane of a mask; 0 of the empty mask. -/
def lowestLane (m : LaneMask) : Nat := (lanesOf m).headD 0

/-- The mask of lanes that satisfy a test. -/
def maskOf (p : Nat → Bool) : LaneMask :=
  (List.range 64).foldl (fun m i => if p i then m ||| (1 <<< i) else m) 0

/-- Lane i alone. -/
def laneBit (i : Nat) : LaneMask := (1 : LaneMask) <<< i

def firstLanes (w : Nat) : LaneMask := BitVec.ofNat 64 (2 ^ w - 1)

def laneCount (m : LaneMask) : Nat := (lanesOf m).length

/-! ### Lane registers (R125, R126) -/

/-- The key of lane register r of group lane i in the core's lane register file. -/
def Resident.lrfKey (u : Resident) (i r : Nat) : Nat := (8 * u.info.seg + i) * 1024 + (u.info.base + r)

/-- gr of a group lane. -/
def State.lane (s : State) (c : Nat) (u : Resident) (i r : Nat) : Word :=
  SMap.word (s.core c).lrf (u.lrfKey i r)

def State.setLane (s : State) (c : Nat) (u : Resident) (i r : Nat) (v : Word) : State :=
  s.modCore c fun k => { k with lrf := SMap.setWord k.lrf (u.lrfKey i r) v }

/-- Predicate p of a group lane; p0 reads true (R26, R95). -/
def Resident.pred (u : Resident) (i p : Nat) : Bool :=
  p == 0 || (SMap.word u.lanes.preds i).getLsbD p

/-- Sets one bit of a word. -/
def putBit {n : Nat} (w : BitVec n) (i : Nat) (b : Bool) : BitVec n :=
  if b then w ||| ((1 : BitVec n) <<< i) else w &&& ~~~((1 : BitVec n) <<< i)

/-- Writes a predicate; a write to p0 is discarded (R26). -/
def State.setLanePred (s : State) (c u i p : Nat) (b : Bool) : State :=
  if p = 0 then s else
  s.modUnit c u fun r => { r with lanes := { r.lanes with
    preds := SMap.setWord r.lanes.preds i (putBit (SMap.word r.lanes.preds i) p b) } }

/-! ### Local-store pages (R219 to R223) -/

/-- The frame that holds a page of a context on a core. -/
def CoreState.frameOf (k : CoreState) (ctx page : Nat) : Option (Nat × Frame) :=
  k.frames.find? fun (_, f) => f.ctx == ctx && f.page == page && f.old.isNone

/-- The first word of the unit that stands at a front (R40). -/
def Front.start (f : Front) : Word := f.pc - BitVec.ofNat 32 (4 * f.hints.count)

/-- The waits of a stream: a path's are its unit's. -/
def Issuer.belongs (w who : Issuer) : Bool :=
  w == who || match w with
    | .path u _ _ => who == .lanes u
    | _ => false

/-- What waited is still there: a path of the unit, or of those that its trap has set aside, stands before the unit that waited. -/
def CoreState.waitStands (k : CoreState) : Issuer → Bool
  | .path u lanes pc => match SMap.find k.units u with
    | some r => (r.ctl.paths ++ ((r.ctl.trap.map (·.paths)).getD [])).any fun p => p.lanes == lanes && p.front.start == pc
    | none => false
  | _ => true

/-- A unit of another core as one that waits for a page (R223). -/
def Asker.waiter (a : Asker) : Issuer := .remote a.core a.id a.agent.ctx a.agent.launch

/-- Whether an access to a page can be performed now (R220, R223). -/
inductive PageAccess where
  | ready (frame : Nat)
  | waiting
  | absent
  | refused (cause : Nat)
deriving DecidableEq, Repr, Inhabited

/-- The cause that the accesses to a page that has not been filled take (R223, R380). -/
def PageError.cause : PageError → Nat
  | .refused => 0x06
  | .uncorrectable => 0x12

def CoreState.pageAccess (k : CoreState) (ctx page : Nat) (who : Option Issuer) : PageAccess :=
  match k.frameOf ctx page with
  | none => .absent
  | some (i, f) =>
    match f.refused with
    | some e =>
      match who with
      | none => .refused e.cause
      | some w => if f.waiters.contains w then .refused e.cause else if f.waiters.isEmpty then .absent else .waiting
    | none => match f.state with
      | .filling => .waiting
      | _ => .ready i

/-- The fields of a frame after an access: its order of use, and what a write or an access during draining leaves
(R220, R221). -/
def Frame.accessed (f : Frame) (write : Bool) (order : Nat) : Frame :=
  let f := { f with used := order }
  match f.state with
  | .draining => { f with touched := true, written := f.written || write }
  | .resident => if write then (if f.pins = 0 then { f with state := .dirty } else { f with modified := true }) else f
  | .dirty => if write && decide (f.pins ≠ 0) then { f with modified := true } else f
  | .filling => f

/-- One byte of a context's local space on a core; 0 where the page holds no frame (the callers check the page). -/
def State.localByte (s : State) (c ctx a : Nat) : Byte :=
  let k := s.core c
  match k.frameOf ctx (a / 4096) with
  | some (i, _) => Memory.read k.store (4096 * i + a % 4096)
  | none => Memory.blank

/-- n bytes of a context's local space on a core. -/
def State.localBytes (s : State) (c ctx a n : Nat) : List Byte :=
  (List.range n).map fun j => s.localByte c ctx (a + j)

/-- The bytes of local space written, with the page's state. -/
def State.putLocal (s : State) (c ctx a : Nat) (bs : List Byte) : State :=
  bs.zipIdx.foldl (fun s (b, j) =>
    let k := s.core c
    match k.frameOf ctx ((a + j) / 4096) with
    | some (i, f) => s.setCore c { k with
        store := Memory.write k.store (4096 * i + (a + j) % 4096) b
        frames := SMap.put k.frames i (f.accessed true (k.order + 1))
        order := k.order + 1 }
    | none => s) s

/-- The streams that a core holds: paths of groups and hanks, leads, and runs. -/
def CoreState.streams (k : CoreState) (c : Nat) : List StreamRef :=
  k.units.flatMap (fun (u, r) => (List.range r.ctl.paths.length).map fun p => StreamRef.group c u p)
    ++ (k.units.filter fun (_, r) => r.lead.isSome).map (fun (u, _) => StreamRef.lead c u)
    ++ k.handlers.runs.map fun (x, _) => StreamRef.run c x

/-! ### Messages and flows (R12, R312 to R314, R410, R412) -/

def msgIndex : MsgClass → Nat
  | .req => 0 | .rsp => 1 | .ray => 2 | .hit => 3 | .page => 4 | .ctl => 5

/-- Inbox depths (R11). -/
def msgDepth : MsgClass → Nat
  | .req => 32 | .rsp => 32 | .ray => 16 | .hit => 32 | .page => 8 | .ctl => 16

def flowKey (src dst : Nat) (cls : MsgClass) : Nat := (src * 1152 + dst) * 6 + msgIndex cls

def State.flow (s : State) (src dst : Nat) (cls : MsgClass) : Flow :=
  (SMap.find s.link.flows (flowKey src dst cls)).getD Flow.idle

def State.setFlow (s : State) (src dst : Nat) (cls : MsgClass) (f : Flow) : State :=
  s.modLink fun l => { l with flows := SMap.put l.flows (flowKey src dst cls) f }

/-- A source keeps at most 4 packets of a flow unacknowledged (R412). -/
def State.room (s : State) (src dst : Nat) (cls : MsgClass) : Bool :=
  decide ((s.flow src dst cls).packets.length < 4)

/-- The groups of a core that were ready in its last cycle, saturated at 15, for the classes that carry a slack tag (R410,
R413). -/
def State.slack (s : State) (c : Nat) (cls : MsgClass) : Nat :=
  match cls with
  | .req | .ray | .page => min 15 ((s.core c).units.filter fun (_, u) => u.info.able && !u.info.hank).length
  | _ => 0

/-- Releases a message into its flow. -/
def State.send (s : State) (src dst : Nat) (cls : MsgClass) (m : Msg) : State :=
  let f := s.flow src dst cls
  s.setFlow src dst cls { f with
    next := (f.next + 1) % 64
    packets := f.packets ++ [⟨f.next, m, s.slack src cls, (s.core src).cycle, .flying⟩] }

def CoreState.inbox (k : CoreState) (cls : MsgClass) : List InMsg := (SMap.find k.inboxes (msgIndex cls)).getD []

def CoreState.setInbox (k : CoreState) (cls : MsgClass) (l : List InMsg) : CoreState :=
  { k with inboxes := SMap.put k.inboxes (msgIndex cls) l }

/-- The next packet of a train joins what has come of it (R441). -/
def Msg.joined : Msg → Msg → Option Msg
  | .elements p op o l t a, .elements q _ _ m _ b =>
    if a = b && q.index = p.index + 1 && q.length = p.length then some (.elements q op o (l ++ m) t a) else none
  | .elementsDone p r l t a, .elementsDone q _ m _ b =>
    if a = b && q.index = p.index + 1 && q.length = p.length then some (.elementsDone q r (l ++ m) t a) else none
  | _, _ => none

/-- A later packet of a train: it joins the place of its first (R441). -/
def Msg.isLater : Msg → Bool
  | .elements p .. => p.index != 0
  | .elementsDone p .. => p.index != 0
  | _ => false

/-- An inbox with one more packet of a sender: in a place of its own, or in that of its train (R441). -/
def joinInbox (src : Nat) (m : Msg) : List InMsg → List InMsg
  | [] => [⟨src, m, none⟩]
  | x :: r => match (if x.src = src then x.msg.joined m else none) with
    | some y => { x with msg := y } :: r
    | none => x :: joinInbox src m r

/-- A packet enters the inbox. -/
def CoreState.receive (k : CoreState) (src : Nat) (cls : MsgClass) (m : Msg) : CoreState :=
  k.setInbox cls (if m.isLater then joinInbox src m (k.inbox cls) else k.inbox cls ++ [⟨src, m, none⟩])

/-- Room in a core's own inbox. -/
def State.inboxRoom (s : State) (c : Nat) (cls : MsgClass) : Bool :=
  decide (((s.core c).inbox cls).length < msgDepth cls)

/-- A message that orders what its receiver does behind what its sender did: a SEND, a mailbox post, a `.pod` arrival (R184), and the
RHIT of a hit record (R358). -/
def Msg.orders : Msg → Bool
  | .handler .. => true
  | .dirRay .. => true
  | .post .. => true
  | .podArrive .. => true
  | .hit .. => true
  | _ => false

/-- A kind-0 message (R312). -/
def Msg.isHandler : Msg → Bool
  | .handler .. => true
  | _ => false

/-- A core's message to itself enters its inbox at once (R12). -/
def State.post (s : State) (c : Nat) (cls : MsgClass) (m : Msg) : State :=
  s.modCore c fun k => k.receive c cls m

/-- The n-th message of an inbox. -/
def State.message (s : State) (c : Nat) (cls : MsgClass) (n : Nat) : Option InMsg := ((s.core c).inbox cls)[n]?

/-- A core's own message enters its inbox at once: nothing stands before it, in its flow or in the spill ring (R12, R355). -/
def State.entersOwn (s : State) (c : Nat) (cls : MsgClass) : Bool :=
  (s.flow c c cls).packets.isEmpty && s.inboxRoom c cls && (cls != .ray || (s.core c).ray.spill.isEmpty)

/-- Sends a message to any core, the sender itself included; a core's own message waits its turn where it cannot enter its inbox
(R12). -/
def State.release (s : State) (src dst : Nat) (cls : MsgClass) (m : Msg) : State :=
  if src = dst && s.entersOwn dst cls then s.post dst cls m else s.send src dst cls m

/-- A post of the core to the same mailbox is on its way (R326). -/
def HandlerPart.posting (h : HandlerPart) (dst m : Nat) : Bool :=
  h.posts.any fun p => p.1.dst == dst && (match p.1.msg with
    | .post n .. => n == m
    | _ => false)

/-- Releases a message: a kind-0 message takes its MID, and a post follows the core's earlier posts to its mailbox (R312,
R326). -/
def State.releaseOut (s : State) (c : Nat) (o : OutMsg) : State :=
  match o.msg with
  | .handler hid _ src payload =>
    let mid := (s.core c).handlers.mid
    (s.modHandlers c fun h => { h with mid := h.mid + 1 }).release c o.dst o.cls (.handler hid mid src payload)
  | .post m _ _ =>
    let behind := (s.core c).handlers.posting o.dst m
    let s := s.modHandlers c fun h => { h with posts := h.posts ++ [(o, behind)] }
    if behind then s else s.release c o.dst o.cls o.msg
  | m => s.release c o.dst o.cls m

/-- Releases what a save left pending, up to the last message of a class. -/
def State.releaseThrough (s : State) (c : Nat) (cls : MsgClass) : List OutMsg → State
  | [] => s
  | o :: more =>
    if (o :: more).any (·.cls == cls) then
      ((s.modHandlers c fun h => { h with releases := more }).releaseOut c o).releaseThrough c cls more
    else s

/-- A core's streams are about to send in a class: what a save left pending in it goes ahead, and nothing waits for it (R324). -/
def State.ahead (s : State) (c : Nat) (cls : MsgClass) : State := s.releaseThrough c cls (s.core c).handlers.releases

/-- A stream's own command can enter its core's inbox (R12, R324). -/
def State.ownRoom (s : State) (c : Nat) : Bool := (s.ahead c .req).entersOwn c .req

/-- A stream's command to its own core enters the inbox (R12, R324). -/
def State.command (s : State) (c : Nat) (m : Msg) : State := (s.ahead c .req).post c .req m

/-- A message to a core, the sender itself included, can leave now: a core's own enters its inbox, or, of class RAY, the flow that
its spill ring takes from (R12, R355). -/
def State.outRoom (s : State) (src dst : Nat) (cls : MsgClass) : Bool :=
  if src = dst && cls != .ray then s.entersOwn dst cls else s.room src dst cls

/-- A message that hardware need not wait behind: a handler message (R313); a TPIN request that waits for a place of the directory
store (R352); and a directory ray, which its home may hold back (R349) and whose turn among other rays its own event checks. -/
def CoreState.passes (k : CoreState) : Msg → Bool
  | .handler .. => true
  | .pinRequest tid .. => (SMap.find k.ray.entries tid).isNone && decide (512 ≤ k.ray.entries.length)
  | .dirRay .. => true
  | _ => false

/-- Hardware takes an inbox's messages of kinds 1 to 3 in their order of arrival, whoever sent them (R313). -/
def State.inTurn (s : State) (c : Nat) (cls : MsgClass) (n : Nat) : Bool :=
  (((s.core c).inbox cls).take n).all fun x => (s.core c).passes x.msg

/-- Takes the n-th message out of an inbox. -/
def State.take (s : State) (c : Nat) (cls : MsgClass) (n : Nat) : State :=
  s.modCore c fun k => k.setInbox cls (dropAt n (k.inbox cls))

end Sys2Proof.Machine
end

