-- ==== Sys2Proof/Machine/Device.lean ====
section
/-! DEFINITION. Device memory: interleave domains and slices (R230 to R232), page tables and stations (R224 to R229), local
pages' requests for frames (R219 to R223), and the fetch of code (R392). -/

namespace Sys2Proof.Machine

/-- The first address without bytes (R230). -/
def hbmTop : Nat := 0xEE6B200000

/-! ### Interleave domains -/

def State.domain (s : State) (d : Nat) : Domain := (SMap.find s.l2.active d).getD (Domain.reset d)

/-- The staged set of a domain. Its GEN, which no write stores, reads 0 (R231; DESIGN CHOICE, log entry 98). -/
def State.stagedDomain (s : State) (d : Nat) : Domain := (SMap.find s.l2.staged d).getD (Domain.reset d)

/-- The copy that a station keeps of a domain (R235). -/
def Station.copy (t : Station) (d : Nat) : Domain := (SMap.find t.copies d).getD (Domain.reset d)

/-- The domain holds an address (R232). -/
def Domain.holds (m : Domain) (a : Nat) : Bool := m.en && decide (m.base ≤ a) && decide (a < m.lim)

/-- The bits of `a` that `mask` selects among bits 39:6, packed upward (R232). -/
def packBits (a mask : Nat) : Nat :=
  ((List.range 34).foldl (fun (v, n) j =>
    if mask.testBit (j + 6) then (v + (if a.testBit (j + 6) then 2 ^ n else 0), n + 1) else (v, n)) (0, 0)).1

/-- The exclusive or of the n-bit chunks of v (R232). -/
def foldChunks (n : Nat) : Nat → Nat → Nat
  | 0, _ => 0
  | fuel + 1, v => if v = 0 then 0 else (v % 2 ^ n) ^^^ foldChunks n fuel (v / 2 ^ n)

/-- The i-th set bit of a slice set, from bit `pos` up. -/
def nthSlice (slices : BitVec 512) : Nat → Nat → Nat → Nat
  | 0, pos, _ => pos
  | fuel + 1, pos, i =>
    if slices.getLsbD pos then (if i = 0 then pos else nthSlice slices fuel (pos + 1) (i - 1))
    else nthSlice slices fuel (pos + 1) i

/-- The slice that a domain chooses for an address (R232). -/
def Domain.slice (m : Domain) (a : Nat) : Nat :=
  let v := packBits a m.mask
  let i := if m.log2n = 0 then 0 else foldChunks m.log2n 40 v
  if m.slices = BitVec.allOnes 512 then i else nthSlice m.slices 512 0 i

/-- The slice that a mapping assigns a device physical address to; none outside every enabled domain (R231, R232). -/
def sliceUnder (dom : Nat → Domain) (a : Nat) : Option Nat :=
  ((List.range 16).find? fun d => (dom d).holds a).map fun d => (dom d).slice a

/-- The slice that caches an address under the active mapping. -/
def State.sliceOf (s : State) (a : Nat) : Option Nat := sliceUnder s.domain a

/-! ### Commits (R233, R438) -/

/-- A domain's set once a commit has taken effect: its staged set with the next generation, or the set that stands. -/
def State.afterCommit (s : State) (m : Commit) (d : Nat) : Domain :=
  if m.mask.getLsbD d then { (SMap.find m.staged d).getD (Domain.reset d) with gen := (s.domain d).gen + 1 } else s.domain d

/-- The popcount of a slice set. -/
def sliceCount (v : BitVec 512) : Nat := (List.range 512).countP fun i => v.getLsbD i

/-- Two ranges of domains overlap. -/
def Domain.overlaps (m n : Domain) : Bool := decide (m.base < n.lim) && decide (n.base < m.lim)

/-- The check that refuses a commit, the first of R233's list; 0 when it passes. -/
def State.commitErr (s : State) (m : Commit) : Nat :=
  let doms := ((List.range 16).map (s.afterCommit m)).filter (·.en)
  if doms.any fun x => sliceCount x.slices ≠ 2 ^ x.log2n then 1
  else if doms.any fun x => decide (x.lim ≤ x.base) then 2
  else if !decide (doms.Pairwise fun x y => !x.overlaps y) then 3
  else if doms.any fun x => decide (((List.range 34).countP fun j => x.mask.testBit (j + 6)) < x.log2n) then 4
  else 0

/-- L2STAT as a commit that has issued leaves it: refused with its ERR, or BUSY with ERR 0 (R233, R439). -/
def State.l2Status (s : State) : Dword :=
  match s.l2.commit with
  | some m =>
    if m.stage != .requested then s.l2.stat
    else
      let err := s.commitErr m
      (s.l2.stat &&& ~~~(0xF : Dword)) ||| (if err = 0 then 1 else BitVec.ofNat 64 (2 * err))
  | none => s.l2.stat

/-! ### Device memory through the slices (R189, R230) -/

/-- The key of a line held by a slice. -/
def l2Key (line slice : Nat) : Nat := 512 * line + slice

/-- A 64-byte line of device memory, as its slice holds it, else as HBM4 does; a line of no enabled domain as HBM4 does (DESIGN
CHOICE, log entry 99). -/
def State.deviceLine (s : State) (line : Nat) : List Byte :=
  match (s.sliceOf (64 * line)).bind fun k => SMap.find s.l2.lines (l2Key line k) with
  | some l => l.bytes
  | none => Memory.readBytes s.hbm (64 * line) 64

/-- n bytes of device memory within one line. -/
def State.deviceBytes (s : State) (pa n : Nat) : List Byte := ((s.deviceLine (pa / 64)).drop (pa % 64)).take n

/-- A little-endian number in device memory, within one line. -/
def State.deviceNat (s : State) (pa n : Nat) : Nat := natOfBytes (s.deviceBytes pa n)

/-- Bytes replaced in a line. -/
def overwrite (line : List Byte) (off : Nat) (bs : List Byte) : List Byte :=
  line.take off ++ bs ++ line.drop (off + bs.length)

/-- A line of a slice goes to its home channel, when it is dirty (R230). -/
def State.writeBack (s : State) (line : Nat) (l : L2Line) : State :=
  if l.dirty then { s with hbm := Memory.writeBytes s.hbm (64 * line) l.bytes } else s

/-- The stack of an address issues no activate: its alert is raised, or refreshes owed go first (R17, R230, R427, R428). -/
def State.stackBusy (s : State) (a : Nat) : Bool := (s.host.alerts ||| s.host.owed).getLsbD (a / 4096 % 512 / 32)

/-- A slice reaches the home channel of a line: the way to its die is up, and its stack takes commands (R230, R415, R427, R428). -/
def State.channelAnswers (s : State) (slice line : Nat) : Bool :=
  s.routeUp (slice / 128) (line / 64 % 512 / 128) && !s.stackBusy (64 * line)

/-- The lines that a slice holds at most: 1 MiB (R2). -/
def sliceLines : Nat := 16384

/-- The lines that a slice can give up: clean ones, and dirty ones that their channels take (R230, R427, R428). -/
def State.evictable (s : State) (slice : Nat) : List (Nat × L2Line) :=
  s.l2.lines.filter fun x => x.1 % 512 == slice && (!x.2.dirty || s.channelAnswers slice (x.1 / 512))

/-- A slice has a place for one more line, or a line to give up for it (R2). -/
def State.sliceRoom (s : State) (slice : Nat) : Bool :=
  decide ((s.l2.lines.filter fun x => x.1 % 512 == slice).length < sliceLines) || !(s.evictable slice).isEmpty

/-- Makes room in a full slice: a line that a free value names is written back when dirty, and dropped (R2, R230; log entry
53). -/
def State.makeRoomAt (s : State) (slice : Nat) : State :=
  if (s.l2.lines.filter fun x => x.1 % 512 == slice).length < sliceLines then s
  else
    let (v, s) := s.freeValue
    let mine := s.evictable slice
    match mine[v.toNat % mine.length]? with
    | some x => (s.writeBack (x.1 / 512) x.2).modL2 fun l => { l with lines := SMap.drop l.lines x.1 }
    | none => s

/-- A line enters its slice, in the place that it has there or in another. -/
def State.install (s : State) (line slice : Nat) (l : L2Line) : State :=
  let s := if (SMap.find s.l2.lines (l2Key line slice)).isSome then s else s.makeRoomAt slice
  s.modL2 fun k => { k with lines := SMap.put k.lines (l2Key line slice) l }

/-- A write within one line, taken by its slice (R247); a whole line clears poison (R429). One to a line of no enabled domain is dropped
(DESIGN CHOICE, log entry 99). -/
def State.deviceWrite (s : State) (pa : Nat) (bs : List Byte) : State :=
  let line := pa / 64
  match s.sliceOf pa with
  | none => s
  | some k =>
    let new := overwrite (s.deviceLine line) (pa % 64) bs
    (s.install line k ⟨new, true⟩).modL2 fun l => { l with
      poisoned := if bs.length = 64 then l.poisoned.filter (· ≠ line) else l.poisoned }

/-! ### Reads that may have to go to HBM4 (R230, R233, R415, R427 to R429) -/

/-- A 32-bit count that saturates (R431, R433). -/
def bumpCount (w : Word) : Word := if w = 0xFFFFFFFF then w else w + 1

/-- A line departs from a slice: the new mapping does not assign it there. -/
def State.departs (s : State) (m : Commit) (line slice : Nat) : Bool := sliceUnder (s.afterCommit m) (64 * line) != some slice

/-- A slice holds back requests for a line, which departs in the commit under way (R233). -/
def State.lineHeld (s : State) (line : Nat) : Bool :=
  match s.l2.commit with
  | some m => m.stage == .draining && (s.sliceOf (64 * line)).any (s.departs m line)
  | none => false

/-- The slice of an address holds its line. -/
def State.cached (s : State) (line : Nat) : Bool :=
  (s.sliceOf (64 * line)).any fun k => (SMap.find s.l2.lines (l2Key line k)).isSome

/-- A slice that lacks a line can read it from its home channel and has a place for it (R230). -/
def State.lineFetches (s : State) (line : Nat) : Bool :=
  (s.sliceOf (64 * line)).any fun k => s.channelAnswers k line && s.sliceRoom k

/-- A slice can serve a request for a line: no commit holds it, and the slice has it or can read it (R230, R233, R427, R428). -/
def State.lineServes (s : State) (line : Nat) : Bool :=
  !s.lineHeld line && (s.cached line || s.lineFetches line || (s.sliceOf (64 * line)).isNone)

/-- A request of a die for a line can be answered: its way is up, and its slice serves it (R415). A line in no enabled domain, which
only a table or a fault queue can meet, is at hand (DESIGN CHOICE, log entry 99). -/
def State.lineAnswers (s : State) (die line : Nat) : Bool :=
  match s.sliceOf (64 * line) with
  | some k => s.routeUp die (k / 128) && s.lineServes line
  | none => true

/-- The lines of n bytes at an address. -/
def linesOf (pa n : Nat) : List Nat := (List.range ((pa + n + 63) / 64 - pa / 64)).map fun j => pa / 64 + j

/-- A place can be read or written by a die now; the host's link is at die 0 (R19). -/
def State.placeAnswers (s : State) (die : Nat) (p : Place) (n : Nat) : Bool :=
  match p with
  | .hbm pa => (linesOf pa n).all (s.lineAnswers die)
  | .host _ => s.routeUp die 0
  | .package .. => true

/-- The 4 KiB of a place can be read by a die now: another package's once it has answered (R418). -/
def State.placeRead (s : State) (die : Nat) (p : Place) (answered : Bool) : Bool :=
  match p with
  | .package .. => answered
  | _ => s.placeAnswers die p 4096

/-- A line that its slice lacks is read from HBM4, where a corrected error, of which a free value tells, is counted, and enters the
slice (R230, R429). -/
def State.readThrough (s : State) (line : Nat) : State :=
  match s.sliceOf (64 * line) with
  | none => s
  | some k =>
    if (SMap.find s.l2.lines (l2Key line k)).isSome then s
    else
      let (v, s) := s.freeValue
      let s := s.modHost fun h => { h with ce := if v.getLsbD 0 then bumpCount h.ce else h.ce }
      s.install line k ⟨s.deviceLine line, false⟩

/-- A line is read: the error of a poisoned one is signalled again, and a line that its slice lacks is read from HBM4 (R230, R429). -/
def State.signalRead (s : State) (line : Nat) : State :=
  if s.l2.poisoned.contains line then s.modHost fun h => { h with ue := bumpCount h.ue } else s.readThrough line

/-- A write of any length, line by line; `n` bounds the lines. -/
def State.deviceWriteAll (s : State) (pa : Nat) (bs : List Byte) : Nat → State
  | 0 => s
  | n + 1 =>
    if bs.isEmpty then s else
    let k := 64 - pa % 64
    (s.deviceWrite pa (bs.take k)).deviceWriteAll (pa + k) (bs.drop k) n

/-- Bytes of any length, line by line. -/
def State.deviceRead (s : State) (pa n : Nat) : List Byte :=
  (((List.range (n / 64 + 2)).flatMap fun j => s.deviceLine (pa / 64 + j)).drop (pa % 64)).take n

/-! ### Translation (R224 to R229) -/

/-- A field of a page-table entry. -/
def pteField (e lo n : Nat) : Nat := e / 2 ^ lo % 2 ^ n

/-- The levels of a walk: lowest index bit, index bits, log2 of the page size of a leaf, 0 where none is permitted
(R224). -/
def walkLevels : List (Nat × Nat × Nat) := [(48, 9, 0), (39, 9, 0), (30, 9, 30), (21, 9, 21), (16, 5, 16)]

/-- A failed walk: KIND and LEVEL of R228. -/
structure WalkFault where
  kind : Nat
  level : Nat
deriving DecidableEq, Repr, Inhabited

/-- The access codes that write (R228). -/
def accWrites (acc : Nat) : Bool := acc == 1 || acc == 3

/-- What a leaf entry maps, or why it fails (R225, R227). -/
def State.leaf (s : State) (ctx va acc e level logSize : Nat) : Except WalkFault Translation :=
  let addr := pteField e 8 44 * 256
  let tgt := pteField e 4 2
  let base := va / 2 ^ logSize * 2 ^ logSize
  if logSize = 0 || addr % 2 ^ logSize != 0 || (tgt == 0 && decide (hbmTop < addr + 2 ^ logSize)) then .error ⟨3, level⟩
  else if accWrites acc && !e.testBit 3 then .error ⟨1, level⟩
  else if !accWrites acc && !e.testBit 2 then .error ⟨2, level⟩
  else if tgt == 0 && (s.sliceOf (addr + va % 2 ^ logSize)).isNone then .error ⟨4, level⟩
  else
    let place := if tgt == 0 then Place.hbm addr else if tgt == 1 then .host addr else .package (pteField e 52 9) addr
    .ok ⟨ctx, base, 2 ^ logSize, place, e.testBit 2, e.testBit 3⟩

/-- A walk of a context's page table from the table at `table` (R224, R225). -/
def State.walkFrom (s : State) (ctx va acc : Nat) (table level : Nat) :
    List (Nat × Nat × Nat) → Except WalkFault Translation
  | [] => .error ⟨3, level⟩
  | (lo, n, logSize) :: more =>
    let e := s.deviceNat (table + 8 * pteField va lo n) 8
    let tgt := pteField e 4 2
    let leaf := e.testBit 1
    if !e.testBit 0 then .error ⟨0, level⟩
    else if pteField e 6 2 != 0 || pteField e 61 3 != 0 || tgt == 3 || (tgt != 2 && pteField e 52 9 != 0) then
      .error ⟨3, level⟩
    else if leaf then s.leaf ctx va acc e level logSize
    else
      let next := pteField e 8 44 * 256
      let size := if level = 3 then 256 else 4096
      if more.isEmpty || next % size != 0 || decide (hbmTop < next + size) then .error ⟨3, level⟩
      else s.walkFrom ctx va acc next (level + 1) more

/-- The entries that a walk reads, by address (R224). -/
def State.walkReads (s : State) (va table level : Nat) : List (Nat × Nat × Nat) → List Nat
  | [] => []
  | (lo, n, _) :: more =>
    let a := table + 8 * pteField va lo n
    let e := s.deviceNat a 8
    let next := pteField e 8 44 * 256
    a :: (if e.testBit 0 && !e.testBit 1 then s.walkReads va next (level + 1) more else [])

/-- The lines that the walk of a virtual address of a context reads. -/
def State.walkLines (s : State) (ctx va : Nat) : List Nat :=
  match s.context ctx with
  | none => []
  | some x => (s.walkReads va x.record.troot 0 walkLevels).map (· / 64)

/-- The walk of a virtual address of a context. -/
def State.walk (s : State) (ctx va acc : Nat) : Except WalkFault Translation :=
  match s.context ctx with
  | none => .error ⟨0, 0⟩
  | some x => s.walkFrom ctx va acc x.record.troot 0 walkLevels

/-- A walk from a die can read its entries: every line of them is there without an error (R224, R415, R427 to R429). -/
def State.walkAnswers (s : State) (die ctx va : Nat) : Bool :=
  (s.walkLines ctx va).all fun line => s.lineAnswers die line && !s.l2.poisoned.contains line

/-- A walk has read its entries (R229, R230, R429). -/
def State.walkRead (s : State) (ctx va : Nat) : State := (s.walkLines ctx va).foldl (·.signalRead ·) s

/-- A cached translation covers an access. -/
def Translation.covers (t : Translation) (ctx va acc : Nat) : Bool :=
  t.ctx == ctx && decide (t.base ≤ va) && decide (va < t.base + t.size) && (if accWrites acc then t.wr else t.rd)

/-- The place of a virtual address under a translation. -/
def Translation.place! (t : Translation) (va : Nat) : Place :=
  let o := va - t.base
  match t.place with
  | .hbm a => .hbm (a + o)
  | .host a => .host (a + o)
  | .package p a => .package p (a + o)

/-- The station's cached translation of an address (R224). -/
def Station.hit (t : Station) (ctx va acc : Nat) : Option Place :=
  (t.cache.find? (·.covers ctx va acc)).map (·.place! va)

/-- Moves the translation used to the front of the station's order (R224). -/
def Station.touch (t : Station) (ctx va acc : Nat) : Station :=
  match t.cache.findIdx? (·.covers ctx va acc) with
  | some i => { t with cache := (t.cache[i]?).toList ++ dropAt i t.cache }
  | none => t

/-- Changes every station that has ever served a request; the others hold nothing. -/
def State.mapStations (s : State) (f : Station → Station) : State := { s with stations := s.stations.map fun (n, t) => (n, f t) }

/-- A place of this package's memory lies in an enabled domain (R227). -/
def State.mapped (s : State) (p : Place) : Bool :=
  match p with
  | .hbm pa => (s.sliceOf pa).isSome
  | _ => true

/-- Asks a core's station to translate: its place, or the request is left with the station (R227). -/
def State.translate (s : State) (core ctx va acc queue : Nat) (who : Walker) : Option Place × State :=
  let n := stationOf core
  let own : BitVec 16 := ((s.context ctx).map (·.relative core)).getD 0
  let rel : BitVec 16 := match who with
    | .page c f => ((SMap.find (s.core c).frames f).bind (·.old)).getD own
    | _ => own
  match (s.station n).hit ctx va acc |>.filter s.mapped with
  | some p => (some p, s.modStation n (·.touch ctx va acc))
  | none =>
    if (s.station n).stalled.any (·.who == who) then (none, s)
    else (none, s.modStation n fun t => { t with stalled := t.stalled ++ [⟨who, ctx, va, acc, core, queue, rel, .walking, 0, 0, 0⟩] })

/-! ### Local pages (R219 to R221) -/

/-- The virtual address that backs a page of the core with a relative coordinate word (R219). -/
def Context.backing (x : Context) (rel : BitVec 16) (page : Nat) : Nat :=
  x.record.lsvb + 2 ^ 20 * (rel.toNat / 256 * x.record.rw + rel.toNat % 256) + 4096 * page

/-- Sends a packet to another package (R418): it is kept until it is acknowledged. -/
def State.sendFabric (s : State) (pkg : Nat) (ask : FabricAsk) : State :=
  s.modLink fun l =>
    let f := (SMap.find l.fabric pkg).getD FabricFlow.reset
    { l with fabric := SMap.put l.fabric pkg { f with
        nextSend := (f.nextSend + 1) % 2 ^ 24, replay := f.replay ++ [(f.nextSend, ask)] } }

/-- A frame's backing page is translated; one in another package is read by a packet (R418). -/
def State.placeFrame (s : State) (c i : Nat) (place : Place) : State :=
  let s := s.modCore c fun k => { k with frames := SMap.alter k.frames i fun f => { f with place := some place, answered := false } }
  match place, SMap.find (s.core c).frames i with
  | .package pkg pa, some f => if f.state == .filling then s.sendFabric pkg (.page c f.ctx f.page pa) else s
  | _, _ => s

/-- Asks for the translation of a frame's backing page. -/
def State.askFrame (s : State) (c i : Nat) (f : Frame) (write : Bool) : State :=
  match s.context f.ctx with
  | none => s
  | some x =>
    let (p, s) := s.translate c f.ctx (x.backing (f.old.getD (x.relative c)) f.page) (if write then 3 else 2) 0xFF (.page c i)
    match p with
    | some place => s.placeFrame c i place
    | none => s.modCore c fun k => { k with frames := SMap.alter k.frames i fun f => { f with place := none } }

/-- How often units that wait for frames have pinned a page (R239). -/
def CoreState.owedTo (k : CoreState) (ctx page : Nat) : Nat := (k.pinning.map fun w => if w.ctx = ctx then w.pages.count page else 0).sum

/-- The class of a victim of a core (R221): smaller goes first; none for a frame that may not be taken. -/
def State.victimClass (s : State) (c : Nat) (f : Frame) : Option Nat :=
  if f.pins ≠ 0 || (f.old.isNone && (s.core c).owedTo f.ctx f.page != 0) then none else
  let running : Bool := match s.context f.ctx with
    | some x => x.state == .running || x.state == .resident
    | none => false
  match f.state with
  | .resident => some (if running then 2 else 0)
  | .dirty => some (if running then 3 else 1)
  | _ => none

/-- The victim: the lowest class, least recently used first (R221). -/
def State.victim (s : State) (c : Nat) : Option (Nat × Frame) :=
  (s.core c).frames.foldl (fun best (i, f) =>
    match s.victimClass c f with
    | none => best
    | some k =>
      match best with
      | none => some (i, f)
      | some (j, g) =>
        match s.victimClass c g with
        | some k' => if k < k' || (k == k' && decide (f.used < g.used)) then some (i, f) else some (j, g)
        | none => some (i, f)) none

/-- The lowest free frame of a core. -/
def CoreState.freeFrame (k : CoreState) : Option Nat := (List.range 256).find? fun i => (SMap.find k.frames i).isNone

def Frame.new (ctx page order : Nat) : Frame :=
  { ctx := ctx, page := page, state := .filling, pins := 0, modified := false, touched := false, written := false, used := order,
    refused := none, kind := 0, waiters := [], place := none, answered := false, lost := false, old := none }

/-- A fill or a write-back of a local page that has been refused, with the KIND of its fault record (R223). -/
def Frame.refuse (f : Frame) (e : PageError) (kind : Nat) : Frame :=
  match f.state with
  | .draining => { f with
      state := if f.pins = 0 then .dirty else .resident, modified := f.modified || decide (f.pins ≠ 0), place := none }
  | .filling => { f with refused := some e, kind := kind }
  | _ => f

/-- Gives up a frame, with what it has asked of its station. -/
def State.dropFrame (s : State) (c i : Nat) : State :=
  (s.modStation (stationOf c) fun t => { t with stalled := t.stalled.filter (·.who != .page c i) }).modCore c fun k =>
    { k with frames := SMap.drop k.frames i }

/-- A refused frame for which nothing waits any more is given up (R223). -/
def State.dropRefused (s : State) (c ctx page : Nat) : State :=
  match (s.core c).frameOf ctx page with
  | some (i, f) => if f.refused.isSome && !f.waiters.any (s.core c).waitStands then s.dropFrame c i else s
  | none => s

/-- Gives a frame to a page and starts its fill; the frame has the pin count that units have raised (R239). -/
def State.placePage (s : State) (c ctx page i : Nat) : State :=
  let s := s.modCore c fun k => { k with
    frames := SMap.put k.frames i { Frame.new ctx page (k.order + 1) with pins := k.owedTo ctx page }
    pinning := k.pinning.map fun w => if w.ctx = ctx then { w with pages := w.pages.filter (· ≠ page) } else w
    order := k.order + 1 }
  s.askFrame c i (Frame.new ctx page 0) false

/-- An access to an absent page takes a frame and starts its fill, or drains a victim (R220, R221). -/
def State.requestPage (s : State) (c ctx page : Nat) : State :=
  let s := s.dropRefused c ctx page
  if ((s.core c).frameOf ctx page).isSome then s else
  match (s.core c).freeFrame with
  | some i => s.placePage c ctx page i
  | none =>
    match s.victim c with
    | none => s
    | some (i, f) =>
      match f.state with
      | .dirty =>
        let f := { f with state := .draining, touched := false, written := false, place := none, lost := false }
        let s := s.modCore c fun k => { k with frames := SMap.put k.frames i f }
        s.askFrame c i f true
      | _ => (s.modCore c fun k => { k with frames := SMap.drop k.frames i }).placePage c ctx page i

/-- Notes that an access waits for a page. -/
def State.waitPage (s : State) (c ctx page : Nat) (who : Option Issuer) : State :=
  match who, (s.core c).frameOf ctx page with
  | some w, some (i, f) =>
    if f.waiters.contains w || f.state != .filling then s
    else s.modCore c fun k => { k with frames := SMap.put k.frames i { f with waiters := w :: f.waiters } }
  | _, _ => s

/-- A waiting access takes the refusal of its page. -/
def State.tookRefusal (s : State) (c ctx page : Nat) (who : Option Issuer) : State :=
  match (s.core c).frameOf ctx page with
  | some (i, f) =>
    (s.modCore c fun k => { k with frames := SMap.put k.frames i { f with
      waiters := match who with | some w => f.waiters.erase w | none => f.waiters } }).dropRefused c ctx page
  | none => s

/-- What pages an access of some addresses needs: all ready, a refusal with its address, or a wait for which the absent
ones are requested (R220, R223). -/
inductive PagesResult where
  | ready
  | refused (addr cause : Nat) (s : State)
  | waiting (s : State)

/-- The pages of local addresses on a core; `who` asks, none for the core's hardware, which takes no refusal of its own. -/
def State.pages (s : State) (c ctx : Nat) (addrs : List Nat) (who : Option Issuer) : PagesResult :=
  let k := s.core c
  let refusal (a : Nat) : Option Nat := match k.pageAccess ctx (a / 4096) who with
    | .refused cause => some cause
    | _ => none
  match addrs.findSome? fun a => (refusal a).map fun cause => (a, cause) with
  | some (a, cause) => .refused a cause (s.tookRefusal c ctx (a / 4096) who)
  | none =>
    if addrs.all fun a => match k.pageAccess ctx (a / 4096) who with | .ready _ => true | _ => false then .ready
    else .waiting (addrs.foldl (fun s a => (s.requestPage c ctx (a / 4096)).waitPage c ctx (a / 4096) who) s)

/-! ### Code (R368, R392) -/

/-- The word at a virtual address, read as code: none while its translation is awaited. -/
def State.fetch (s : State) (core ctx va : Nat) (who : StreamRef) : Option Nat × State :=
  match s.translate core ctx va 4 0xFE (.fetch who) with
  | (some (.hbm pa), s) =>
    if s.l2.poisoned.contains (pa / 64) || !s.lineAnswers (dieOf core) (pa / 64) then (none, s)
    else (some (s.deviceNat pa 4), s.readThrough (pa / 64))
  | (_, s) => (none, s)

end Sys2Proof.Machine
end

