-- ==== Sys2Proof/Machine/Events.lean ====
section
/-! DEFINITION. Leases and events in local and cluster space (R180 to R194), the undo log and the release buffer of a replayable
launch (R378). -/

namespace Sys2Proof.Machine

/-! ### Leases and events in local and cluster space (R180 to R194, R378) -/

def ClusterPart.home (p : ClusterPart) (line : Nat) : HomeLine := (SMap.find p.homes line).getD HomeLine.fresh

/-- A renewal at the home for a reader at logical time T: the lease is extended, and ownership is recalled (R191, R192). -/
def HomeLine.renew (h : HomeLine) (t : Nat) : HomeLine := { h with rts := max h.rts (max t h.wts + 255), owner := .none }

/-- A read by the home itself, which is both reader and directory: a lease hit, or a renewal (R191, R192). -/
def HomeLine.read (h : HomeLine) (t : Nat) : HomeLine := if max t h.wts ≤ h.rts then { h with owner := .none } else h.renew t

/-- A core watches a line: the first four in the directory's pointers, further ones in the overflow list (R193). -/
def HomeLine.watch (h : HomeLine) (c : Nat) : HomeLine :=
  if h.watchers.contains c || h.overflow.contains c then h
  else if h.watchers.length < 4 then { h with watchers := h.watchers ++ [c] } else { h with overflow := h.overflow ++ [c] }

def HomeLine.unwatch (h : HomeLine) (c : Nat) : HomeLine :=
  { h with watchers := h.watchers.filter (· ≠ c), overflow := h.overflow.filter (· ≠ c) }

/-- A write at the home at the writer's clock; ownership is recalled (R192). -/
def HomeLine.write (h : HomeLine) (t : Nat) : HomeLine :=
  let w := max t (h.rts + 1)
  { h with wts := w, rts := w, owner := .none }

/-- The write of one line at its home (R192). -/
def State.stampWrite (s : State) (c line t : Nat) : State :=
  s.modCluster c fun p => { p with homes := SMap.put p.homes line ((p.home line).write t) }

/-- A core's clock never falls behind what it read or wrote (R191, R192). -/
def State.raiseClock (s : State) (c t : Nat) : State :=
  s.modCluster c fun p => { p with clock := max p.clock t }

/-- What core c does from now on follows what core d has done so far: its clock does not stay behind (R184; log entry 81). -/
def State.follow (s : State) (c d : Nat) : State := s.raiseClock c (s.core d).cluster.clock

/-- What each of the cores does from now on follows what any of them has done so far (R188; log entry 81). -/
def State.meet (s : State) (cores : List Nat) : State :=
  let t := cores.foldl (fun t c => max t (s.core c).cluster.clock) 0
  cores.foldl (fun s c => s.raiseClock c t) s

/-- Pushes a line's renewal to its watchers, the home's own core among them (R193). -/
def State.renewWatchers (s : State) (c ctx line : Nat) : State :=
  let h := (s.core c).cluster.home line
  (h.watchers ++ h.overflow).foldl (fun s w =>
    s.release c w .ctl (.watched c line (s.localBytes c ctx (64 * line) 64) h.wts h.rts)) s

/-- The replayable launch that logs a write now (R378): accepted with REPLAY, not lapsed. -/
def State.logging (s : State) (a : Agent) : Option Launch :=
  match s.launch a.ctx a.launch with
  | some l => if l.record.replay && !l.lapsed then some l else none
  | none => none

/-- A launch that an error or a link failure rolls back: replayable, not lapsed, with groups at work (R373). -/
def Launch.rollsBack (l : Launch) : Bool := l.record.replay && !l.lapsed && (l.state == .running || l.state == .draining)

/-- The launch rolls back, or already does: an uncorrectable error that it reads is not delivered (R379, R385). -/
def State.absorbs (s : State) (a : Agent) : Bool :=
  match s.launch a.ctx a.launch with
  | some l => l.rollsBack || l.state == .replaying
  | none => false

/-- A rollback begins: no group counts as retired any more; a second error during one is absorbed into it (R379, R384, R385). -/
def State.beginRollback (s : State) (ctx : Nat) (h : BitVec 32) (link : Bool) : State :=
  s.modLaunch ctx h fun l =>
    if l.state == .replaying then { l with linkFailed := l.linkFailed || link }
    else { l with state := .replaying, done := 0, linkFailed := link }

/-- Bytes that the release buffer holds: each block of far stow with its header. -/
def Launch.releaseBytes (l : Launch) : Nat := (l.release.map fun (_, b) => b.length + 64).sum

/-- A host address lies in a window (R433). -/
def State.hostHolds (s : State) (a : Nat) : Bool :=
  (List.range 8).any fun w => decide ((SMap.word s.host.hwinBase w).toNat ≤ a) && decide (a < (SMap.word s.host.hwinLim w).toNat)

/-- The accesses of a piece that lie in no host window are counted, block by block (R433). -/
def State.countOutside (s : State) (place : Place) (lines : List Nat) : State :=
  match place with
  | .host a => lines.foldl (fun s l =>
      if s.hostHolds (a + 64 * (l % 64)) then s else s.modHost fun h => { h with hwCount := bumpCount h.hwCount }) s
  | _ => s

/-- The far stows that a launch holds go out, oldest first (R378). What the host link carries leaves this machine, but for an access
in no window, which is counted (R433). -/
def State.releaseFar (s : State) (ctx : Nat) (h : BitVec 32) : State :=
  match s.launch ctx h with
  | none => s
  | some l =>
    let s := s.modLaunch ctx h fun l => { l with release := [] }
    l.release.reverse.foldl (fun s (p, _) => match p with
      | .package pkg pa => s.sendFabric pkg (.release ⟨ctx, h⟩ pa)
      | _ => s.countOutside p [0]) s

/-- Replayability lapses: the release buffer is released, and logging stops (R378). -/
def State.lapse (s : State) (ctx : Nat) (h : BitVec 32) : State :=
  (s.releaseFar ctx h).modLaunch ctx h fun l => { l with lapsed := true }

/-- Where a virtual address lies as its context's tables stand, when that is this package's memory. -/
def State.hbmOf (s : State) (ctx va acc : Nat) : Option Nat :=
  if 2 ^ 57 ≤ va then none else
  match s.walk ctx va acc with
  | .ok t => match t.place! va with
    | .hbm pa => some pa
    | _ => none
  | .error _ => none

/-- The bytes of a log record: address word, zero, pre-image (R378). -/
def logRecord (word : Nat) (image : List Byte) : List Byte := bytesOfNat word 8 ++ List.replicate 56 0 ++ image

/-- Writes the n-th record of a log upward from UNDO (R378). It goes with the store that it logs, whose event waits for no line of the
log or of its walk (DESIGN CHOICE, log entry 102). -/
def State.writeRecord (s : State) (ctx : Nat) (l : Launch) (n word : Nat) (image : List Byte) : State :=
  match s.hbmOf ctx (l.record.undo + 128 * n) 1 with
  | some pa => (s.walkRead ctx (l.record.undo + 128 * n)).deviceWriteAll pa (logRecord word image) 3
  | none => s

/-- The log and the release buffer of a launch would meet at a size: replayability lapses, unless a rollback has begun, which
discards the buffer (R378, R379, R385). -/
def Launch.meets (l : Launch) (size : Nat) : Bool := l.state != .replaying && decide (65536 * l.record.ulen < size)

/-- Adds a pre-image to a launch's log, once a block and attempt; replayability lapses where the log would meet the release
buffer (R378). -/
def State.logBlock (s : State) (a : Agent) (word : Nat) (image : List Byte) : State :=
  match s.logging a with
  | none => s
  | some l =>
    if l.log.any (·.1 == word) then s
    else if l.meets (128 * (l.log.length + 1) + l.releaseBytes) then s.lapse a.ctx a.launch
    else (s.writeRecord a.ctx l l.log.length word image).modLaunch a.ctx a.launch fun l => { l with log := (word, image) :: l.log }

/-- The address word of a local block in a launch's log (R378). -/
def logWord (rel : BitVec 16) (a : Nat) : Nat := 2 ^ 63 + 2 ^ 32 * rel.toNat + 64 * (a / 64)

/-- Logs the block of a local address before it is written (R378). -/
def State.logLocal (s : State) (a : Agent) (c addr : Nat) : State :=
  match s.context a.ctx with
  | none => s
  | some x => s.logBlock a (logWord (x.relative c) addr) (s.localBytes c a.ctx (64 * (addr / 64)) 64)

/-- A store event at its home at logical time `t`: log, bytes, leases, watchers (R180, R192, R193, R378). The bytes lie in
one line. -/
def State.storeAt (s : State) (g : Agent) (c addr : Nat) (bs : List Byte) (t : Nat) : State :=
  let s := s.logLocal g c addr
  let s := s.putLocal c g.ctx addr bs
  let s := s.stampWrite c (addr / 64) t
  s.renewWatchers c g.ctx (addr / 64)

/-- A store event of bytes of one line, at any offsets of it (R181, R182, R192). -/
def State.storeBytes (s : State) (g : Agent) (c line : Nat) (writes : List (Nat × Byte)) (t : Nat) : State :=
  let s := s.logLocal g c (64 * line)
  let s := writes.foldl (fun s x => s.putLocal c g.ctx x.1 [x.2]) s
  (s.stampWrite c line t).renewWatchers c g.ctx line

/-- Core q owns a line of a home, whose page is there: its stores are performed at once (R192). -/
def State.owns (s : State) (ctx q home line : Nat) : Bool :=
  ((s.core home).cluster.home line).owner == some q && (match (s.core home).pageAccess ctx (line / 64) none with
    | .ready _ => true
    | _ => false)

def State.setOwner (s : State) (home line : Nat) (q : Option Nat) : State :=
  s.modCluster home fun p => { p with homes := SMap.put p.homes line { p.home line with owner := q } }

/-- A load event at its own home (R191, R192). -/
def State.stampRead (s : State) (c addr : Nat) : State :=
  s.modCore c fun k =>
    let p := k.cluster
    let h := (p.home (addr / 64)).read p.clock
    { k with
      cluster := { p with homes := SMap.put p.homes (addr / 64) h, clock := max p.clock h.wts } }

/-- Marks a page used (R221). -/
def State.touch (s : State) (c ctx addr : Nat) : State :=
  s.modCore c fun k =>
    match k.frameOf ctx (addr / 4096) with
    | some (i, f) => { k with frames := SMap.put k.frames i (f.accessed false (k.order + 1)), order := k.order + 1 }
    | none => k

/-- A local load of n bytes: its value, little-endian, and its event (R180, R191). -/
def State.loadLocal (s : State) (g : Agent) (c addr n : Nat) : Nat × State :=
  (natOfBytes (s.localBytes c g.ctx addr n), (s.touch c g.ctx addr).stampRead c addr)

/-- A local store of the n low bytes of a value: its event, at the core's own clock. -/
def State.storeLocal (s : State) (g : Agent) (c addr n v : Nat) : State :=
  let s := s.storeAt g c addr (bytesOfNat v n) (s.core c).cluster.clock
  s.raiseClock c ((s.core c).cluster.home (addr / 64)).wts

end Sys2Proof.Machine
end

