-- ==== Sys2Proof/Machine/Ops.lean ====
section
/-! DEFINITION. What every instruction shares: who issues, how a unit ends, the checks of its hints, and taking and ending a
trap (R26 to R43, R135, R141 to R143, R323, R391, R393 to R399). -/

namespace Sys2Proof.Machine

/-- The kind of code (R30). -/
inductive CodeKind where
  | group | lead | run
deriving DecidableEq, Repr, Inhabited

/-- A unit about to issue: its stream and everything fixed by it. -/
structure Issue where
  ref : StreamRef
  kind : CodeKind
  core : Nat
  /-- The unit, or the handler context. -/
  unit : Nat
  /-- The path's place in the path order. -/
  path : Nat
  ctx : Nat
  launch : BitVec 32
  /-- The path's lanes; bit 0 for a lead or run. -/
  lanes : LaneMask
  /-- The lanes whose guard holds (R29). -/
  active : LaneMask
  width : Nat
  regs : Nat
  hank : Bool
  /-- It runs in a trap handler (R395). -/
  handler : Bool
  /-- It is privileged code (R43). -/
  priv : Bool
  window : Window
  front : Front
  /-- Tells the stream from others that hold its place before or after it. -/
  gen : Nat
deriving DecidableEq, Repr, Inhabited

/-- The offset of the unit's first word (R40). -/
def Issue.start (i : Issue) : Word := i.front.pc - BitVec.ofNat 32 (4 * i.front.hints.count)

/-- The stream in its core's terms. -/
def Issue.who (i : Issue) : Issuer :=
  match i.kind with
  | .group => .lanes i.unit
  | .lead => .lead i.unit
  | .run => .run i.unit

/-- The stream as one that waits for a page or a line: each path of a unit waits for itself (R223). -/
def Issue.waiter (i : Issue) : Issuer :=
  match i.kind with
  | .group => .path i.unit i.lanes i.start
  | _ => i.who

def Issue.agent (i : Issue) : Agent := ⟨i.ctx, i.launch⟩

/-- The mask a trap records for the whole unit: its active lanes, or 0 for a lead or run (R214, R274, R406). -/
def Issue.mask (i : Issue) : LaneMask := if i.kind == .group then i.active else 0

/-- The outcome of a unit's body. -/
inductive Eff where
  /-- The unit has its effect, and the stream goes to the next word. -/
  | done (s : State)
  /-- The unit has its effect, its stream's place included. -/
  | moved (s : State)
  /-- A trap, taken in this state. -/
  | trap (r : TrapRec) (s : State)
  /-- The unit has not issued (R153). -/
  | wait (s : State)

/-- The cause codes of R397. -/
def Cause.illegal : Nat := 0x01
def Cause.priv : Nat := 0x02
def Cause.misalign : Nat := 0x03
def Cause.lsBound : Nat := 0x04
def Cause.clusterAddr : Nat := 0x05
def Cause.devFault : Nat := 0x06
def Cause.accInflight : Nat := 0x07
def Cause.slotState : Nat := 0x08
def Cause.lanyardDiverge : Nat := 0x09
def Cause.lanyardState : Nat := 0x0A
def Cause.fpTrap : Nat := 0x0B
def Cause.indexRange : Nat := 0x0C
def Cause.queueMap : Nat := 0x0D
def Cause.budget : Nat := 0x0E
def Cause.maskWindow : Nat := 0x0F
def Cause.weight : Nat := 0x10
def Cause.trapSw : Nat := 0x11
def Cause.eccUncorr : Nat := 0x12
def Cause.linkDown : Nat := 0x13
def Cause.barrier : Nat := 0x14
def Cause.reformState : Nat := 0x15
def Cause.engineFault : Nat := 0x16
def Cause.budgetLead : Nat := 0x17
def Cause.haltFault : Nat := 0x18
def Cause.saveFault : Nat := 0x19

/-- A trap whose rule names neither lanes nor an address: TMASK and TADDR are 0 (R396; log entry 23). -/
def Issue.trapBare (_i : Issue) (cause info : Nat) (s : State) : Eff := .trap ⟨cause, 0, 0, BitVec.ofNat 64 info⟩ s

/-- An ILLEGAL of the unit, with its TINFO (R158, R397). -/
def Issue.illegal (i : Issue) (info : Nat) (s : State) : Eff := i.trapBare Cause.illegal info s

/-- A trap of the whole unit: TMASK holds its active lanes, or 0 for a lead (R195; log entry 23). -/
def Issue.trapAt (i : Issue) (cause addr info : Nat) (s : State) : Eff :=
  .trap ⟨cause, i.mask, BitVec.ofNat 64 addr, BitVec.ofNat 64 info⟩ s

/-! ### Streams -/

/-- The context of a core may issue and dispatch (R390). -/
def Context.issues (x : Context) : Bool := x.state == .running || x.state == .resident

/-- The launch lets its groups run (R124, R373). -/
def Context.launchRuns (x : Context) (h : BitVec 32) : Bool :=
  match x.launch h with
  | some l => l.state == .running || l.state == .draining
  | none => false

/-- A lead's unit that pushes what it awaits: it is over once the queue has its entry (R151). -/
def Pending.pushing (p : Pending) : Bool := p.lead && decide (56 ≤ p.dest.toNat) && decide (p.dest.toNat ≤ 59)

/-- A unit still awaits replies, or has still to push. -/
def Pending.blocks (p : Pending) : Bool := p.missing != 0 || p.pushing

/-- A unit's lanes that wait for replies (R96; log entry 7); a GATHER holds back only what reads its D (R303). -/
def Resident.blockedLanes (u : Resident) : LaneMask :=
  (u.ctl.pending.filter fun p => !p.lead && p.blocks && !p.loose).foldl (fun m p => m ||| p.lanes) 0

/-- A register of some lanes has still to be written by a GATHER (R303). -/
def Resident.gathering (u : Resident) (lanes : LaneMask) (regs : List Nat) : Bool :=
  u.ctl.pending.any fun p => p.loose && (p.writes &&& lanes) != 0 && regs.contains p.dest.toNat

/-- A register of some lanes has still to be written by a BARA (R214). -/
def Resident.tokenDue (u : Resident) (lanes : LaneMask) (regs : List Nat) : Bool :=
  match u.arrival with
  | some a => a.tokens.any fun (m, n, _) => (m &&& lanes) != 0 && regs.contains n
  | none => false

/-- A register of some lanes has still to be written by an older BARA or GATHER (R96, R214, R303). -/
def Resident.owes (u : Resident) (lanes : LaneMask) (regs : List Nat) : Bool := u.tokenDue lanes regs || u.gathering lanes regs

/-- A unit's lead waits for replies. -/
def Resident.leadBlocked (u : Resident) : Bool := u.ctl.pending.any fun p => p.lead && p.blocks

/-- A high-priority run is live on the core (R320). -/
def HandlerPart.highLive (h : HandlerPart) : Bool := h.runs.any fun (_, r) => r.hi

/-- The unit that a stream would issue; none when there is no such stream or it may not issue now (R124, R320, R393). -/
def State.issue (s : State) (ref : StreamRef) : Option Issue :=
  match ref with
  | .group c u p =>
    (s.unit c u).bind fun r => (s.context r.info.ctx).bind fun x => (r.ctl.paths[p]?).bind fun path =>
      let handler := r.ctl.trap.isSome
      if !x.issues || !x.launchRuns r.info.handle || (r.ctl.trap.map (·.lead)).getD false
          || (path.lanes &&& r.blockedLanes) != 0 then none
      else some ⟨ref, .group, c, u, p, r.info.ctx, r.info.handle, path.lanes, path.lanes, r.info.width, r.info.regs,
        r.info.hank, handler, handler || x.record.priv, { r.info.window with all := handler || x.record.priv },
        path.front, r.info.order⟩
  | .lead c u =>
    (s.unit c u).bind fun r => (s.context r.info.ctx).bind fun x => r.lead.bind fun l =>
      let handler := r.ctl.trap.isSome
      if !x.issues || !x.launchRuns r.info.handle || l.ended && !handler || !((r.ctl.trap.map (·.lead)).getD true)
          || r.leadBlocked then none
      else some ⟨ref, .lead, c, u, 0, r.info.ctx, r.info.handle, 1, 1, r.info.width, 56, false, handler,
        handler || x.record.priv, { r.info.window with all := handler || x.record.priv }, l.s.front, r.info.order⟩
  | .run c k =>
    (s.run c k).bind fun r => (s.holder c).bind fun (id, x) =>
      if !(x.issues || x.state == .preempting) || r.done || !r.pending.isEmpty
          || (!r.hi && (s.core c).handlers.highLive) then none
      else some ⟨ref, .run, c, k, 0, id, r.launch, 1, 1, 1, 32, false, false, x.record.priv,
        { r.window with all := x.record.priv }, r.s.front, r.serial⟩

/-- Changes where the issuing stream stands. -/
def State.setFront (s : State) (i : Issue) (f : Front) : State :=
  match i.kind with
  | .group => s.modCtl i.core i.unit fun c => { c with paths := setAt i.path (fun p => { p with front := f }) c.paths }
  | .lead => s.modLead i.core i.unit fun l => { l with s := { l.s with front := f } }
  | .run => s.modRun i.core i.unit fun r => { r with s := { r.s with front := f } }

/-- Changes the scalar part of a lead or run. -/
def State.modScalar (s : State) (i : Issue) (f : Scalar → Scalar) : State :=
  match i.kind with
  | .group => s
  | .lead => s.modLead i.core i.unit fun l => { l with s := f l.s }
  | .run => s.modRun i.core i.unit fun r => { r with s := f r.s }

/-- The scalar part of a lead or run. -/
def State.scalar (s : State) (i : Issue) : Scalar :=
  match i.kind with
  | .group => Scalar.start 0
  | .lead => (((s.unit i.core i.unit).bind (·.lead)).map (·.s)).getD (Scalar.start 0)
  | .run => ((s.run i.core i.unit).map (·.s)).getD (Scalar.start 0)

/-- The loop stack of the issuing stream (R141). -/
def State.loops (s : State) (i : Issue) : List LoopFrame :=
  match i.kind with
  | .group => ((s.unit i.core i.unit).map (·.ctl.loops)).getD []
  | _ => (s.scalar i).loops

def State.setLoops (s : State) (i : Issue) (l : List LoopFrame) : State :=
  match i.kind with
  | .group => s.modCtl i.core i.unit fun c => { c with loops := l }
  | _ => s.modScalar i fun c => { c with loops := l }

/-- The MODE under which a unit computes (R70, R97). -/
def State.modeOf (s : State) (i : Issue) : Dword :=
  match i.kind with
  | .group => ((s.unit i.core i.unit).map (·.ctl.mode)).getD 0
  | _ => (s.scalar i).mode

/-! ### What a stream has sent (R180, R183, R202) -/

/-- What the units of a stream have sent to other cores and still await. -/
def State.outOf (s : State) (c : Nat) : Issuer → List Outstanding
  | .lanes u => ((s.unit c u).map (·.lanes.out)).getD []
  | .lead u => (((s.unit c u).bind (·.lead)).map (·.s.out)).getD []
  | .run k => ((s.run c k).map (·.s.out)).getD []
  | _ => []

def State.modOut (s : State) (c : Nat) (who : Issuer) (f : List Outstanding → List Outstanding) : State :=
  match who with
  | .lanes u => s.modUnit c u fun r => { r with lanes := { r.lanes with out := f r.lanes.out } }
  | .lead u => s.modLead c u fun l => { l with s := { l.s with out := f l.s.out } }
  | .run k => s.modRun c k fun r => { r with s := { r.s with out := f r.s.out } }
  | _ => s

/-- A SEND of a core is not yet acknowledged: a packet of its flows still holds the message (R412). -/
def State.sending (s : State) (c : Nat) (mid : Word) : Bool :=
  s.link.flows.any fun (k, f) => k / 6 / 1152 == c && f.packets.any fun p => match p.msg with
    | .handler _ m _ _ => m == mid
    | _ => false

/-- All that a unit has sent is completed (R183, R202). -/
def State.completed (s : State) (c : Nat) (o : Outstanding) : Bool := o.unacked == 0 && !o.sends.any (s.sending c)

/-- Some of the lanes sent it. -/
def Outstanding.meets (o : Outstanding) (lanes : LaneMask) : Bool := (o.lanes &&& lanes) != 0

/-- Stores of some lanes that are not yet performed. -/
def unperformedOf (lanes : LaneMask) (l : List Outstanding) : Nat := ((l.filter (·.meets lanes)).map (·.unperformed)).sum

/-- The stream's stores to other cores that are not yet performed. -/
def State.unperformed (s : State) (i : Issue) : Nat := unperformedOf i.lanes (s.outOf i.core i.who)

/-- The stream waits for FENCE (R202). -/
def State.fenced (s : State) (i : Issue) : Bool :=
  (s.outOf i.core i.who).any fun o => (o.held &&& i.lanes) != 0 && !s.completed i.core o

/-- Something that the issuing lanes have sent is not yet completed (R183, R202). -/
def State.unsettled (s : State) (i : Issue) : Bool :=
  (s.outOf i.core i.who).any fun o => o.meets i.lanes && (o.unperformed != 0 || !s.completed i.core o)

/-- Adds what a unit sends, and forgets what is completed. -/
def State.sent (s : State) (i : Issue) (o : Outstanding) : State :=
  s.modOut i.core i.who fun l => (l.filter fun p => !(s.completed i.core p && p.unperformed == 0)) ++ [o]

/-- Changes what the unit of a name still awaits, and forgets it once there is nothing. -/
def State.settleOut (s : State) (c : Nat) (who : Issuer) (id : Nat) (f : Outstanding → Outstanding) : State :=
  s.modOut c who fun l => (l.map fun o => if o.id = id then f o else o).filter fun o =>
    o.unperformed != 0 || o.unacked != 0 || !o.sends.isEmpty

/-! ### The end of a unit -/

/-- The end check of a word at `pc` that was no taken branch: where the stream goes, and its loop stack (R142). -/
def endCheck (pc : Word) : List LoopFrame → Word × List LoopFrame
  | [] => (pc + 4, [])
  | f :: r =>
    if f.last = pc then
      if f.remaining ≤ 1 then endCheck pc r
      else (f.first, { f with remaining := f.remaining - 1 } :: r)
    else (pc + 4, f :: r)

/-- The offset lies in a frame's body (R142). -/
def LoopFrame.holds (f : LoopFrame) (pc : Word) : Bool := decide (f.first ≤ pc) && decide (pc ≤ f.last)

/-- The loop stack after a taken branch: every frame whose body does not hold the target is popped (R142). -/
def afterBranch (target : Word) : List LoopFrame → List LoopFrame
  | [] => []
  | f :: r => if f.holds target then f :: r else afterBranch target r

/-- The issue opportunity that a SCHED yield gives up after its unit (R39, R451). -/
def Hints.yields (h : Hints) : Nat :=
  match h.sched with
  | .some (y, _) => y.toNat
  | .none => 0

/-- The unit has issued: its group's readiness restarts (R376), its stream's opportunity to give up is noted (R451). -/
def State.issued (s : State) (i : Issue) (yields : Nat) : State :=
  match i.kind with
  | .group => s.modUnit i.core i.unit fun r => { r with info := { r.info with ready := 0, aged := false, skip := r.info.skip + yields } }
  | _ => s.modScalar i fun c => { c with front := { c.front with skip := c.front.skip + yields } }

/-- The unit ends without a taken branch: its hints are consumed, a REPEAT issues it again, and loops turn (R40, R142, R143).
A REPEATed unit at a frame's end meets the end check after its last repetition only (DESIGN CHOICE, log entry 86). -/
def State.finish (s : State) (i : Issue) : State :=
  let f := i.front
  let s := if 1 < f.rep then s.setFront i ⟨i.start, Hints.none, f.rep - 1, f.skip⟩
    else
      let (pc, loops) := endCheck f.pc (s.loops i)
      (s.setLoops i loops).setFront i ⟨pc, Hints.none, 0, f.skip⟩
  s.issued i f.hints.yields

/-- Counts a unit in an open masked window (R328). -/
def State.countMasked (s : State) (i : Issue) : State :=
  match i.kind with
  | .run => s.modRun i.core i.unit fun r => { r with masked := r.masked.map (· + 1) }
  | _ => s

/-- A taken branch of a lead, a run, or the whole of a path (R138, R142). -/
def State.jump (s : State) (i : Issue) (target : Word) : State :=
  let s := s.countMasked i
  let s := (s.setLoops i (afterBranch target (s.loops i))).setFront i ⟨target, Hints.none, 0, i.front.skip⟩
  s.issued i i.front.hints.yields

/-- The path's spin count returns to zero (R135). -/
def State.clearSpin (s : State) (i : Issue) : State :=
  if i.kind == .group then
    s.modCtl i.core i.unit fun c => { c with paths := setAt i.path (fun p => { p with spin := 0 }) c.paths }
  else s

/-! ### Faults of a context, fault reports, and aborted runs (R323, R391, R450) -/

/-- Sets a bit of HEVT, raising its MSI-X vector when it goes from 0 to 1 (R424, R425). -/
def State.hostEvent (s : State) (bit : Nat) : State :=
  s.modHost fun h =>
    if h.hevt.getLsbD bit then h
    else { h with hevt := putBit h.hevt bit true, msix := (if bit = 0 then 1 else 2) :: h.msix }

/-- The context faults; one that has faulted keeps its first cause (R390, R391). -/
def State.contextFault (s : State) (ctx cause core : Nat) : State :=
  match s.context ctx with
  | none => s
  | some x =>
    if !(x.state == .running || x.state == .resident || x.state == .preempting) then s else
    let s := s.modContext ctx fun k => { k with
      state := .faulted, cause := cause, fcore := x.relative core, midSave := x.state == .preempting }
    let s := s.hostEvent 0
    s.modHost fun h => { h with
      hevt := (h.hevt &&& ~~~(0xFFFF0000 : Dword)) ||| (BitVec.ofNat 64 (ctx % 65536) <<< 16) }

/-- The write of a save area has been refused: the context faults, or, faulted already, its image stays incomplete (R390, R391). -/
def State.saveFault (s : State) (ctx core : Nat) : State :=
  if ((s.context ctx).map (·.closing)).getD false then s.modContext ctx fun k => { k with closing := false, midSave := true }
  else s.contextFault ctx Cause.saveFault core

/-- A fault report: a kind-0 CTL message with MID 0 to the context's fault handler, sent by a core under a SRC (R450). -/
def State.faultReportAs (s : State) (ctx core : Nat) (src : BitVec 16) (payload : List Dword) : State :=
  match s.context ctx with
  | none => s
  | some x =>
    match x.coreAt x.record.fhc with
    | none => s
    | some dst => if !x.placed then s else s.release core dst .ctl (.handler x.record.fhid 0 src payload)

/-- A fault report of a core (R450). -/
def State.faultReport (s : State) (ctx core : Nat) (payload : List Dword) : State :=
  s.faultReportAs ctx core (((s.context ctx).map (·.relative core)).getD 0) payload

/-- The message that started run k goes back to the head of its inbox's kind-0 messages (R323). -/
def returnMessage (k : Nat) (l : List InMsg) : List InMsg :=
  match l.find? (·.run == some k) with
  | none => l
  | some m => { m with run := none } :: l.filter fun n => n.run != some k

/-- What waited for pages of a core does so no more; a refused page for which nothing waits is given up (R223). -/
def CoreState.dropWaiter (k : CoreState) (who : Issuer) : CoreState :=
  { k with
    frames := (k.frames.map fun x => (x.1, { x.2 with waiters := x.2.waiters.filter (!·.belongs who) })).filter fun x =>
      x.2.refused.isNone || !x.2.waiters.isEmpty
    cluster := { k.cluster with readers := k.cluster.readers.filter (!·.2.belongs who) }
    pinning := k.pinning.filter (·.who != who) }

/-- Releases the watches of a stream (R194), and its waits for pages. -/
def State.dropWatches (s : State) (c : Nat) (who : Issuer) : State :=
  let s := s.modCore c (·.dropWaiter who)
  let gone := (s.core c).cluster.watches.filter (·.who == who)
  let s := s.modCluster c fun p => { p with watches := p.watches.filter (·.who != who) }
  gone.foldl (fun s w =>
    if (s.core c).cluster.watches.any fun v => v.home == w.home && v.line == w.line then s
    else s.modCluster w.home fun p =>
      { p with homes := SMap.alter p.homes w.line fun h => h.unwatch c }) s

/-- A run ends: its inbox place and its context are free, and the engine entries that it issued lose their stream (R252,
R321, R323). -/
def State.endRun (s : State) (c k : Nat) : State :=
  let orphan (e : Entry) : Entry := if e.issuer == .run k then { e with issuer := .gone } else e
  (s.modHandlers c fun h => { h with
    runs := SMap.drop h.runs k
    queues := h.queues.map fun q => { q with entries := q.entries.map orphan } }).dropWatches c (.run k)

/-- A trap, or a BUDGET, in a handler run aborts it (R323). -/
def State.abortRun (s : State) (ctx c k : Nat) (start : Word) (t : TrapRec) : State :=
  match s.run c k with
  | none => s
  | some r =>
    let s := s.modCore c fun co => co.setInbox r.cls (returnMessage k (co.inbox r.cls))
    let s := s.modHandlers c fun h => { h with bindings := SMap.alter h.bindings r.hid fun b => { b with state := .faulted } }
    let s := s.endRun c k
    let s := s.faultReport ctx c
      [BitVec.ofNat 64 (t.cause + 256 * r.hid + (if r.hi then 2 ^ 14 else 0) + 2 ^ 32 * r.mid.toNat),
        BitVec.ofNat 64 start.toNat, t.addr, t.info]
    if 60 ≤ r.hid then s.contextFault ctx t.cause c else s

/-! ### Taking a trap (R393 to R396) -/

/-- The spill record of a lane or of a lead: its local address (R394). -/
def spillAddress (tsa unit : Nat) (lead : Bool) (lane : Nat) : Nat :=
  4096 * tsa + (if lead then 32768 + 64 * unit else 2048 * unit + 32 * lane)

/-- The bytes of a lane's spill record from its predicates on (R394). -/
def spillPreds (preds : Dword) : List Byte := bytesOfNat (preds.toNat ||| 1) 8 ++ List.replicate 8 0

/-- Stores one lane's spill record and leaves its address in g0 (R393, R394). -/
def State.spillLane (s : State) (c u : Nat) (tsa : Nat) (lane : Nat) : State :=
  match s.unit c u with
  | none => s
  | some r =>
    let a := spillAddress tsa u false lane
    let g : Agent := ⟨r.info.ctx, r.info.handle⟩
    let n := min 4 r.info.regs
    let s := (List.range n).foldl (fun s j => s.storeLocal g c (a + 4 * j) 4 (s.lane c r lane j).toNat) s
    let s := s.storeLocal g c (a + 16) 16 (natOfBytes (spillPreds (SMap.word r.lanes.preds lane)))
    s.setLane c r lane 0 (BitVec.ofNat 32 a)

/-- The addresses that the spill of a trap stores to. -/
def spillPages (tsa u : Nat) (lead : Bool) (lanes : LaneMask) : List Nat :=
  if lead then [spillAddress tsa u true 0] else (lanesOf lanes).map fun l => spillAddress tsa u false l

/-- The bits HINTS of TCAUSE for a unit of n hint words (R396). -/
def hintField (n : Nat) : Nat := if n < 8 then n else (Config.hintCount n).toNat

/-- TCAUSE (R396). -/
def tcauseWord (cause : Nat) (lead hank : Bool) (hints unit : Nat) : Dword :=
  BitVec.ofNat 64 (cause + (if lead then 256 else 0) + (if hank then 512 else 0) + 2048 * hintField hints + 65536 * unit)

/-- A trap of a group's or hank's path vectors: registers written, lanes spilled, the handler path at offset 0 of TVB with
its own MODE of 0 (R393). `noStream` forms the path of all W lanes (R252). -/
def State.vectorLanes (s : State) (c u path : Nat) (lanes : LaneMask) (start : Word) (front : Front) (noStream : Bool)
    (t : TrapRec) : State :=
  match s.unit c u with
  | none => s
  | some r =>
    match s.context r.info.ctx with
    | none => s
    | some x =>
      let regs : TrapRegs := ⟨start, tcauseWord t.cause false r.info.hank front.hints.count u, t.mask, t.addr, t.info⟩
      let back := setAt path (fun p => { p with front := { front with pc := start, hints := Hints.none } }) r.ctl.paths
      let s := s.modCtl c u fun k => { k with
        traps := regs
        trap := some ⟨false, noStream, back, path, Front.at 0, k.loops, k.mode⟩
        paths := [Path.start 0 lanes], loops := [], mode := 0 }
      (lanesOf lanes).foldl (fun s l => s.spillLane c u x.record.tsa l) s

/-- A trap of a lead vectors (R393). -/
def State.vectorLead (s : State) (c u : Nat) (start : Word) (front : Front) (t : TrapRec) : State :=
  match s.unit c u with
  | none => s
  | some r =>
    match s.context r.info.ctx, r.lead with
    | some x, some l =>
      let a := spillAddress x.record.tsa u true 0
      let g : Agent := ⟨r.info.ctx, r.info.handle⟩
      let s := (List.range 4).foldl (fun s j => s.storeLocal g c (a + 8 * j) 8 (SMap.word l.s.regs j).toNat) s
      let s := s.storeLocal g c (a + 32) 32 (l.s.preds.toNat ||| 1)
      let regs : TrapRegs := ⟨start, tcauseWord t.cause true false front.hints.count u, 0, t.addr, t.info⟩
      let s := s.modCtl c u fun k => { k with
        trap := some ⟨true, false, [], 0, { front with pc := start, hints := Hints.none }, l.s.loops, l.s.mode⟩ }
      s.modLead c u fun l => { l with
        traps := regs
        s := { l.s with front := Front.at 0, loops := [], mode := 0,
                        regs := SMap.setWord l.s.regs 0 (BitVec.ofNat 64 a) } }
    | _, _ => s

/-- The first word of the unit that aborts a run: the one whose access was refused, or the unit that traps (R323). -/
def State.abortStart (s : State) (i : Issue) (t : TrapRec) : Word :=
  match (s.run i.core i.unit).bind (·.due) with
  | some (u, pc) => if u == t then pc else i.start
  | none => i.start

/-- What a trap that vectors waits for before its spill: the stream's older stores, which the spill's stores follow in the memory
order, and the GATHERs and BARAs that have still to write a register that it spills (R96, R180, R214, R303, R393). -/
def State.spillHeld (s : State) (i : Issue) : Bool :=
  s.unperformed i != 0 || (i.kind == .group && ((s.unit i.core i.unit).map (·.owes i.lanes [0, 1, 2, 3])).getD false)

/-- Taking a trap: an uncorrectable error rolls a replayable launch back; else a run aborts, trap-handler code faults its context,
and every other stream vectors, once its older stores are performed and the spill area's pages are there (R180, R323, R379,
R393, R395). -/
def State.takeTrap (s : State) (i : Issue) (t : TrapRec) : State :=
  if t.cause = Cause.eccUncorr && s.absorbs i.agent then s.beginRollback i.ctx i.launch false else
  match i.kind with
  | .run => s.abortRun i.ctx i.core i.unit (s.abortStart i t) t
  | k =>
    if i.handler then s.contextFault i.ctx t.cause i.core else
    match s.context i.ctx with
    | none => s
    | some x =>
      if s.spillHeld i then { s with stalled := true } else
      match s.pages i.core i.ctx (spillPages x.record.tsa i.unit (k == .lead) i.lanes) (some i.waiter) with
      | .waiting s => { s with stalled := true }
      | .refused _ _ s => s.contextFault i.ctx Cause.devFault i.core
      | .ready =>
        if k == .lead then s.vectorLead i.core i.unit i.start i.front t
        else s.vectorLanes i.core i.unit i.path i.lanes i.start i.front false t

/-- The wait of a trap that vectors: for what its spill follows, and for its spill area's pages. -/
def State.spillWait (s : State) (i : Issue) : Option State :=
  if i.kind == .run || i.handler then none else
  match s.context i.ctx with
  | none => none
  | some x =>
    if s.spillHeld i then some { s with stalled := true } else
    match s.pages i.core i.ctx (spillPages x.record.tsa i.unit (i.kind == .lead) i.lanes) (some i.waiter) with
    | .waiting s => some { s with stalled := true }
    | _ => none

/-- A trap of a unit that started in `s0`, and its effect `s`: neither stands before the spill area's pages are there. An error that
rolls a launch back waits for no spill. -/
def State.enterTrap (s0 s : State) (i : Issue) (t : TrapRec) : State :=
  if t.cause = Cause.eccUncorr && s.absorbs i.agent then s.takeTrap i t
  else match s0.spillWait i with
    | some w => w
    | none => s.takeTrap i t

/-! ### Ending a trap (R394, R398) -/

/-- Reloads a lane's registers and predicates from its spill record. -/
def State.reloadLane (s : State) (c u tsa lane : Nat) : State :=
  match s.unit c u with
  | none => s
  | some r =>
    let a := spillAddress tsa u false lane
    let g : Agent := ⟨r.info.ctx, r.info.handle⟩
    let s := (List.range (min 4 r.info.regs)).foldl (fun s j =>
      let (v, s) := s.loadLocal g c (a + 4 * j) 4
      s.setLane c r lane j (BitVec.ofNat 32 v)) s
    let (p, s) := s.loadLocal g c (a + 16) 8
    s.modUnit c u fun r => { r with lanes := { r.lanes with
      preds := SMap.setWord r.lanes.preds lane (BitVec.ofNat 64 p &&& ~~~(1 : Dword)) } }

/-- Where the trapped unit resumes, and its loop stack: at TPC, or with SKIP after the unit, whose word at the end of a loop
counts as a pass (R398, R449). -/
def TrapRegs.resume (t : TrapRegs) (skip : Bool) (loops : List LoopFrame) : Word × List LoopFrame :=
  if skip then endCheck (t.tpc + BitVec.ofNat 32 (4 * ((t.tcause.toNat / 2048) % 8))) loops else (t.tpc, loops)

/-- The front of the resumed stream; SKIP drops the remaining repetitions (R398). -/
def Front.resumed (f : Front) (pc : Word) (skip : Bool) : Front :=
  { f with pc := pc, hints := Hints.none, rep := if skip then 0 else f.rep }

/-- Ends the trap of a group or hank: records reloaded, the paths as they stood (R398). -/
def State.returnLanes (s : State) (i : Issue) (skip : Bool) : State :=
  match s.unit i.core i.unit, s.context i.ctx with
  | some r, some x =>
    match r.ctl.trap with
    | none => s
    | some t =>
      let s := (lanesOf i.lanes).foldl (fun s l => s.reloadLane i.core i.unit x.record.tsa l) s
      let (pc, loops) := r.ctl.traps.resume skip t.loops
      let s := s.modUnit i.core i.unit fun r => { r with
        waits := r.waits.filter fun w => w.lead || (w.lanes != i.lanes || w.pc == pc) && !(skip && w.lanes == 0) }
      s.modCtl i.core i.unit fun k => { k with
        paths := (setAt t.index (fun p => { p with front := p.front.resumed pc skip }) t.paths).filterMap fun p =>
          let lanes := p.lanes &&& r.lanes.live
          if lanes = 0 then none else some { p with lanes := lanes }
        pending := if skip then k.pending.filter (·.blocks) else k.pending
        loops := loops, mode := t.mode, trap := none }
  | _, _ => s

/-- Ends the trap of a lead (R398). -/
def State.returnLead (s : State) (i : Issue) (skip : Bool) : State :=
  match s.unit i.core i.unit, s.context i.ctx with
  | some r, some x =>
    match r.ctl.trap with
    | none => s
    | some t =>
      let g := i.agent
      let a := spillAddress x.record.tsa i.unit true 0
      let s := (List.range 4).foldl (fun s j =>
        let (v, s) := s.loadLocal g i.core (a + 8 * j) 8
        s.modLead i.core i.unit fun l => { l with s := { l.s with regs := SMap.setWord l.s.regs j (BitVec.ofNat 64 v) } }) s
      let (p, s) := s.loadLocal g i.core (a + 32) 2
      let s := s.modCtl i.core i.unit fun k => { k with trap := none }
      let pc := ((r.lead.map fun l => (l.traps.resume skip t.loops).1)).getD 0
      let s := s.modUnit i.core i.unit fun r => { r with waits := r.waits.filter fun w => !w.lead || w.pc == pc }
      s.modLead i.core i.unit fun l => { l with s := { l.s with
        preds := BitVec.ofNat 16 p &&& 0xFFFE
        front := t.front.resumed (l.traps.resume skip t.loops).1 skip, loops := (l.traps.resume skip t.loops).2, mode := t.mode } }
  | _, _ => s

/-! ### What an instruction accepts (R36, R38, R42, R43) -/

/-- The placement and hints that an instruction accepts. -/
structure Attr where
  /-- Legal in group, lead and handler code (R42). -/
  g : Bool := true
  l : Bool := true
  h : Bool := true
  /-- Marked P (R42). -/
  p : Bool := false
  /-- XIMM (R36). -/
  ximm : Bool := false
  /-- The rounding codes below this are accepted; 0 accepts none (R38). -/
  round : Nat := 0
  /-- The saturation values below this are accepted; 0 accepts none (R38, R73). -/
  sat : Nat := 0
  /-- A C register (R34, R38). -/
  c : Bool := false
  /-- A lease hint (R38, R195). -/
  lease : Bool := false
  /-- TINFO of an ILLEGAL that the instruction's own fields and K bits raise; one found elsewhere in the encoding or the hints
  gives 0 (R397). -/
  info : Nat := 0
  /-- A BR or JR instruction, which REPEAT may not repeat (R143). -/
  branch : Bool := false
  /-- ILLEGAL in trap-handler code (R395). -/
  noHandler : Bool := false
  /-- It makes events: it waits until the stream's older remote stores are performed (R180, log entry 9). -/
  event : Bool := false
  /-- It returns the spin count to zero (R135). -/
  spin : Bool := false
  /-- It accepts a GUARD hint (R27). -/
  guard : Bool := true
  /-- A MOD hint is ILLEGAL, whatever it enables (R214, R236). -/
  noMod : Bool := false
deriving DecidableEq, Repr, Inhabited

/-- The fields of a MOD payload (R35). -/
def modRound (m : BitVec 16) : Nat := m.toNat % 8
def modRoundOn (m : BitVec 16) : Bool := m.getLsbD 3
def modSat (m : BitVec 16) : Nat := m.toNat / 16 % 4
def modSatOn (m : BitVec 16) : Bool := m.getLsbD 6
def modC (m : BitVec 16) : RegField := BitVec.ofNat 6 (m.toNat / 128)
def modCOn (m : BitVec 16) : Bool := m.getLsbD 13
def modLease (m : BitVec 16) : Nat := m.toNat / 16384

/-- Every enabled field of MOD is one the instruction accepts (R38). -/
def Attr.acceptsMod (t : Attr) (m : BitVec 16) : Bool :=
  (!modRoundOn m || decide (modRound m < t.round)) && (!modSatOn m || decide (modSat m < t.sat))
    && (!modCOn m || t.c) && (modLease m == 0 || t.lease)

/-- The unit's hints are ones the instruction accepts (R36, R38). -/
def Attr.acceptsHints (t : Attr) (h : Hints) : Bool :=
  (h.ximm.isNone || t.ximm) && (match h.mod with | some m => !t.noMod && t.acceptsMod m | none => true)

/-- The instruction is legal in the kind of code that issues it (R42, R43). -/
def Attr.legalIn (t : Attr) (k : CodeKind) : Bool :=
  match k with
  | .group => t.g
  | .lead => t.l
  | .run => t.h

/-- The guard predicate of the unit: its number and sense, from GD or from the GUARD hint (R26, R35). -/
def guardOf (gd : GuardField) (h : Hints) : Nat × Bool :=
  match h.guard with
  | some (sense, p) => (p.toNat, sense == 0)
  | none => (gd.toNat % 16, decide (gd.toNat < 16))

/-- A predicate of the issuing stream, in one lane (R26, R34). -/
def State.pred (s : State) (i : Issue) (lane p : Nat) : Bool :=
  match i.kind with
  | .group => ((s.unit i.core i.unit).map fun r => r.pred lane p).getD false
  | _ => p == 0 || (s.scalar i).preds.getLsbD p

/-- The lanes in which a guard holds (R29). -/
def State.guarded (s : State) (i : Issue) (g : Nat × Bool) : LaneMask :=
  maskOf fun l => i.lanes.getLsbD l && (s.pred i l g.1 == g.2)

/-- The unit is not malformed: no hint of it is, and a GUARD hint stands before a word that takes one and whose GD is 0 (R27, R37). -/
def Attr.guardOk (t : Attr) (gd : GuardField) (h : Hints) : Bool := !h.bad && (h.guard.isNone || (t.guard && gd == 0))

/-- A GUARD hint names a predicate that the stream has (R34). One that names p16 to p63 in lead or handler code makes its unit
trap ILLEGAL before any guard is evaluated, whatever its sense: the spec gives such a guard no value (DESIGN CHOICE, log
entry 85). -/
def guardInRange (k : CodeKind) (h : Hints) : Bool :=
  match h.guard with
  | some (_, p) => k == .group || decide (p.toNat < 16)
  | none => true


/-- A trap that an engine, another core, the budget or a fetch has left for the stream, taken at its next unit: of a run whose
count has passed the cycles that its budget gives (R252, R322, R323), and of a lead over its budget also in its trap handler,
where it faults the context (R395, R400). -/
def State.dueTrap (s : State) (i : Issue) : Option (TrapRec × State) :=
  match i.kind with
  | .run => match s.run i.core i.unit with
    | some r => match r.due with
      | some (t, _) => some (t, s)
      | none => if r.budget < r.count then some (⟨Cause.budget, 0, 0, 0⟩, s) else none
    | none => none
  | k =>
    match s.unit i.core i.unit with
    | none => none
    | some r =>
      let lead := k == .lead
      if lead && (r.lead.map (·.due)).getD false then
        some (⟨Cause.budgetLead, 0, 0, 0⟩, s.modLead i.core i.unit fun l => { l with due := false, readyFor := 0 })
      else if i.handler then none
      else
        match r.ctl.waiting.find? fun w => w.1 == lead && (lead || w.2.mask == 0 || (w.2.mask &&& i.lanes) != 0) with
        | some w =>
          some ({ w.2 with mask := if lead then 0 else i.lanes },
            s.modCtl i.core i.unit fun c => { c with waiting := c.waiting.erase w })
        | none => none

/-- The unit of the issuing path that has sent its element messages, and waits to complete or to trap (R303, R306, R308). -/
def State.acknowledged (s : State) (i : Issue) : Option Pending :=
  if i.kind == .group then
    (s.unit i.core i.unit).bind fun r => r.ctl.pending.find? fun p =>
      !p.lead && !p.loose && !p.blocks && p.pc == i.start && p.lanes == i.lanes
  else none

/-- The 257th unit of a masked window (R328). -/
def State.maskExceeded (s : State) (i : Issue) : Bool :=
  match i.kind with
  | .run => ((s.run i.core i.unit).bind (·.masked)).any (256 ≤ ·)
  | _ => false

/-- The state after a unit's body. -/
def Eff.settle (e : Eff) (t : Attr) (i : Issue) (s0 : State) : State :=
  match e with
  | .done s => ((if t.spin then s.clearSpin i else s).countMasked i).finish i
  | .moved s => s
  | .trap r s => s0.enterTrap s i r
  | .wait s => { s with stalled := true, free := s0.free }

/-- PRIV, taken unless the unit is ILLEGAL in itself (R43, R236, R405). -/
def Attr.unprivileged (t : Attr) (i : Issue) (s : State) (body : Issue → State → Eff) : Eff :=
  if !t.acceptsHints i.front.hints then i.illegal 0 s
  else match body i s with
    | .trap r _ =>
      if r.cause = Cause.illegal && (r.info == 0 || r.info == BitVec.ofNat 64 t.info) then .trap r s else i.trapBare Cause.priv 0 s
    | _ => i.trapBare Cause.priv 0 s

/-- A unit whose guard holds: place, PRIV, hints, then the body (R43). -/
def Attr.checked (t : Attr) (i : Issue) (s : State) (body : Issue → State → Eff) : Eff :=
  if !t.legalIn i.kind then i.illegal 0 s
  else if t.noHandler && i.handler then i.illegal 0 s
  else if t.p && !i.priv then t.unprivileged i s body
  else if !t.acceptsHints i.front.hints || (t.branch && decide (i.front.rep ≠ 0)) then i.illegal 0 s
  else if t.event && decide (s.unperformed i ≠ 0) then .wait s
  else body i s

/-- Issues an instruction word: due traps, FENCE, malformed units, the guard, then the checks and the body (R27 to R43). A due trap
is taken here, at the unit's word, behind its hints, which TCAUSE counts (R396); a unit whose elements have been performed
completes first. -/
def runUnit (t : Attr) (gd : GuardField) (body : Issue → State → Eff) (s : State) :
    Host.Outcome State Fault Refusal :=
  match s.cur.bind s.issue with
  | none => .refused .noIssuingStream
  | some i =>
    let s := { s with stalled := false }
    match (if (s.acknowledged i).isSome then none else s.dueTrap i) with
    | some (r, u) => .next (s.enterTrap u i r)
    | none =>
      if s.fenced i then .next { s with stalled := true }
      else if s.maskExceeded i then .next (s.takeTrap i ⟨Cause.maskWindow, 0, 0, 256⟩)
      else if !t.guardOk gd i.front.hints || !guardInRange i.kind i.front.hints then
        .next (s.takeTrap i ⟨Cause.illegal, 0, 0, 0⟩)
      else
        let active := if t.guard then s.guarded i (guardOf gd i.front.hints) else i.lanes
        if active = 0 then .next ((s.countMasked i).finish i)
        else
          let i := { i with active := active }
          .next ((t.checked i s body).settle t i s)

/-- The stream goes on behind a hint word (R40). -/
def State.passHint (s : State) (i : Issue) (h : Hints) (skip : Nat) : State :=
  (s.setFront i { i.front with pc := i.front.pc + 4, hints := { h with count := h.count + 1 } }).issued i skip

/-- Latches a hint word. One that makes the unit malformed is counted, and the unit traps at its word (R35 to R37, R39, R40).
`twice` says that the unit has a hint of this kind already. -/
def runHint (twice : Hints → Bool) (latch : Hints → Hints) (skip : Nat) (s : State) :
    Host.Outcome State Fault Refusal :=
  match s.cur.bind s.issue with
  | none => .refused .noIssuingStream
  | some i =>
    let s := { s with stalled := false }
    if s.fenced i then .next { s with stalled := true }
    else if twice i.front.hints || (s.loops i).any (·.last == i.front.pc) then
      .next (s.passHint i { i.front.hints with bad := true } 0)
    else .next (s.passHint i (latch i.front.hints) skip)

/-- A word that decodes to nothing, in a stream: a hint makes its unit malformed, another word traps ILLEGAL when its guard
holds (R25, R28, R37, R42; log entry 14). `zero` says that a field marked zero is not zero, for which some families give a
TINFO (R283, R330, R358, R382, R405). -/
def runIllegal (w : Nat) (hint zero : Bool) (s : State) : State :=
  match s.cur.bind s.issue with
  | none => s
  | some i =>
    let s := { s with stalled := false }
    match (if hint then none else s.dueTrap i) with
    | some (r, u) => s.enterTrap u i r
    | none =>
      if s.fenced i then { s with stalled := true }
      else if hint then s.passHint i { i.front.hints with bad := true } 0
      else if s.maskExceeded i then s.takeTrap i ⟨Cause.maskWindow, 0, 0, 256⟩ else
      let gd : GuardField := BitVec.ofNat 5 w
      let t : Attr := {}
      if !t.guardOk gd i.front.hints || !guardInRange i.kind i.front.hints then
        s.takeTrap i ⟨Cause.illegal, 0, 0, 0⟩
      else
        let active := s.guarded i (guardOf gd i.front.hints)
        if active = 0 then (s.countMasked i).finish i
        else
          let i := { i with active := active }
          s.takeTrap i ⟨Cause.illegal, 0, 0, BitVec.ofNat 64 (if !zero then 0 else match w / 2 ^ 26 with
            | 0x25 => 21 | 0x26 => 21 | 0x28 => 23 | 0x29 => 25 | 0x2B => 27 | 0x2C => 28 | _ => 0)⟩

end Sys2Proof.Machine
end

