-- ==== Sys2Proof/Machine/Operands.lean ====
section
/-! DEFINITION. Operands: register fields in each kind of code, pairs, queue registers, and the writing of results (R30 to
R34, R98, R151 to R157). -/

namespace Sys2Proof.Machine

/-- How an operand is read or written. -/
inductive Cls where
  /-- A register of the stream's width: 32 bits in group code, 64 in lead and handler code. -/
  | nat
  /-- 32 bits in every kind of code; a result is zero-extended. -/
  | word
  /-- 64 bits: a pair in group code (R32). -/
  | pair
deriving DecidableEq, Repr, Inhabited

/-- The field names a queue register (R30). -/
def isQueue (f : RegField) : Bool := decide (56 ≤ f.toNat) && decide (f.toNat ≤ 59)

/-- The width w of integers (R98). -/
def Issue.w (i : Issue) : Nat := if i.kind == .group then 32 else 64

/-- A register field is legal (R30 to R32). -/
def Issue.regOk (i : Issue) (write : Bool) (c : Cls) (f : RegField) : Bool :=
  let n := f.toNat
  match i.kind with
  | .group =>
    match c with
    | .pair => n == 60 || (n % 2 == 0 && decide (n + 1 < i.regs) && decide (n < 56))
    | _ => decide (n < i.regs) && decide (n < 56) || isQueue f || n == 60 || (!write && decide (61 ≤ n))
  | .lead => decide (n ≤ 60) || (!write && decide (n ≤ 62))
  | .run => decide (n < 32) || n == 60 || (!write && n == 61)

/-- The relative coordinate word of the issuing core (R122). -/
def State.coordWord (s : State) (i : Issue) : BitVec 16 :=
  match s.context i.ctx with
  | some x => x.relative i.core
  | none => 0

/-- A register of one lane that is not a queue register (R30). -/
def State.laneReg (s : State) (i : Issue) (r : Resident) (lane : Nat) (n : Nat) : Word :=
  if n < 56 then s.lane i.core r lane n
  else if n = 61 then BitVec.ofNat 32 lane
  else if n = 62 then (if r.info.hank then (SMap.find r.lanes.ggis lane).getD 0 else r.info.ggi)
  else if n = 63 then (s.coordWord i).setWidth 32
  else 0

/-- A lead or handler register that is not a queue register (R30). -/
def State.scalarReg (s : State) (i : Issue) (n : Nat) : Dword :=
  if n < 56 then SMap.word (s.scalar i).regs n
  else if n = 61 then
    (if i.kind == .lead then (match s.unit i.core i.unit with | some r => r.info.ggi.setWidth 64 | none => 0)
     else (s.coordWord i).setWidth 64)
  else if n = 62 then (s.coordWord i).setWidth 64
  else 0

/-- A pair's value: the low half in the even register (R32). -/
def joinPair (even odd : Word) : Dword := odd ++ even

/-- What a source field reads in a lane, given the entry it popped (R31, R32, R151). -/
def State.source (s : State) (i : Issue) (c : Cls) (f : RegField) (popped : Option (List Word)) (lane : Nat) : Dword :=
  match popped with
  | some e =>
    if i.kind == .group then ((e[lane]?).getD 0).setWidth 64
    else
      let v := joinPair ((e[0]?).getD 0) ((e[1]?).getD 0)
      if c == .word then v &&& 0xFFFFFFFF else v
  | none =>
    if i.kind == .group then
      match s.unit i.core i.unit with
      | none => 0
      | some r =>
        if c == .pair then
          if f.toNat = 60 then 0
          else joinPair (s.laneReg i r lane f.toNat) (s.laneReg i r lane (f.toNat + 1))
        else (s.laneReg i r lane f.toNat).setWidth 64
    else
      let v := s.scalarReg i f.toNat
      if c == .word then v &&& 0xFFFFFFFF else v

/-! ### Queue registers -/

/-- The queue that a field names. -/
def queueIndex (f : RegField) : Nat := f.toNat - 56

/-- The direction of a neighbour endpoint: dx, dy of codes 3 to 10 (R151). -/
def linkStep (ep : Nat) : Int × Int :=
  if ep = 3 ∨ ep = 4 then (0, -1) else if ep = 5 ∨ ep = 6 then (1, 0) else if ep = 7 ∨ ep = 8 then (0, 1) else (-1, 0)

/-- The adjacent core that a neighbour endpoint faces; none at the package border (R15). -/
def neighbour (c ep : Nat) : Option Nat :=
  let (dx, dy) := linkStep ep
  let x := (coreX c : Int) + dx
  let y := (coreY c : Int) + dy
  if 0 ≤ x ∧ x < 48 ∧ 0 ≤ y ∧ y < 24 then some (y.toNat * 48 + x.toNat) else none

/-- The endpoint on the other side of a wire: east-outbound feeds west-inbound, and so on (R155). -/
def peerEndpoint (ep : Nat) : Nat :=
  if ep = 3 then 8 else if ep = 4 then 7 else if ep = 5 then 10 else if ep = 6 then 9
  else if ep = 7 then 4 else if ep = 8 then 3 else if ep = 9 then 6 else 5

/-- The unit and queue of a core that map an endpoint with a channel; of two queues of one group the lowest (DESIGN CHOICE, log entry
103). -/
def State.mappedBy (s : State) (c ep opt : Nat) : Option (Nat × Nat) :=
  (s.core c).units.findSome? fun (u, r) =>
    (r.queues.findIdx? fun q => q.ep == ep && q.opt == opt).map fun k => (u, k)

/-- The peer of a neighbour queue: core, unit and queue (R155). -/
def State.peer (s : State) (c : Nat) (q : QueueReg) : Option (Nat × Nat × Nat) :=
  (neighbour c q.ep).bind fun d => (s.mappedBy d (peerEndpoint q.ep) q.opt).map fun (u, k) => (d, u, k)

/-- The die-edge link that a wire crosses, when it crosses one (R14, R416): links 0 to 23 are the short edges by row, 24 to
71 the long edges by column. -/
def edgeBetween (a b : Nat) : Option Nat :=
  if coreY a = coreY b ∧ min (coreX a) (coreX b) = 23 ∧ max (coreX a) (coreX b) = 24 then some (coreY a)
  else if coreX a = coreX b ∧ min (coreY a) (coreY b) = 11 ∧ max (coreY a) (coreY b) = 12 then some (24 + coreX a)
  else none

/-- The wire of a neighbour endpoint crosses a failed die edge (R416). -/
def State.wireFailed (s : State) (c ep : Nat) : Bool :=
  match neighbour c ep with
  | some d => match edgeBetween c d with
    | some l => s.edge l == .failed
    | none => false
  | none => false

/-- The writer of a queue has ended (R154). -/
def State.writerEnded (s : State) (c : Nat) (r : Resident) (q : QueueReg) : Bool :=
  if q.ep = 1 then (r.lead.map (·.ended)).getD true
  else if q.ep = 2 then r.lanes.live == 0
  else if q.ep % 2 = 1 ∧ 3 ≤ q.ep then (q.hadPeer && (s.peer c q).isNone) || s.wireFailed c q.ep
  else false

/-- The reader of a queue has ended (R154). -/
def State.readerEnded (s : State) (c : Nat) (r : Resident) (q : QueueReg) : Bool :=
  if q.ep = 1 then r.lanes.live == 0
  else if q.ep = 2 then (r.lead.map (·.ended)).getD true
  else if q.ep % 2 = 0 ∧ 4 ≤ q.ep then (q.hadPeer && (s.peer c q).isNone) || s.wireFailed c q.ep
  else false

/-- A queue may be popped, or pushed, by the issuing stream (R151). -/
def popsFrom (k : CodeKind) (ep : Nat) : Bool :=
  match k with
  | .group => ep == 1 || ep == 3 || ep == 5 || ep == 7 || ep == 9
  | .lead => ep == 2
  | .run => false
def pushesTo (k : CodeKind) (ep : Nat) : Bool :=
  match k with
  | .group => ep == 2 || ep == 4 || ep == 6 || ep == 8 || ep == 10
  | .lead => ep == 1
  | .run => false

/-- QUEUE_MAP with its reason (R157). -/
def Issue.queueMap (i : Issue) (q reason : Nat) (s : State) : Eff := i.trapBare Cause.queueMap (q + 4 * reason) s

/-- The result of the operand stage. -/
inductive Fetched where
  /-- The value of each source by lane, and the state after the pops. -/
  | ok (vals : List (Nat → Dword)) (s : State)
  | stop (e : Eff)

/-- Notes that the issuing stream waits for a queue (R152). -/
def State.markBlocked (s : State) (i : Issue) (k : Nat) : State :=
  let e := (i.kind == .lead, i.front.pc)
  s.modUnit i.core i.unit fun r => { r with
    queues := setAt k (fun q => if q.blocked.contains e then q else { q with blocked := e :: q.blocked }) r.queues }

/-- The queue-register checks of a unit: mapped in the direction used, then ended peers, then entries and room (R31, R148,
R153, R154). -/
def State.queueCheck (s : State) (i : Issue) (pops pushes : List Nat) : Option Eff :=
  if pops.isEmpty && pushes.isEmpty then none else
  if i.hank then some (i.queueMap ((pops ++ pushes).headD 0) 0 s) else
  match s.unit i.core i.unit with
  | none => some (.wait s)
  | some r =>
    let q (k : Nat) : QueueReg := (r.queues[k]?).getD QueueReg.unmapped
    match pops.find? fun k => !popsFrom i.kind (q k).ep with
    | some k => some (i.queueMap k 0 s)
    | none =>
      match pushes.find? fun k => !pushesTo i.kind (q k).ep with
      | some k => some (i.queueMap k 0 s)
      | none =>
        let short (k : Nat) : Bool := decide ((q k).entries.length < pops.count k)
        let full (k : Nat) : Bool := decide (8 < (q k).entries.length + (q k).kept + pushes.count k)
        match pops.find? fun k => short k && s.writerEnded i.core r (q k) with
        | some k => some (i.queueMap k 1 s)
        | none =>
          match pushes.find? fun k => full k && s.readerEnded i.core r (q k) with
          | some k => some (i.queueMap k 2 s)
          | none =>
            if pops.any short || pushes.any full then
              some (.wait ((pops.filter short ++ pushes.filter full).foldl (fun s k => s.markBlocked i k) s))
            else if s.unperformed i ≠ 0 then some (.wait s) else none

/-- Pops one entry of a queue. -/
def State.popQueue (s : State) (i : Issue) (k : Nat) : List Word × State :=
  match (s.unit i.core i.unit).bind fun r => r.queues[k]? with
  | some q =>
    match q.entries with
    | e :: more => (e, s.modUnit i.core i.unit fun r => { r with queues := setAt k (fun q => { q with
        entries := more, blocked := q.blocked.erase (i.kind == .lead, i.front.pc) }) r.queues })
    | [] => ([], s)
  | none => ([], s)

/-- Pushes one entry of a queue; one to a receiver that has ended is discarded (R154). -/
def State.pushQueue (s : State) (i : Issue) (k : Nat) (e : List Word) : State :=
  match s.unit i.core i.unit with
  | none => s
  | some r =>
    let q := (r.queues[k]?).getD QueueReg.unmapped
    if s.readerEnded i.core r q then s
    else s.modUnit i.core i.unit fun r => { r with queues := setAt k (fun q => { q with
      entries := q.entries ++ [e], blocked := q.blocked.erase (i.kind == .lead, i.front.pc) }) r.queues }

/-- The registers that a source field names in a lane. -/
def fieldRegs (c : Cls) (f : RegField) : List Nat := if c == .pair then [f.toNat, f.toNat + 1] else [f.toNat]

/-- A register of the issuing path has still to be written by an older BARA or GATHER (R96, R214, R303). -/
def State.tokenPending (s : State) (i : Issue) (regs : List Nat) : Bool :=
  i.kind == .group && ((s.unit i.core i.unit).map (·.owes i.lanes regs)).getD false

/-- Reads the sources in order, popping queue registers; `dsts` are the destination fields that will be pushed (R31,
R153). -/
def State.operands (s : State) (i : Issue) (srcs : List (Cls × RegField)) (dsts : List RegField) : Fetched :=
  let pops := (srcs.filter fun x => isQueue x.2).map fun x => queueIndex x.2
  let pushes := (dsts.filter isQueue).map queueIndex
  match s.queueCheck i pops pushes with
  | some e => .stop e
  | none =>
    if s.tokenPending i (srcs.flatMap fun x => fieldRegs x.1 x.2) then .stop (.wait s) else
    let (vals, t) := srcs.foldl (fun (acc : List (Nat → Dword) × State) x =>
      if isQueue x.2 then
        let (e, t) := acc.2.popQueue i (queueIndex x.2)
        (acc.1 ++ [s.source i x.1 x.2 (some e)], t)
      else (acc.1 ++ [s.source i x.1 x.2 none], acc.2)) ([], s)
    .ok vals (if pops.isEmpty then t else t.clearSpin i)

/-- The operand stage of an instruction that checks operand values before QUEUE_MAP: `early` sees the registers' values first, an
entry not yet popped counting as zero, and the values themselves then (R330, R358, R382, R405). -/
def State.operandsAfter (s : State) (i : Issue) (srcs : List (Cls × RegField)) (dsts : List RegField)
    (early : List (Nat → Dword) → Option Eff) : Fetched :=
  if s.tokenPending i (srcs.flatMap fun x => fieldRegs x.1 x.2) then .stop (.wait s)
  else match early (srcs.map fun x => if isQueue x.2 then fun _ => 0 else s.source i x.1 x.2 none) with
    | some e => .stop e
    | none => match s.operands i srcs dsts with
      | .stop e => .stop e
      | .ok v u => match early v with
        | some e => .stop e
        | none => .ok v u

/-! ### Results -/

/-- A younger write of a register stands when an older BARA writes it late (R96). -/
def Arrival.overwritten (a : Arrival) (lane : Nat) (regs : List Nat) : Arrival :=
  { a with tokens := a.tokens.map fun (m, n, t) => (if regs.contains n then m &&& ~~~(laneBit lane) else m, n, t) }

/-- The same for an older GATHER. -/
def Pending.overwritten (p : Pending) (lane : Nat) (regs : List Nat) : Pending :=
  if p.loose && regs.contains p.dest.toNat then { p with writes := p.writes &&& ~~~(laneBit lane) } else p

/-- What older units have still to write gives way, in a lane's registers, to a younger write (R96). -/
def Resident.overwritten (r : Resident) (lane : Nat) (regs : List Nat) : Resident :=
  { r with arrival := r.arrival.map (·.overwritten lane regs)
           ctl := { r.ctl with pending := r.ctl.pending.map (·.overwritten lane regs) } }

/-- The issuing unit writes registers late, in its active lanes: what older units have still to write there gives way (R96). -/
def State.supersede (s : State) (i : Issue) (regs : List Nat) : State :=
  s.modUnit i.core i.unit fun r => (lanesOf i.active).foldl (fun r l => r.overwritten l regs) r

/-- Writes a value to a register of one lane, or of a lead or run. gz and sz discard it (R30). -/
def State.writeReg (s : State) (i : Issue) (c : Cls) (f : RegField) (lane : Nat) (v : Dword) : State :=
  if 56 ≤ f.toNat then s
  else if i.kind == .group then
    match s.unit i.core i.unit with
    | none => s
    | some r =>
      let s := if r.arrival.isSome || !r.ctl.pending.isEmpty then s.setUnit i.core i.unit (r.overwritten lane (fieldRegs c f)) else s
      let s := s.setLane i.core r lane f.toNat (v.setWidth 32)
      if c == .pair then s.setLane i.core r lane (f.toNat + 1) ((v >>> 32).setWidth 32) else s
  else s.modScalar i fun k => { k with regs := SMap.setWord k.regs f.toNat (if c == .word then v &&& 0xFFFFFFFF else v) }

/-- Writes a result to a register in the lanes of a mask. -/
def State.writeLanes (s : State) (i : Issue) (c : Cls) (f : RegField) (mask : LaneMask) (v : Nat → Dword) : State :=
  (lanesOf mask).foldl (fun s l => s.writeReg i c f l (v l)) s

/-- The entry that the lanes push (R151). -/
def Issue.laneEntry (i : Issue) (v : Nat → Dword) : List Word :=
  (List.range 64).map fun l => if i.active.getLsbD l then (v l).setWidth 32 else 0

/-- A local address is valid in a window (R175). -/
def Window.holds (w : Window) (a n : Nat) : Bool :=
  if w.all then decide (a + n ≤ 2 ^ 20) else decide (w.base ≤ a) && decide (a + n ≤ w.base + w.size) && decide (a + n ≤ 2 ^ 20)

/-- A queue entry of the n words from a local address on, 0 beyond them (R151). -/
def State.localEntry (s : State) (g : Agent) (c a n : Nat) : List Word × State :=
  let (words, s) := (List.range n).foldl (fun (acc : List Word × State) l =>
    let (x, s) := acc.2.loadLocal g c (a + 4 * l) 4
    (acc.1 ++ [BitVec.ofNat 32 x], s)) ([], s)
  (words ++ List.replicate (64 - n) 0, s)

/-- A lead's push: broadcast, or a fetch of W words from local space (R151). -/
def State.leadPush (s0 s : State) (i : Issue) (k : Nat) (v : Dword) : Eff :=
  match s.unit i.core i.unit with
  | none => .wait s0
  | some r =>
    let q := (r.queues[k]?).getD QueueReg.unmapped
    if q.opt = 0 then .done (s.pushQueue i k (List.replicate 64 (v.setWidth 32)))
    else
      let a := v.toNat % 2 ^ 20
      let n := 4 * r.info.width
      if !i.window.holds a n then i.trapAt Cause.lsBound a 0 s0
      else if a % 4 ≠ 0 then i.trapAt Cause.misalign a 0 s0
      else
        match s0.pages i.core i.ctx [a, a + n - 1] (some i.waiter) with
        | .refused a cause s => i.trapAt cause a 0 s
        | .waiting s => .wait s
        | .ready =>
          let (e, s) := s.localEntry i.agent i.core a r.info.width
          .done (s.pushQueue i k e)

/-- Writes a unit's result in every active lane, or pushes it; `s0` is the state before the unit (R31, R98). -/
def State.result (s0 s : State) (i : Issue) (c : Cls) (f : RegField) (v : Nat → Dword) : Eff :=
  if isQueue f then
    let s := s.clearSpin i
    if i.kind == .group then .done (s.pushQueue i (queueIndex f) (i.laneEntry v))
    else s0.leadPush s i (queueIndex f) (v 0)
  else .done (s.writeLanes i c f i.active v)

/-- The C register of a three-source instruction: D, or the one that MOD names (R34). -/
def Issue.cField (i : Issue) (d : RegField) : RegField :=
  match i.front.hints.mod with
  | some m => if modCOn m then modC m else d
  | none => d

/-- The checks and operand stage of an instruction that computes one result in each lane. -/
def State.compute (s : State) (i : Issue) (info : Nat) (dst : Cls × RegField) (srcs : List (Cls × RegField))
    (f : List (Nat → Dword) → State → (Nat → Dword) × State) : Eff :=
  if !(i.regOk true dst.1 dst.2) || !(srcs.all fun x => i.regOk false x.1 x.2) then i.illegal info s
  else
    match s.operands i srcs [dst.2] with
    | .stop e => e
    | .ok vals t =>
      let (v, t) := f vals t
      s.result t i dst.1 dst.2 v

/-- A source's value in a lane. -/
def nth (vals : List (Nat → Dword)) (k lane : Nat) : Dword :=
  match vals[k]? with
  | some v => v lane
  | none => 0

/-- A pure lane-by-lane result. -/
def State.lanewise (s : State) (i : Issue) (dst : Cls × RegField) (srcs : List (Cls × RegField))
    (f : (Nat → Dword) → Dword) : Eff :=
  s.compute i 0 dst srcs fun vals t => (fun l => f fun k => nth vals k l, t)

/-- The operand K (R36). -/
def Issue.k (i : Issue) : Nat :=
  match i.front.hints.ximm with
  | some x => x.toNat
  | none => 0

/-- Sign extension of the n low bits to 64 (R58). -/
def sext64 (n v : Nat) : Dword :=
  if v.testBit (n - 1) then BitVec.ofNat 64 (v % 2 ^ n) - BitVec.ofNat 64 (2 ^ n % 2 ^ 64) else BitVec.ofNat 64 (v % 2 ^ n)

/-- The immediate of an n-bit field, extended by XIMM (R36). -/
def Issue.immediate (i : Issue) (n v : Nat) : Dword :=
  match i.front.hints.ximm with
  | some x => sext64 (n + 23) (x.toNat * 2 ^ n + v)
  | none => sext64 n v

/-- Writes a predicate of the issuing stream in a lane (R26, R34). -/
def State.writePred (s : State) (i : Issue) (lane p : Nat) (b : Bool) : State :=
  match i.kind with
  | .group => s.setLanePred i.core i.unit lane p b
  | _ => if p = 0 then s else s.modScalar i fun k => { k with preds := putBit k.preds p b }

/-- Writes a predicate in every active lane. -/
def State.writePreds (s : State) (i : Issue) (p : Nat) (b : Nat → Bool) : State :=
  (lanesOf i.active).foldl (fun s l => s.writePred i l p (b l)) s

/-- A predicate number is one the stream has (R34). -/
def Issue.predOk (i : Issue) (p : RegField) : Bool := i.kind == .group || decide (p.toNat < 16)

end Sys2Proof.Machine
end

