-- ==== Sys2Proof/Machine/Numbers.lean ====
section
/-! DEFINITION. Floating-point numbers: the IEEE formats, Bend8, rounding, the exact operations, the functions, and the
conversions (R58 to R69, R73, R75, R82 to R94). Values between decoding and rounding are exact rationals. -/

namespace Sys2Proof.Machine

/-! ### Formats and values (R59, R60) -/

/-- An IEEE format: exponent bits and fraction bits. -/
structure Fmt where
  eb : Nat
  fb : Nat
deriving DecidableEq, Repr, Inhabited

def f16 : Fmt := ⟨5, 10⟩
def b16 : Fmt := ⟨8, 7⟩
def f32 : Fmt := ⟨8, 23⟩
def f64 : Fmt := ⟨11, 52⟩

/-- The largest and the smallest exponent of a normal number. -/
def Fmt.emax (f : Fmt) : Int := 2 ^ (f.eb - 1) - 1
def Fmt.emin (f : Fmt) : Int := 1 - f.emax

def Fmt.signBit (f : Fmt) : Nat := 2 ^ (f.eb + f.fb)
/-- The encoding of +infinity; one less is the largest finite magnitude. -/
def Fmt.infBits (f : Fmt) : Nat := (2 ^ f.eb - 1) * 2 ^ f.fb
/-- The canonical NaN (R60). -/
def Fmt.nanBits (f : Fmt) : Nat := f.infBits + 2 ^ (f.fb - 1)

/-- A decoded value; a finite one is not zero. -/
inductive FVal where
  | nan (signalling : Bool)
  | inf (neg : Bool)
  | zero (neg : Bool)
  | fin (x : Rat)
deriving DecidableEq, Repr, Inhabited

/-- A power of two. -/
def pow2 (e : Int) : Rat := if 0 ≤ e then ((2 ^ e.toNat : Nat) : Rat) else mkRat 1 (2 ^ (-e).toNat)

/-- The value that bits encode; FTZ reads a subnormal as zero (R61). -/
def Fmt.decode (f : Fmt) (ftz : Bool) (bits : Nat) : FVal :=
  let neg := bits.testBit (f.eb + f.fb)
  let frac := bits % 2 ^ f.fb
  let ex := bits / 2 ^ f.fb % 2 ^ f.eb
  if ex = 2 ^ f.eb - 1 then (if frac = 0 then .inf neg else .nan (!frac.testBit (f.fb - 1)))
  else if ex = 0 then
    if frac = 0 || ftz then .zero neg
    else .fin ((if neg then -(frac : Rat) else frac) * pow2 (f.emin - f.fb))
  else .fin ((if neg then -((frac + 2 ^ f.fb : Nat) : Rat) else ((frac + 2 ^ f.fb : Nat) : Rat)) * pow2 (f.emin - f.fb + ex - 1))

/-! ### Events (R75, R76) -/

/-- Counts of the events of one or more elements. -/
structure Ev where
  iv : Nat := 0
  dz : Nat := 0
  of : Nat := 0
  uf : Nat := 0
  nx : Nat := 0
  nr : Nat := 0
  outlier : Nat := 0
  clamp : Nat := 0
  lo : Nat := 0
deriving DecidableEq, Repr, Inhabited

/-- The events of two elements. -/
def Ev.add (a b : Ev) : Ev :=
  ⟨a.iv + b.iv, a.dz + b.dz, a.of + b.of, a.uf + b.uf, a.nx + b.nx, a.nr + b.nr, a.outlier + b.outlier, a.clamp + b.clamp,
    a.lo + b.lo⟩

def Ev.invalid (b : Bool) : Ev := { iv := b.toNat }

/-- The result of one element: its bits, its events, the generator after it. -/
structure FRes where
  bits : Nat
  ev : Ev
  gen : Word
deriving DecidableEq, Repr, Inhabited

/-! ### Rounding (R67 to R69, R73, R75) -/

/-- One step of a generator: the 16-bit draw and the new state (R69). -/
def stepGen (g : Word) : Nat × Word :=
  let n := if g.getLsbD 31 then (g <<< 1) ^^^ 0x00400007 else g <<< 1
  (n.toNat / 65536, n)

/-- Whether a magnitude between n and n + 1 quanta goes up; `frac` is its place between them (R67, R68). -/
def roundsUp (code : Nat) (neg : Bool) (n : Nat) (frac : Rat) (draw : Nat) : Bool :=
  match code with
  | 0 => decide (1 / 2 < frac) || (frac == 1 / 2 && n % 2 == 1)
  | 1 => false
  | 2 => neg && frac != 0
  | 3 => !neg && frac != 0
  | 4 => decide (1 / 2 ≤ frac)
  | _ => decide (65536 ≤ (frac * 65536).floor.toNat + draw)

/-- The exponent of the binade of a positive rational. -/
def ilog2 (x : Rat) : Int :=
  let k : Int := (Nat.log2 x.num.natAbs : Int) - Nat.log2 x.den
  if pow2 k ≤ x then k else k - 1

/-- A magnitude in quanta of 2^q: how many whole ones, and the rest. -/
def quanta (x : Rat) (q : Int) : Nat × Rat :=
  let y := x * pow2 (-q)
  let n := y.floor.toNat
  (n, y - n)

/-- What an overflow of an IEEE destination delivers (R73). -/
def Fmt.overflow (f : Fmt) (code sat : Nat) (neg : Bool) : Nat :=
  let max := if sat = 1 then true
    else if code = 1 then true else if code = 2 then !neg else if code = 3 then neg else false
  (if neg then f.signBit else 0) + (if max then f.infBits - 1 else f.infBits)

/-- A value that is not zero, rounded into a format, with its exceptions (R61, R67, R68, R73, R75). -/
def Fmt.round (f : Fmt) (ftz : Bool) (code sat : Nat) (gen : Word) (x : Rat) : FRes :=
  let neg := decide (x < 0)
  let a := if x < 0 then -x else x
  let e := ilog2 a
  let (m, rest) := quanta a (e - f.fb)
  let free := m + (roundsUp (if code = 5 then 0 else code) neg m rest 0).toNat
  let tiny := decide (e < f.emin) && decide ((free : Rat) * pow2 (e - f.fb) < pow2 f.emin)
  let qmin := f.emin - f.fb
  let q := (if e < f.emin then f.emin else e) - f.fb
  let (n, frac) := quanta a q
  let inexact := frac != 0 || decide (f.emax < e)
  let (draw, gen) := if code = 5 && inexact then stepGen gen else (0, gen)
  let mag := (q - qmin).toNat * 2 ^ f.fb + (n + (roundsUp code neg n frac draw).toNat)
  let sign := if neg then f.signBit else 0
  if decide (f.emax < e) || decide (f.infBits ≤ mag) then
    ⟨f.overflow code sat neg, { of := 1, nx := 1, clamp := if sat = 1 then 1 else 0 }, gen⟩
  else if ftz && tiny then ⟨sign, { uf := 1, nx := 1 }, gen⟩
  else
    let nx := frac != 0
    ⟨sign + mag, { uf := (tiny && nx).toNat, nx := nx.toNat }, gen⟩

/-- Any value, rounded into a format. -/
def Fmt.encode (f : Fmt) (ftz : Bool) (code sat : Nat) (gen : Word) (v : FVal) : FRes :=
  match v with
  | .nan _ => ⟨f.nanBits, {}, gen⟩
  | .inf neg => ⟨(if neg then f.signBit else 0) + f.infBits, {}, gen⟩
  | .zero neg => ⟨if neg then f.signBit else 0, {}, gen⟩
  | .fin x => f.round ftz code sat gen x

/-! ### Arithmetic (R82, R84, R85) -/

def FVal.isNan : FVal → Bool
  | .nan _ => true
  | _ => false

def FVal.signalling : FVal → Bool
  | .nan s => s
  | _ => false

def FVal.neg : FVal → FVal
  | .nan s => .nan s
  | .inf n => .inf (!n)
  | .zero n => .zero (!n)
  | .fin x => .fin (-x)

/-- The sign of a value that is no NaN. -/
def FVal.negative : FVal → Bool
  | .nan _ => false
  | .inf n => n
  | .zero n => n
  | .fin x => decide (x < 0)

/-- The exact product; none for 0 x infinity or a NaN. -/
def FVal.mul (a b : FVal) : Option FVal :=
  let n := a.negative ^^ b.negative
  match a, b with
  | .nan _, _ => none
  | _, .nan _ => none
  | .inf _, .zero _ => none
  | .zero _, .inf _ => none
  | .inf _, _ => some (.inf n)
  | _, .inf _ => some (.inf n)
  | .zero _, _ => some (.zero n)
  | _, .zero _ => some (.zero n)
  | .fin x, .fin y => some (.fin (x * y))

/-- The exact sum, with the sign of a zero under a rounding code; none for infinity - infinity or a NaN. -/
def FVal.add (code : Nat) (a b : FVal) : Option FVal :=
  match a, b with
  | .nan _, _ => none
  | _, .nan _ => none
  | .inf m, .inf n => if m == n then some (.inf m) else none
  | .inf m, _ => some (.inf m)
  | _, .inf n => some (.inf n)
  | .zero m, .zero n => some (.zero (if m == n then m else code == 2))
  | .zero _, b => some b
  | a, .zero _ => some a
  | .fin x, .fin y => some (if x + y = 0 then .zero (code == 2) else .fin (x + y))

/-- An operation whose exact result is `v`, none where it is invalid, on some operands (R82). -/
def Fmt.deliver (f : Fmt) (ftz : Bool) (code : Nat) (operands : List FVal) (v : Option FVal) : FRes :=
  let snan := operands.any (·.signalling)
  let nan := operands.any (·.isNan)
  match v with
  | some v => if nan then ⟨f.nanBits, Ev.invalid snan, 0⟩ else f.encode ftz code 0 0 v
  | none => ⟨f.nanBits, Ev.invalid snan, 0⟩

def Fmt.addBits (f : Fmt) (ftz : Bool) (code a b : Nat) : FRes :=
  let x := f.decode ftz a
  let y := f.decode ftz b
  let v := x.add code y
  let r := f.deliver ftz code [x, y] v
  if v.isNone && !x.isNan && !y.isNan then { r with ev := Ev.invalid true } else r

def Fmt.negBits (f : Fmt) (a : Nat) : Nat := a ^^^ f.signBit

def Fmt.subBits (f : Fmt) (ftz : Bool) (code a b : Nat) : FRes :=
  let x := f.decode ftz a
  let y := f.decode ftz b
  let v := x.add code y.neg
  let r := f.deliver ftz code [x, y] v
  if v.isNone && !x.isNan && !y.isNan then { r with ev := Ev.invalid true } else r

def Fmt.mulBits (f : Fmt) (ftz : Bool) (code a b : Nat) : FRes :=
  let x := f.decode ftz a
  let y := f.decode ftz b
  let v := x.mul y
  let r := f.deliver ftz code [x, y] v
  if v.isNone && !x.isNan && !y.isNan then { r with ev := Ev.invalid true } else r

/-- a x b + c, or a x b - c, rounded once. -/
def Fmt.fmaBits (f : Fmt) (ftz : Bool) (code : Nat) (sub : Bool) (a b c : Nat) : FRes :=
  let x := f.decode ftz a
  let y := f.decode ftz b
  let z := f.decode ftz c
  let p := x.mul y
  let v := p.bind fun p => p.add code (if sub then z.neg else z)
  let r := f.deliver ftz code [x, y, z] v
  let badProduct := p.isNone && !x.isNan && !y.isNan
  let badSum := p.isSome && v.isNone && !z.isNan
  if badProduct || badSum then { r with ev := Ev.invalid true } else r

/-- a is less than b: ordered values, -0 below +0 (R84). -/
def FVal.below (a b : FVal) : Bool :=
  match a, b with
  | .nan _, _ => false
  | _, .nan _ => false
  | .inf true, .inf true => false
  | .inf true, _ => true
  | _, .inf true => false
  | .inf false, _ => false
  | _, .inf false => true
  | .zero m, .zero n => m && !n
  | .zero _, .fin y => decide (0 < y)
  | .fin x, .zero _ => decide (x < 0)
  | .fin x, .fin y => decide (x < y)

/-- minimumNumber, or maximumNumber (R84). -/
def Fmt.minMax (f : Fmt) (ftz isMax : Bool) (a b : Nat) : FRes :=
  let x := f.decode ftz a
  let y := f.decode ftz b
  let v := if x.isNan then y else if y.isNan then x
    else if (if isMax then x.below y else y.below x) then y else x
  { f.encode false 0 0 0 v with ev := Ev.invalid (x.signalling || y.signalling) }

/-- The sign operations (R85). -/
def Fmt.signOp (f : Fmt) (op a : Nat) : Nat :=
  let m := a % f.signBit
  if op = 0 then m else if op = 1 then a % (2 * f.signBit) ^^^ f.signBit else m + f.signBit

/-- The condition of a compare and whether it raises invalid (R113). -/
def Fmt.compare (f : Fmt) (ftz : Bool) (cond a b : Nat) : Bool × Bool :=
  let x := f.decode ftz a
  let y := f.decode ftz b
  let un := x.isNan || y.isNan
  let zeros := match x, y with | .zero _, .zero _ => true | _, _ => false
  let lt := !zeros && x.below y
  let gt := !zeros && y.below x
  let snan := x.signalling || y.signalling
  match cond with
  | 0 => (!un && !lt && !gt, snan)
  | 1 => (un || lt || gt, snan)
  | 2 => (lt, un)
  | 3 => (!un && !gt, un)
  | 4 => (gt, un)
  | 5 => (!un && !lt, un)
  | 6 => (un, snan)
  | _ => (!un, snan)

/-! ### Roots and transcendental functions (R86, R87) -/

/-- The integer square root by Newton's method from above. -/
def isqrtStep (n : Nat) : Nat → Nat → Nat
  | 0, r => r
  | k + 1, r =>
    let t := (r + n / r) / 2
    if t < r then isqrtStep n k t else r

def isqrt (n : Nat) : Nat := if n = 0 then 0 else isqrtStep n 64 (2 ^ (Nat.log2 n / 2 + 1))

/-- The square root of a positive rational: exact, or a value between the same two multiples of 2^-k as the root. -/
def sqrtNear (k : Nat) (x : Rat) : Rat :=
  let y := x * ((4 ^ k : Nat) : Rat)
  let r := isqrt y.floor.toNat
  if ((r * r : Nat) : Rat) = y then mkRat r (2 ^ k) else mkRat (2 * r + 1) (2 ^ (k + 1))

/-- floor(ln 2 x 2^384) and floor(pi x 2^896). -/
def ln2Fixed : Nat :=
  0xb17217f7d1cf79abc9e3b39803f2f6af40f343267298b62d8a0d175b8baafa2be7b876206debac98559552fb4afa1b10
def piFixed : Nat :=
  0x3243f6a8885a308d313198a2e03707344a4093822299f31d0082efa98ec4e6c89452821e638d01377be5466cf34e90c6cc0ac29b7c97c50dd3f84d5b5b54709179216d5d98979fb1bd1310ba698dfb5ac2ffd72dbd01adfb7b8e1afed6a267e96ba7c9045f12c7f9924a19947b3916cf7

/-- The sum of t^i / i! from the i-th term on, in units of 2^-384. -/
def expSeries (t : Nat) : Nat → Nat → Nat → Nat
  | 0, _, _ => 0
  | fuel + 1, i, term => term + expSeries t fuel (i + 1) (term * t / 2 ^ 384 / (i + 1))

/-- 2^a, to within 2^-370 of its binade (log entry 10). -/
def exp2Near (a : Rat) : Rat :=
  let n := a.floor
  let f := ((a - n) * ((2 ^ 384 : Nat) : Rat)).floor.toNat
  mkRat (expSeries (f * ln2Fixed / 2 ^ 384) 100 0 (2 ^ 384)) (2 ^ 384) * pow2 n

/-- The sum of y^(2i+1) / (2i+1) from the i-th term on, in units of 2^-384. -/
def atanhSeries (y2 : Nat) : Nat → Nat → Nat → Nat
  | 0, _, _ => 0
  | fuel + 1, i, power => power / (2 * i + 1) + atanhSeries y2 fuel (i + 1) (power * y2 / 2 ^ 384)

/-- The base-2 logarithm of a positive rational, to within 2^-370 (log entry 10). -/
def log2Near (a : Rat) : Rat :=
  let e := ilog2 a
  let m := a * pow2 (-e)
  let y := ((m - 1) / (m + 1) * ((2 ^ 384 : Nat) : Rat)).floor.toNat
  (e : Rat) + mkRat (2 * atanhSeries (y * y / 2 ^ 384) 128 0 y) ln2Fixed

/-- An alternating series: terms r^k/k! for k, k + 2, ... with alternating signs, in units of 2^-768. -/
def sinSeries (r2 : Nat) : Nat → Nat → Nat → Int
  | 0, _, _ => 0
  | fuel + 1, k, term => (term : Int) - sinSeries r2 fuel (k + 2) (term * r2 / 2 ^ 768 / ((k + 1) * (k + 2)))

/-- sin (a + quarter x pi/2), to within 2^-740 (log entry 10); the reduction of a is exact to 2^-760. -/
def sinNear (a : Rat) (quarter : Nat) : Rat :=
  let n := (a * ((2 ^ 897 : Nat) : Rat) / (piFixed : Rat) + 1 / 2).floor
  let r := ((a * ((2 ^ 897 : Nat) : Rat) - ((n * piFixed : Int) : Rat)) / ((2 ^ 129 : Nat) : Rat)).floor
  let r2 := r.natAbs * r.natAbs / 2 ^ 768
  let s := sinSeries r2 80 1 r.natAbs
  let s := if r < 0 then -s else s
  let c := sinSeries r2 80 0 (2 ^ 768)
  let v := match ((n + quarter) % 4).toNat with
    | 0 => s
    | 1 => c
    | 2 => -s
    | _ => -c
  mkRat v (2 ^ 768)

/-- The FS functions and the two square roots; 7 is FRINT (R86). -/
inductive FFun where
  | rcp | rsq | sqrt | ex2 | lg2 | sin | cos | rint
deriving DecidableEq, Repr, Inhabited

/-- Special operands of R87: the result and its exceptions; none where the function is computed. -/
def FFun.special (h : FFun) (v : FVal) : Option (FVal × Ev) :=
  let nan : Option (FVal × Ev) := some (.nan false, { iv := 1 })
  match v with
  | .nan s => some (.nan false, Ev.invalid s)
  | .inf n =>
    match h with
    | .rcp => some (.zero n, {})
    | .rsq => if n then nan else some (.zero false, {})
    | .sqrt => if n then nan else some (.inf false, {})
    | .ex2 => some (if n then .zero false else .inf false, {})
    | .lg2 => if n then nan else some (.inf false, {})
    | .sin => nan
    | .cos => nan
    | .rint => some (.inf n, {})
  | .zero n =>
    match h with
    | .rcp => some (.inf n, { dz := 1 })
    | .rsq => some (.inf n, { dz := 1 })
    | .sqrt => some (.zero n, {})
    | .ex2 => some (.fin 1, {})
    | .lg2 => some (.inf true, { dz := 1 })
    | .sin => some (.zero n, {})
    | .cos => some (.fin 1, {})
    | .rint => some (.zero n, {})
  | .fin x =>
    match h with
    | .rsq => if x < 0 then nan else none
    | .sqrt => if x < 0 then nan else none
    | .lg2 => if x < 0 then nan else none
    | _ => none

/-- The value that a function rounds, for a finite operand that is no special one. -/
def FFun.value (h : FFun) (k : Nat) (x : Rat) : FVal :=
  match h with
  | .rcp => .fin (1 / x)
  | .rsq => .fin (sqrtNear k (1 / x))
  | .sqrt => .fin (sqrtNear k x)
  | .ex2 =>
    if x.den = 1 && decide (-400 < x) && decide (x < 400) then .fin (pow2 x.num)
    else .fin (if x < -400 then pow2 (-400) else if 400 < x then pow2 400 else exp2Near x)
  | .lg2 =>
    let v := if x = pow2 (ilog2 x) then (ilog2 x : Rat) else log2Near x
    if v = 0 then .zero false else .fin v
  | .sin => .fin (sinNear x 0)
  | .cos => .fin (sinNear x 1)
  | .rint => .fin x

/-- The generator after an element that its destination cannot represent, and whose result needs no draw: under RS it steps once
(R68; DEDUCED, log entry 17). -/
def spendGen (code : Nat) (gen : Word) : Word := if code = 5 then (stepGen gen).2 else gen

/-- A magnitude rounded to an integer (R67, R68). -/
def roundInt (code : Nat) (gen : Word) (x : Rat) : Int × Word :=
  let neg := decide (x < 0)
  let a := if x < 0 then -x else x
  let n := a.floor.toNat
  let frac := a - n
  let (draw, gen) := if code = 5 && frac != 0 then stepGen gen else (0, gen)
  let m : Int := n + (roundsUp code neg n frac draw).toNat
  (if neg then -m else m, gen)

/-- A function of one operand in a format (R86 to R88). Only a square root raises inexact. -/
def Fmt.funBits (f : Fmt) (h : FFun) (ftz : Bool) (code a : Nat) : FRes :=
  let v := f.decode ftz a
  match h.special v with
  | some (r, ev) => { f.encode ftz 0 0 0 r with ev := ev }
  | none =>
    match v with
    | .fin x =>
      match h with
      | .sqrt => f.encode ftz code 0 0 (h.value 700 x)
      | .rint =>
        let t := (roundInt code 0 x).1
        f.encode ftz code 0 0 (if t = 0 then .zero (decide (x < 0)) else .fin t)
      | _ =>
        let r := f.encode ftz 0 0 0 (h.value 700 x)
        { r with ev := { r.ev with nx := 0 } }
    | _ => ⟨f.nanBits, {}, 0⟩

/-! ### Conversions (R60, R64, R65, R90 to R94) -/

/-- From one IEEE format to another (R92). -/
def convertBits (src dst : Fmt) (ftz : Bool) (code sat : Nat) (gen : Word) (a : Nat) : FRes :=
  let v := src.decode ftz a
  let r := dst.encode ftz code sat gen v
  if v.isNan then { r with ev := Ev.invalid v.signalling } else r

/-- An integer to a format (R92). -/
def Fmt.ofInt (f : Fmt) (ftz : Bool) (code : Nat) (gen : Word) (x : Int) : FRes :=
  if x = 0 then ⟨0, {}, gen⟩ else f.round ftz code 0 gen x

/-- To an integer of n bits, signed or natural (R91). -/
def Fmt.toInt (f : Fmt) (n : Nat) (signed : Bool) (ftz : Bool) (code sat : Nat) (gen : Word) (a : Nat) : FRes :=
  let lo : Int := if signed then -(2 ^ (n - 1)) else 0
  let hi : Int := if signed then 2 ^ (n - 1) - 1 else 2 ^ n - 1
  let out (t : Int) (clamped : Bool) (gen : Word) : FRes :=
    ⟨(t % 2 ^ n).toNat, { clamp := if clamped && sat == 1 then 1 else 0 }, gen⟩
  match f.decode ftz a with
  | .nan _ => out 0 true gen
  | .inf neg => out (if neg then lo else hi) true (spendGen code gen)
  | .zero _ => out 0 false gen
  | .fin x =>
    let (t, gen) := roundInt code gen x
    let gen := if (t : Rat) = x && (decide (t < lo) || decide (hi < t)) then spendGen code gen else gen
    if t < lo then out lo true gen else if hi < t then out hi true gen else out t false gen

/-- The magnitude of a Bend8 body (R62). -/
def bendMag (b : Nat) : Rat :=
  if b = 0 then 0
  else if b = 1 then mkRat 1 128
  else
    let z := 6 - Nat.log2 b
    let w := 5 - z
    let frac := b % 2 ^ w
    let e : Int := if b.testBit w then -(z + 1) else z
    pow2 e * (1 + mkRat frac (2 ^ w))

/-- The value of a Bend8 byte: none for NaR (R62, R65). -/
def bendValue (byte : Nat) : Option Rat :=
  if byte % 256 = 128 then none
  else some (if byte.testBit 7 then -bendMag (byte % 128) else bendMag (byte % 128))

/-- A Bend8 byte widened to binary32 (R65). -/
def bendBits (f : Fmt) (byte : Nat) : Nat :=
  match bendValue byte with
  | none => f.nanBits
  | some x => if x = 0 then 0 else (f.round false 0 0 0 x).bits

/-- The bodies next to a magnitude of at most 32, from below and from above. -/
def bendNeighbours (a : Rat) : Nat × Nat :=
  (List.range 128).foldl (fun (lo, hi) b =>
    let m := bendMag b
    (if m ≤ a && decide (bendMag lo ≤ m) then b else lo, if a ≤ m && decide (m ≤ bendMag hi) then b else hi)) (0, 2)

/-- A magnitude of at most 32 rounded to a body (R64). `tie` decides a tie between two odd bodies, which R64 leaves open (log entry
16). -/
def bendRound (code : Nat) (neg : Bool) (gen : Word) (tie : Bool) (a : Rat) : Nat × Word :=
  let (lo, hi) := bendNeighbours a
  if lo = hi then (lo, gen)
  else
    let frac := (a - bendMag lo) / (bendMag hi - bendMag lo)
    let (draw, gen) := if code = 5 then stepGen gen else (0, gen)
    let up := if code = 0 && frac == 1 / 2 then (if lo % 2 = 0 then false else if hi % 2 = 0 then true else tie)
      else roundsUp code neg 0 frac draw
    (if up then hi else lo, gen)

/-- A value converted to a Bend8 byte under a MODE, and whether it overflowed (R64, R68, R73). -/
def bendOf (mode : Dword) (code sat : Nat) (gen : Word) (v : FVal) : FRes × Bool :=
  let excess (neg : Bool) : FRes × Bool :=
    if sat = 1 then (⟨128, { nr := 1 }, spendGen code gen⟩, true)
    else (⟨2 + (if neg then 128 else 0), { clamp := 1 }, spendGen code gen⟩, true)
  match v with
  | .nan _ => (⟨128, { nr := 1 }, gen⟩, false)
  | .inf neg => excess neg
  | .zero _ => (⟨0, {}, gen⟩, false)
  | .fin x =>
    let neg := decide (x < 0)
    let a := if x < 0 then -x else x
    if 32 < a then excess neg
    else
      let (b, gen) := bendRound code neg gen (Config.bendTie mode gen neg) a
      (⟨if b = 0 then 0 else b + (if neg then 128 else 0), {}, gen⟩, false)

end Sys2Proof.Machine
end

