-- ==== Sys2Proof/Machine/Flags.lean ====
section
/-! DEFINITION. MODE and its fields, the generators, the event counters and FP_TRAP (R69 to R77), and the shape of an
instruction that computes on floating-point values. -/

namespace Sys2Proof.Machine

/-! ### MODE (R70, R72) -/

/-- A field of MODE. -/
def modeField (m : Dword) (lo n : Nat) : Nat := m.toNat / 2 ^ lo % 2 ^ n

def arnd (m : Dword) : Nat := modeField m 0 2
def ftz (m : Dword) : Bool := m.getLsbD 2

/-- A conversion's rounding code and saturation fields in MODE: where they start. -/
structure ConvField where
  round : Nat
  sat : Nat
deriving DecidableEq, Repr, Inhabited

def convHalf : ConvField := ⟨4, 7⟩
def convBf : ConvField := ⟨9, 12⟩
def convBend : ConvField := ⟨14, 17⟩
def convInt : ConvField := ⟨19, 22⟩
def convSingle : ConvField := ⟨24, 27⟩

/-- A three-bit rounding code as MODEW stores it: a reserved one is 000 (R72). -/
def storedRound (m : Dword) (c : ConvField) : Nat :=
  let r := modeField m c.round 3
  if r < 6 then r else 0

/-- A saturation field as MODEW stores it, with `n` defined values (R72, R73). -/
def storedSat (m : Dword) (c : ConvField) (n : Nat) : Nat :=
  let v := modeField m c.sat 2
  if v < n then v else 0

/-- MODE as MODEW stores it (R72). -/
def storedMode (m : Dword) : Dword :=
  let field (c : ConvField) (n : Nat) : Nat := storedRound m c * 2 ^ c.round + storedSat m c n * 2 ^ c.sat
  BitVec.ofNat 64 (modeField m 0 3 + field convHalf 2 + field convBf 2 + field convBend 3 + field convInt 2
    + field convSingle 2 + modeField m 29 7 * 2 ^ 29)

/-- The rounding code of arithmetic: ARND, or MOD's (R74). -/
def Issue.arith (i : Issue) (m : Dword) : Nat :=
  match i.front.hints.mod with
  | some h => if modRoundOn h then modRound h else arnd m
  | none => arnd m

/-- The rounding code of a conversion (R74). -/
def Issue.convRound (i : Issue) (m : Dword) (c : ConvField) : Nat :=
  match i.front.hints.mod with
  | some h => if modRoundOn h then modRound h else modeField m c.round 3
  | none => modeField m c.round 3

/-- The saturation of a conversion (R74). -/
def Issue.convSat (i : Issue) (m : Dword) (c : ConvField) : Nat :=
  match i.front.hints.mod with
  | some h => if modSatOn h then modSat h else modeField m c.sat 2
  | none => modeField m c.sat 2

/-! ### Generators (R69) -/

/-- The state that a lane's generator starts in. -/
def laneSeed (seed : Word) (lane : Nat) : Word :=
  let s := if seed = 0 then 0xFFFFFFFF else seed
  let g := s ^^^ BitVec.ofNat 32 lane
  if g = 0 then 0xFFFFFFFF else g

/-- The generator of a lane, or of a lead or run. -/
def State.gen (s : State) (i : Issue) (lane : Nat) : Word :=
  match i.kind with
  | .group => match s.unit i.core i.unit with
    | some r => (SMap.find r.lanes.gens lane).getD (laneSeed 0 lane)
    | none => 0
  | _ => (s.scalar i).gen

/-- Stores a lane's generator; one that holds its start is not listed. -/
def putGen (gens : SMap Word) (lane : Nat) (g : Word) : SMap Word :=
  if g = laneSeed 0 lane then SMap.drop gens lane else SMap.put gens lane g

/-- Stores the generator of a lane, or of a lead or run. -/
def State.setGen (s : State) (i : Issue) (lane : Nat) (g : Word) : State :=
  if s.gen i lane = g then s
  else match i.kind with
    | .group => s.modUnit i.core i.unit fun r => { r with lanes := { r.lanes with gens := putGen r.lanes.gens lane g } }
    | _ => s.modScalar i fun k => { k with gen := g }

/-! ### Events (R76, R77) -/

/-- Adds to an event counter, which stops at its top (R76). -/
def bumpEvc (evc : SMap Word) (k n : Nat) : SMap Word :=
  if n = 0 then evc else SMap.setWord evc k (BitVec.ofNat 32 (min ((SMap.word evc k).toNat + n) 0xFFFFFFFF))

/-- Counts events on a core (R76). -/
def State.count (s : State) (c : Nat) (e : Ev) : State :=
  s.modCore c fun k => { k with
    evc := bumpEvc (bumpEvc (bumpEvc (bumpEvc (bumpEvc (bumpEvc (bumpEvc (bumpEvc k.evc 0 e.iv) 1 e.dz) 2 e.of) 3 e.uf)
      4 e.nr) 5 e.outlier) 6 e.clamp) 7 e.lo }

/-- An event of an element is enabled in MODE (R70, R77). -/
def Ev.enabled (e : Ev) (m : Dword) : Bool :=
  (m.getLsbD 29 && e.iv != 0) || (m.getLsbD 30 && e.dz != 0) || (m.getLsbD 31 && e.of != 0) || (m.getLsbD 32 && e.uf != 0)
    || (m.getLsbD 33 && e.nx != 0) || (m.getLsbD 34 && e.lo != 0) || (m.getLsbD 35 && e.nr != 0)

/-- TINFO of FP_TRAP (R77). -/
def Ev.info (e : Ev) : Nat :=
  (e.iv != 0).toNat + 2 * (e.dz != 0).toNat + 4 * (e.of != 0).toNat + 8 * (e.uf != 0).toNat + 16 * (e.nx != 0).toNat
    + 32 * (e.nr != 0).toNat + 64 * (e.lo != 0).toNat

/-- The events of several elements. -/
def Ev.sum (l : List Ev) : Ev := l.foldl Ev.add {}

/-- The end of an instruction that raised events, lane by lane: FP_TRAP from the state before the unit, or the events
counted and the rest of its effect (R76, R77). -/
def State.withEvents (s0 s : State) (i : Issue) (evs : List (Nat × Ev)) (k : State → Eff) : Eff :=
  let m := s0.modeOf i
  let all := Ev.sum (evs.map (·.2))
  let hit := evs.filter fun x => x.2.enabled m
  if hit.isEmpty then k (s.count i.core all)
  else .trap ⟨Cause.fpTrap, hit.foldl (fun w x => w ||| laneBit x.1) 0, 0, BitVec.ofNat 64 all.info⟩ s0

/-- As `withEvents`, for an instruction whose events belong to every active lane (R78, R121). -/
def State.withNodeEvents (s0 s : State) (i : Issue) (e : Ev) (k : State → Eff) : Eff :=
  if e.enabled (s0.modeOf i) then .trap ⟨Cause.fpTrap, i.active, 0, BitVec.ofNat 64 e.info⟩ s0 else k (s.count i.core e)

/-! ### Instructions on floating-point values (R81) -/

/-- What an element computation reads besides its operands. -/
structure FpIn where
  i : Issue
  mode : Dword
  gen : Word

/-- What a lane of an instruction computes. -/
structure FpOut where
  value : Dword
  ev : Ev
  gen : Word

/-- A lane's result from one element's. -/
def FRes.out (r : FRes) (x : FpIn) : FpOut := ⟨BitVec.ofNat 64 r.bits, r.ev, x.gen⟩

/-- A lane's result from one element's, generator included. -/
def FRes.drawn (r : FRes) : FpOut := ⟨BitVec.ofNat 64 r.bits, r.ev, r.gen⟩

/-- The checks, operands, events, traps and results of a floating-point instruction (R77, R81). -/
def State.fpCompute (s : State) (i : Issue) (info : Nat) (dst : Cls × RegField) (srcs : List (Cls × RegField))
    (f : FpIn → (Nat → Dword) → FpOut) : Eff :=
  if !(i.regOk true dst.1 dst.2) || !(srcs.all fun x => i.regOk false x.1 x.2) then i.illegal info s
  else
    match s.operands i srcs [dst.2] with
    | .stop e => e
    | .ok vals t =>
      let m := s.modeOf i
      let lanes := lanesOf i.active
      let outs : SMap FpOut := lanes.map fun l =>
        (l, f ⟨i, m, s.gen i l⟩ fun k => nth vals k l)
      s.withEvents t i (outs.map fun x => (x.1, x.2.ev)) fun t =>
        let t := outs.foldl (fun t x => t.setGen i x.1 x.2.gen) t
        s.result t i dst.1 dst.2 fun l => match SMap.find outs l with
          | some o => o.value
          | none => 0

/-- The shape of an instruction of the families of R81. -/
def fpUnit (t : Attr) (g : GuardField) (dst : Cls × RegField) (srcs : Issue → List (Cls × RegField))
    (f : FpIn → (Nat → Dword) → FpOut) (s : State) : Host.Outcome State Fault Refusal :=
  runUnit t g (fun i s => s.fpCompute i 0 dst (srcs i) f) s

end Sys2Proof.Machine
end

