-- ==== Sys2Proof/Machine/Address.lean ====
section
/-! DEFINITION. Local, cluster and unified addresses, and the loads, stores and atomics that a unit's lanes make at them (R172
to R183, R190 to R195). -/

namespace Sys2Proof.Machine

/-- The space that an address is read in. -/
inductive Space where
  | local | cluster | unified
deriving DecidableEq, Repr, Inhabited

/-- The core that CX, CY name, counted from the north-west core of the context's part of a core's physical cluster (R176,
R177). -/
def State.clusterCore (s : State) (ctx core cx cy : Nat) : Option Nat :=
  match s.context ctx with
  | none => none
  | some x =>
    let bx := coreX core / 8 * 8
    let by' := coreY core / 12 * 12
    let X := max x.x bx + cx
    let Y := max x.y by' + cy
    if cy < 12 && decide (X < bx + 8) && decide (Y < by' + 12) && decide (X < x.x + x.record.rw) && decide (Y < x.y + x.record.rh)
    then some (Y * 48 + X) else none

/-- The core and offset of an address that a core of a context uses, without the checks of its offset; none where it names
no core. -/
def State.locateFrom (s : State) (ctx core : Nat) (p : Space) (a : Nat) : Option (Nat × Nat) :=
  let cluster : Option (Nat × Nat) :=
    if a / 2 ^ 27 % 32 = 0 then (s.clusterCore ctx core (a / 2 ^ 20 % 8) (a / 2 ^ 23 % 16)).map fun c => (c, a % 2 ^ 20)
    else none
  match p with
  | .local => some (core, a % 2 ^ 32)
  | .cluster => cluster
  | .unified => if a / 2 ^ 20 % 2 ^ 12 = 0x800 then some (core, a % 2 ^ 20) else cluster

def State.locate (s : State) (i : Issue) (p : Space) (a : Nat) : Option (Nat × Nat) := s.locateFrom i.ctx i.core p a

/-- The core and local address of an access of n bytes, or the cause that it takes (R175, R177, R178). -/
def State.resolve (s : State) (i : Issue) (p : Space) (a n : Nat) : Except Nat (Nat × Nat) :=
  match s.locate i p a with
  | none => .error Cause.clusterAddr
  | some (c, off) =>
    if !i.window.holds off n then .error Cause.lsBound
    else if off % n ≠ 0 then .error Cause.misalign
    else .ok (c, off)

/-- One lane's access: lane, the address that TADDR would show, and where it goes. -/
abbrev LaneAccess := Nat × Dword × Except Nat (Nat × Nat)

/-- The lanes that fail with a cause. -/
def failing (l : List LaneAccess) (cause : Nat) : List LaneAccess :=
  l.filter fun x => match x.2.2 with
    | .error c => c == cause
    | .ok _ => false

/-- The trap of a unit's address checks: the first cause that any lane fails (R195). -/
def Issue.addressTrap (i : Issue) (l : List LaneAccess) : Option TrapRec :=
  let one (cause : Nat) : Option TrapRec :=
    match failing l cause with
    | [] => none
    | x :: r => some ⟨cause, if i.kind == .group then (x :: r).foldl (fun m y => m ||| laneBit y.1) 0 else 0, x.2.1, 0⟩
  match one Cause.clusterAddr with
  | some t => some t
  | none => match one Cause.lsBound with
    | some t => some t
    | none => one Cause.misalign

/-- A lane's resolved access. -/
structure Target where
  lane : Nat
  core : Nat
  off : Nat
  /-- The address as the program wrote it. -/
  addr : Dword
deriving DecidableEq, Repr, Inhabited

/-- The accesses that passed their checks. -/
def targets (l : List LaneAccess) : List Target :=
  l.filterMap fun x => match x.2.2 with
    | .ok (c, off) => some ⟨x.1, c, off, x.2.1⟩
    | .error _ => none

/-- The active lanes' accesses at addresses of a space. -/
def State.accesses (s : State) (i : Issue) (p : Space) (n : Nat) (a : Nat → Dword) : List LaneAccess :=
  (lanesOf i.active).map fun l => (l, a l, s.resolve i p (a l).toNat n)

/-! ### Loads -/

/-- How a unit's accesses stand. -/
inductive Access (α : Type) where
  | ready (v : α) (s : State)
  | waiting (s : State)
  | refused (t : TrapRec) (s : State)

/-- The key of a line of another core in the cluster cache (R191). -/
def lineKey (home line : Nat) : Nat := home * 16384 + line

/-- A trap of one page's refusal, for the lanes that access it (R223). -/
def Issue.pageTrap (i : Issue) (cause : Nat) (ts : List Target) (page : Nat) (core : Nat) : TrapRec :=
  let hit := ts.filter fun t => t.core == core && t.off / 4096 == page
  ⟨cause, if i.kind == .group then hit.foldl (fun m t => m ||| laneBit t.lane) 0 else 0, (hit.head?.map (·.addr)).getD 0, 0⟩

/-- The local accesses' pages: ready, refused or awaited (R220, R223). -/
def State.localPages (s : State) (i : Issue) (ts : List Target) : Access Unit :=
  match s.pages i.core i.ctx ((ts.filter (·.core == i.core)).map (·.off)) (some i.waiter) with
  | .ready => .ready () s
  | .refused a cause s => .refused (i.pageTrap cause ts (a / 4096) i.core) s
  | .waiting s => .waiting s

/-- One lane's load of n bytes: served locally, from a lease that still holds, or missing (R191). -/
def State.loadLane (s : State) (i : Issue) (n : Nat) (t : Target) : Option (Nat × State) :=
  if t.core = i.core then some (s.loadLocal i.agent i.core t.off n)
  else
    let p := (s.core i.core).cluster
    match SMap.find p.cache (lineKey t.core (t.off / 64)) with
    | some l =>
      if l.refused.isNone && decide (max p.clock l.wts ≤ l.rts) then
        some (natOfBytes ((l.bytes.drop (t.off % 64)).take n), s.raiseClock i.core l.wts)
      else none
    | none => none

/-- The loads of a unit in lane order, and the lines that are missing. -/
def State.loadEach (s : State) (i : Issue) (n : Nat) : List Target → SMap Nat × List (Nat × Nat) × State
  | [] => ([], [], s)
  | t :: r =>
    match s.loadLane i n t with
    | some (v, s) =>
      let (vs, miss, s) := s.loadEach i n r
      ((t.lane, v) :: vs, miss, s)
    | none =>
      let (vs, miss, s) := s.loadEach i n r
      (vs, if miss.contains (t.core, t.off / 64) then miss else (t.core, t.off / 64) :: miss, s)

/-- Asks a home to renew a line, once (R191). -/
def State.askLine (s : State) (c home line : Nat) : State :=
  let p := (s.core c).cluster
  if p.asked.contains (home, line) then s
  else ((s.ahead c .req).modCluster c fun p => { p with asked := (home, line) :: p.asked }).send c home .req (.renew line p.clock)

/-- A line whose page its home could not translate, among those a unit reads (R223). -/
def State.refusedLine (s : State) (i : Issue) (ts : List Target) : Option (Nat × Target) :=
  ts.findSome? fun t =>
    if t.core = i.core then none
    else match SMap.find (s.core i.core).cluster.cache (lineKey t.core (t.off / 64)) with
      | some l => if l.takers.contains i.waiter then l.refused.map fun cause => (cause, t) else none
      | none => none

/-- A waiting load takes the refusal of its line. -/
def State.tookLine (s : State) (i : Issue) (key : Nat) : State :=
  s.modCluster i.core fun p => { p with cache := SMap.alter p.cache key fun l => { l with takers := l.takers.erase i.waiter } }

/-- A load waits for a line: it asks for it, and is told of a refusal (R191, R223). -/
def State.awaitLine (s : State) (i : Issue) (home line : Nat) : State :=
  (s.askLine i.core home line).modCluster i.core fun p =>
    if p.readers.contains (lineKey home line, i.waiter) then p else { p with readers := (lineKey home line, i.waiter) :: p.readers }

/-- The loads of a unit: performed together, or awaited with the missing pages and lines asked for. -/
def State.loadLanes (s : State) (i : Issue) (n : Nat) (ts : List Target) : Access (SMap Nat) :=
  match s.localPages i ts with
  | .refused t s => .refused t s
  | .waiting s => .waiting s
  | .ready _ _ =>
    match s.refusedLine i ts with
    | some (cause, t) =>
      .refused (i.pageTrap cause ts (t.off / 4096) t.core)
        (s.tookLine i (lineKey t.core (t.off / 64)))
    | none =>
      match s.loadEach i n ts with
      | (vs, [], t) => .ready vs t
      | (_, miss, _) => .waiting (miss.foldl (fun s x => s.awaitLine i x.1 x.2) s)

/-! ### Stores and atomics -/

/-- The unit that a reply names. -/
def Issue.asker (i : Issue) (id : Nat) : Asker := ⟨i.core, i.who, id, i.gen, i.agent⟩

/-- A fresh name for a unit of a core that awaits something. -/
def State.newId (s : State) (c : Nat) : Nat × State :=
  ((s.core c).nextId, s.modCore c fun k => { k with nextId := k.nextId + 1 })

/-- A unit has sent n stores or atomics to other cores (R183). -/
def State.sentStores (s : State) (i : Issue) (id n : Nat) : State := if n = 0 then s else s.sent i ⟨id, i.start, i.lanes, n, n, [], 0⟩

/-- The distinct homes and lines of targets on other cores, in lane order. -/
def remoteLines (c : Nat) : List Target → List (Nat × Nat)
  | [] => []
  | t :: r =>
    let more := remoteLines c r
    if t.core = c then more
    else (t.core, t.off / 64) :: more.filter fun x => x != (t.core, t.off / 64)

/-- The bytes that a unit stores to one line. -/
def lineWrites (ts : List Target) (n : Nat) (v : Nat → Nat) (x : Nat × Nat) : List (Nat × Byte) :=
  (ts.filter fun t => t.core == x.1 && t.off / 64 == x.2).flatMap fun t =>
    (bytesOfNat (v t.lane) n).zipIdx.map fun (b, j) => (t.off + j, b)

/-- The stores of a unit: local ones, and those to lines that the core owns, at once in lane order; others as one message for
each line (R181, R182, R192). -/
def State.storeLanes (s : State) (i : Issue) (n : Nat) (ts : List Target) (v : Nat → Nat) : Access Unit :=
  match s.localPages i ts with
  | .refused t s => .refused t s
  | .waiting s => .waiting s
  | .ready _ _ =>
    let s := (ts.filter (·.core == i.core)).foldl (fun s t => s.storeLocal i.agent i.core t.off n (v t.lane)) s
    let lines := remoteLines i.core ts
    let (id, s) := s.newId i.core
    let asker : Asker := i.asker id
    let owned := lines.filter fun x => s.owns i.ctx i.core x.1 x.2
    let others := lines.filter fun x => !owned.contains x
    let s := owned.foldl (fun s x =>
      let s := s.storeBytes i.agent x.1 x.2 (lineWrites ts n v x) (s.core i.core).cluster.clock
      (s.raiseClock i.core ((s.core x.1).cluster.home x.2).wts).setOwner x.1 x.2 (some i.core)) s
    let s := others.foldl (fun s x =>
      (s.ahead i.core .req).send i.core x.1 .req (.store (lineWrites ts n v x) (s.core i.core).cluster.clock asker)) s
    .ready () (s.sentStores i id others.length)

/-- The update of an atomic (R197, R198). -/
def AtomicOp.apply (op : AtomicOp) (old b : Word) : Word :=
  match op with
  | .add => old + b
  | .min => if b.toInt < old.toInt then b else old
  | .max => if old.toInt < b.toInt then b else old
  | .and => old &&& b
  | .or => old ||| b
  | .xor => old ^^^ b
  | .xchg => b
  | .fadd => BitVec.ofNat 32 (f32.addBits false 0 old.toNat b.toNat).bits
  | .cas expected => if old = expected then b else old

/-- One atomic at its home, at a logical time: the value replaced, and the state after (R181, R192). -/
def State.atomicAt (s : State) (g : Agent) (c off : Nat) (op : AtomicOp) (b : Word) (t : Nat) : Word × State :=
  let old : Word := BitVec.ofNat 32 (natOfBytes (s.localBytes c g.ctx off 4))
  (old, s.storeAt g c off (bytesOfNat (op.apply old b).toNat 4) t)

/-- The distinct cores of targets elsewhere, in lane order. -/
def remoteCores (c : Nat) : List Target → List Nat
  | [] => []
  | t :: r => if t.core = c then remoteCores c r else t.core :: (remoteCores c r).filter (· ≠ t.core)

/-- The atomics of a unit: local ones at once in lane order, the others as one message for each home (R182, R183); the
values replaced locally. -/
def State.atomicLanes (s : State) (i : Issue) (ts : List Target) (op : Nat → AtomicOp) (b : Nat → Word) (reply : Bool) (id : Nat) :
    Access (SMap Dword) :=
  match s.localPages i ts with
  | .refused t s => .refused t s
  | .waiting s => .waiting s
  | .ready _ _ =>
    let (olds, s) := (ts.filter (·.core == i.core)).foldl (fun (acc : SMap Dword × State) t =>
      let s := acc.2
      let (old, s) := s.atomicAt i.agent i.core t.off (op t.lane) (b t.lane) (s.core i.core).cluster.clock
      let s := s.raiseClock i.core ((s.core i.core).cluster.home (t.off / 64)).wts
      (acc.1 ++ [(t.lane, old.setWidth 64)], s)) ([], s)
    let cores := remoteCores i.core ts
    let asker : Asker := i.asker id
    let s := cores.foldl (fun s c =>
      let ops := (ts.filter (·.core == c)).map fun t => (t.lane, t.off, op t.lane, b t.lane)
      (s.ahead i.core .req).send i.core c .req (.atomics ops reply (s.core i.core).cluster.clock asker)) s
    .ready olds (s.sentStores i id cores.length)

/-! ### Units that await replies (R96, R183; log entry 7) -/

/-- Adds a pending unit to the issuing stream. -/
def State.addPending (s : State) (i : Issue) (p : Pending) : State :=
  match i.kind with
  | .run => s.modRun i.core i.unit fun r => { r with pending := r.pending ++ [p] }
  | _ => s.modCtl i.core i.unit fun k => { k with pending := k.pending ++ [p] }

/-- The issuing stream waits until the unit named by the result has completed. -/
def State.awaiting (s : State) (i : Issue) : Asker × State :=
  let (id, s) := s.newId i.core
  (i.asker id, s.addPending i
    ⟨id, i.kind == .lead, i.lanes, i.start, i.front.hints.count, 60, false, 1, [], none, 0, false⟩)

/-- The stream that asked is still there. -/
def State.askerLives (s : State) (a : Asker) : Bool :=
  match a.who with
  | .run k => ((s.run a.core k).map (·.serial)) == some a.gen
  | .lanes u => ((s.unit a.core u).map (·.info.order)) == some a.gen
  | .lead u => ((s.unit a.core u).map (·.info.order)) == some a.gen
  | _ => false

/-- The unit that waits under a name. -/
def State.pendingOf (s : State) (a : Asker) : Option Pending :=
  if !s.askerLives a then none else
  match a.who with
  | .run k => (s.run a.core k).bind fun r => r.pending.find? (·.id == a.id)
  | .lanes u => (s.unit a.core u).bind fun r => r.ctl.pending.find? (·.id == a.id)
  | .lead u => (s.unit a.core u).bind fun r => r.ctl.pending.find? (·.id == a.id)
  | _ => none

/-- Changes the unit that waits under a name; none ends its wait. -/
def State.setPending (s : State) (a : Asker) (p : Option Pending) : State :=
  let change (l : List Pending) : List Pending := l.filterMap fun q => if q.id = a.id then p else some q
  if !s.askerLives a then s else
  match a.who with
  | .run k => s.modRun a.core k fun r => { r with pending := change r.pending }
  | .lanes u => s.modCtl a.core u fun k => { k with pending := change k.pending }
  | .lead u => s.modCtl a.core u fun k => { k with pending := change k.pending }
  | _ => s

/-- Keeps a place in the queue that a pending unit will push. -/
def State.keepPlace (s : State) (i : Issue) (f : RegField) (n : Nat) : State :=
  if isQueue f then s.modUnit i.core i.unit fun r => { r with
    queues := setAt (queueIndex f) (fun q => { q with kept := q.kept + n }) r.queues }
  else s

/-- The pending record of the issuing unit. -/
def Issue.pendingUnit (i : Issue) (id : Nat) (dest : RegField) (pair : Bool) (missing : LaneMask) (values : SMap Dword) : Pending :=
  { id := id, lead := i.kind == .lead, lanes := i.lanes, pc := i.start, hints := i.front.hints.count, dest := dest, pair := pair,
    missing := missing, values := values, after := none, writes := i.active, loose := false }

/-- An operand stage followed by accesses: a wait leaves the queues as they were. -/
def State.accessing {α : Type} (s : State) (v : State → Access α) (t : State) (k : α → State → Eff) : Eff :=
  match v t with
  | .ready a t => k a t
  | .refused r _ => match v s with
    | .refused r s => .trap r s
    | _ => .trap r s
  | .waiting _ => match v s with
    | .waiting s => .wait s
    | _ => .wait s

end Sys2Proof.Machine
end

