-- ==== Sys2Proof/Machine/Fetch.lean ====
section
/-! DEFINITION. Where a stream's code lies and the fetch of its words (R368, R370, R392), and the setting in which one given
word is the next to be fetched. -/

namespace Sys2Proof.Machine

/-- The dispatch cores of dies 0 to 3 (R368). -/
def dispatchCore (die : Nat) : Nat :=
  if die = 0 then 0 else if die = 1 then 47 else if die = 2 then 23 * 48 else 23 * 48 + 47

def isDispatchCore (c : Nat) : Bool := c == 0 || c == 47 || c == 23 * 48 || c == 23 * 48 + 47

/-- The context is a dispatch context: privileged, on one quad (R368; log entry 22). -/
def Context.isDispatch (x : Context) : Bool := x.record.priv && x.record.rw == 2 && x.record.rh == 2

/-- The stream is a dispatch lead (R368). -/
def State.isDispatchLead (s : State) (i : Issue) : Bool :=
  i.kind == .lead && isDispatchCore i.core && ((s.context i.ctx).map (·.isDispatch)).getD false

/-- A dispatch register of a core (R369): 0 DQBASE, 1 DQSIZE, 2 DQTAIL. -/
def CoreState.dqReg (k : CoreState) (n : Nat) : Nat := ((SMap.find k.dq n).getD 0).toNat

/-- Where the word at a stream's offset lies: TVB in trap-handler code, the ring for a dispatch lead, else the launch's code
base (R368, R370, R392, R393). -/
def State.codeAddress (s : State) (i : Issue) : Option Nat :=
  match s.context i.ctx with
  | none => none
  | some x =>
    if i.handler then some (x.record.tvb + i.front.pc.toNat)
    else if s.isDispatchLead i then
      let k := s.core i.core
      some (k.dqReg 0 + i.front.pc.toNat % 2 ^ k.dqReg 1)
    else (x.launch i.launch).map fun l => l.record.code + i.front.pc.toNat

/-- The appended bytes of the ring lie beyond a fetch's offset (R368). -/
def State.ringHolds (s : State) (i : Issue) : Bool :=
  let tail := BitVec.ofNat 32 (natOfBytes (s.localBytes i.core i.ctx ((s.core i.core).dqReg 2) 4))
  (tail - i.front.pc).toInt > 0

/-- The outcome of a fetch. -/
inductive FetchResult where
  | word (w : Nat) (s : State)
  /-- The fetch failed at this virtual address, with this cause (R380, R392). -/
  | refused (va cause : Nat) (s : State)
  | waiting (s : State)

/-- Fetches a stream's next word. -/
def State.fetchNext (s : State) (i : Issue) : FetchResult :=
  match s.codeAddress i with
  | none => .waiting s
  | some va =>
    match (s.core i.core).fetchRefused.find? (·.1 == i.ref) with
    | some (_, a, cause) =>
      match s.spillWait i with
      | some s => .waiting s
      | none => .refused a cause (s.modCore i.core fun k => { k with fetchRefused := k.fetchRefused.filter (·.1 != i.ref) })
    | none =>
      if s.isDispatchLead i && !i.handler then
        match s.pages i.core i.ctx [(s.core i.core).dqReg 2] (some i.waiter) with
        | .waiting s => .waiting s
        | .refused a cause t => match s.spillWait i with
          | some s => .waiting s
          | none => .refused a cause t
        | .ready =>
          if s.ringHolds i then
            match s.fetch i.core i.ctx va i.ref with
            | (some w, s) => .word w s
            | (none, s) => .waiting s
          else .waiting s
      else
        match s.fetch i.core i.ctx va i.ref with
        | (some w, s) => .word w s
        | (none, s) => .waiting s

/-- The K of the unit under way (R36). -/
def Front.k (f : Front) : Nat :=
  match f.hints.ximm with
  | some x => x.toNat
  | none => 0

/-- A failed fetch: its trap with TPC at the unfetched word and TADDR at its address (R380, R392). -/
def State.refuseFetch (s : State) (i : Issue) (va cause : Nat) : State :=
  s.takeTrap { i with front := { i.front with hints := Hints.none } } ⟨cause, i.mask, BitVec.ofNat 64 va, 0⟩

/-! ### A word placed where the next fetch finds it (log entry 3) -/

/-- The context, launch and stream that `withFetchWord` installs. -/
def placedRecord : CtxRecord :=
  { priv := true, rw := 2, rh := 2, troot := 0x100000, lsvb := 0x10000000, fqb := 0x200000, fqn := 4, fhc := 0, fhid := 60,
    tsa := 0, tvb := 0x20000000, save := 0x30000000, saveLen := 0x550000 }

def placedLaunch : LaunchRecord :=
  { code := 0, nx := 1, ny := 1, nz := 1, width := 8, regs := 32, lsp := 1, lbp := 0, slots := 0, acc := 0, prio := 0,
    replay := false, reform := false, lead := some 0, rw := 2, rh := 2, origin := none, preds := [], undo := 0, ulen := 0 }

def placedHandle : BitVec 32 := 0x100

def placedContext : Context :=
  { record := placedRecord, bytes := [], state := .running, x := 2, y := 0, placed := true, cause := 0, fcore := 0,
    midSave := false, closing := false,
    launches := [(0, { handle := placedHandle, record := placedLaunch, state := .running, reason := 0, replays := 0,
                       lapsed := false, done := 0, order := 0, nextGroup := 1, origin := (0, 0), log := [], release := [],
                       linkFailed := false, clock := 0 })],
    lastIndex := 0, serial := 1, accepted := 1, barriers := [], image := none }

def placedUnit : Resident :=
  { info := { ctx := 1, handle := placedHandle, ggi := 0, width := 8, regs := 32, base := 0, seg := 0, hank := false,
              window := ⟨0, 4096, false⟩, order := 0, ready := 0, aged := false, able := false, skip := 0 },
    lanes := LaneState.start (firstLanes 8),
    ctl := { paths := [Path.start 0 (firstLanes 8)], joins := [], loops := [], mode := 0, seed := 0, scratch := [],
             traps := TrapRegs.zero, trap := none, waiting := [], pending := [], halted := false },
    lead := some { s := Scalar.start 0, ended := false, traps := TrapRegs.zero, scratch := [], budget := 0, readyFor := 0,
                   due := false },
    queues := [.unmapped, .unmapped, .unmapped, .unmapped], engines := [.idle, .idle, .idle, .idle],
    slotBase := 0, slotCount := 0, accs := [], resvs := [], rgen := 0, batch := 1, lanyard := none, arrival := none,
    waits := [], laneGens := [] }

def placedRun : Run :=
  { s := Scalar.start 0, hid := 0, hi := false, mid := 0, launch := placedHandle, window := ⟨0, 4096, false⟩, cls := .req,
    tid := none, sendBuffer := [], done := false, count := 0, budget := 65536, masked := none, pending := [], due := none, serial := 0 }

/-- HDONE, MASKON and MASKOFF are legal in handler code only (R42). -/
def handlerOnly (w : Nat) : Bool :=
  w / 2 ^ 26 == 0x28 && (w / 2 ^ 10 % 16 == 3 || w / 2 ^ 10 % 16 == 6 || w / 2 ^ 10 % 16 == 7)

/-- The stream that fetches the placed word: a group, or a handler run for a word that only handlers may issue. -/
def placedStream (w : Nat) : StreamRef := if handlerOnly w then .run 2 0 else .group 2 0 0

/-- A context with one group, and a run, on core (2, 0), whose next fetch finds the word at device address 0. -/
def State.placeWord (s : State) (w : Nat) : State :=
  let s := { s with contexts := SMap.put s.contexts 1 placedContext, host := { s.host with phase := 4 } }
  let s := s.setUnit 2 0 placedUnit
  let s := if handlerOnly w then s.modHandlers 2 fun h => { h with runs := SMap.put h.runs 0 placedRun } else s
  let s := s.modStation 0 fun t => { t with cache := ⟨1, 0, 2 ^ 30, .hbm 0, true, true⟩ :: t.cache }
  let s := { s with hbm := Memory.writeNat s.hbm 0 4 w, l2 := { s.l2 with lines := [] } }
  { s with agenda := .stream (placedStream w) :: s.agenda }

end Sys2Proof.Machine
end

