-- ==== Sys2Proof/Machine/Paths.lean ====
section
/-! DEFINITION. What moves the lanes of a group: arrivals at barriers (R208 to R216), the end of lanes (R134, R140, R163,
R209), the join stack, the division of paths (R129, R130, R164), and the filing of strands into bins (R145, R146). -/

namespace Sys2Proof.Machine

/-! ### Barriers (R208, R211, R216) -/

/-- The number of a scope's instance that holds a core; `.lane` is the unit's own. -/
def barInstance (c u scope : Nat) : Nat :=
  match scope with
  | 0 => 16 * c + u
  | 1 => c
  | 2 => coreY c / 2 * 24 + coreX c / 2
  | 3 => clusterOf c
  | 4 => dieOf c
  | _ => 0

/-- Where a context keeps the barrier of a scope from `.quad` up. -/
def barKey (scope inst id : Nat) : Nat := (scope * 4096 + inst) * 16 + id

/-- PODSET of a core (R419): pod set, root package, enrolment. -/
def CoreState.podSet (k : CoreState) : BitVec 16 := k.podset.setWidth 16
def CoreState.podRoot (k : CoreState) : Nat := k.podset.toNat / 65536 % 512
def CoreState.podOn (k : CoreState) : Bool := k.podset.getLsbD 25

/-- This package's number in its pod (R419). -/
def ownPackage : Nat := Config.pkgId.toNat

/-- The core whose context instance is enrolled in a set with this package as root (R419). -/
def State.podMember (s : State) (setId : BitVec 16) : Option (Nat × Nat) :=
  s.contexts.findSome? fun (ctx, x) => (x.cores.find? fun c =>
    (s.core c).podOn && (s.core c).podSet == setId && (s.core c).podRoot == ownPackage).map fun c => (ctx, c)

/-- The context that keeps a barrier as core c of a context sees it: the one that this package counts a pod set's arrivals in, else
its own (R208, R419). -/
def State.barHome (s : State) (c ctx scope : Nat) : Nat :=
  if scope = 6 && (s.core c).podOn && (s.core c).podRoot == ownPackage then ((s.podMember (s.core c).podSet).map (·.1)).getD ctx
  else ctx

/-- A barrier of a scope from `.core` up, as core c sees it. -/
def State.barrier (s : State) (c ctx scope id : Nat) : Barrier :=
  if scope = 1 then (SMap.find (s.core c).barriers id).getD Barrier.idle
  else match s.context (s.barHome c ctx scope) with
    | some x => (SMap.find x.barriers (barKey scope (barInstance c 0 scope) id)).getD Barrier.idle
    | none => Barrier.idle

def State.setBarrier (s : State) (c ctx scope id : Nat) (b : Barrier) : State :=
  if scope = 1 then s.modCore c fun k => { k with barriers := SMap.put k.barriers id b }
  else s.modContext (s.barHome c ctx scope) fun x => { x with
    barriers := SMap.put x.barriers (barKey scope (barInstance c 0 scope) id) b }

/-- EVC0 to EVC7 of a core. -/
def CoreState.counters (k : CoreState) : List Word := (List.range 8).map fun j => SMap.word k.evc j

/-- The newest party of each core. -/
def lastParties : List Party → List Party
  | [] => []
  | p :: r => p :: (lastParties r).filter (·.core ≠ p.core)

/-- The record of R216: the sums of the counters, as each core's last party found them, over the cores with a party that
takes part by CNTSUM. -/
def Barrier.sum (b : Barrier) : List Dword :=
  let from' := (lastParties b.parties).filter fun p => b.parties.any fun q => q.core == p.core && q.cntsum
  (List.range 8).map fun j => BitVec.ofNat 64 (from'.map fun p => ((p.evc[j]?).getD 0).toNat).sum

/-- The record of a generation: free values where parties of other packages are counted with it, whose counters this package does
not hold (log entry 87). -/
def State.sums (s : State) (b : Barrier) (away : Bool) : List Dword × State :=
  if away || b.parties.any (·.core.isNone) then
    (List.range 8).foldl (fun (acc : List Dword × State) _ =>
      let (v, s) := acc.2.freeValue
      (acc.1 ++ [v], s)) ([], s)
  else (b.sum, s)

/-- The barrier point of the generation under way (R188, R211, R216). -/
def State.passPoint (s : State) (c ctx scope id : Nat) (b : Barrier) (away : Bool) : State :=
  let (record, s) := if b.parties.any (·.cntsum) then
      let (v, s) := s.sums b away
      (SMap.put b.records b.gen.toNat v, s)
    else (b.records, s)
  (s.setBarrier c ctx scope id { b with parties := [], gen := b.gen + 1, records := record }).meet (b.parties.filterMap (·.core))

/-- A BARINIT or an arrival of a core takes its place in the barrier's order: it follows those before it (R212; log entry 81). -/
def State.inOrder (s : State) (c ctx scope id : Nat) : State :=
  let t := max (s.barrier c ctx scope id).clock (s.core c).cluster.clock
  (s.setBarrier c ctx scope id { s.barrier c ctx scope id with clock := t }).raiseClock c t

/-- A party's arrival is counted: the barrier point when it makes n equal E (R211). -/
def State.countParty (s : State) (c ctx scope id : Nat) (p : Party) : State :=
  let s := if p.core.isSome then s.inOrder c ctx scope id else s
  let b := s.barrier c ctx scope id
  let b := { b with parties := p :: b.parties }
  if b.parties.length < b.expected then s.setBarrier c ctx scope id b else s.passPoint c ctx scope id b false

/-- The `.pod` barriers of a core are counted in another package (R419). -/
def CoreState.podAway (k : CoreState) (scope : Nat) : Bool := scope == 6 && k.podRoot != ownPackage

/-- A party arrives at a `.pod` barrier that another package counts: a packet to its root, and a note of the party here (R419; log
entry 87). -/
def State.sendPod (s : State) (c ctx id : Nat) (p : Party) : State :=
  let b := s.barrier c ctx 6 id
  (s.setBarrier c ctx 6 id { b with parties := p :: b.parties }).sendFabric (s.core c).podRoot (.arrive (s.core c).podSet id)

/-- A party of unit u arrives: the generation that counts it, and the state after (R209, R211). -/
def State.arrive (s : State) (c u ctx scope id : Nat) (h : BitVec 32) (cntsum : Bool) : Word × State :=
  if scope = 0 then
    let g := match s.unit c u with
      | some r => SMap.word r.laneGens id
      | none => 0
    (g, s.modUnit c u fun r => { r with laneGens := SMap.setWord r.laneGens id (g + 1) })
  else
    let p : Party := ⟨ctx, h, some c, cntsum, (s.core c).counters⟩
    ((s.barrier c ctx scope id).gen,
      if (s.core c).podAway scope then s.sendPod c ctx id p else s.countParty c ctx scope id p)

/-- Writes the tokens that a group's completed arrival owes (R214). -/
def State.writeTokens (s : State) (c : Nat) (r : Resident) (tokens : List (LaneMask × Nat × Bool)) (g : Word) : State :=
  tokens.foldl (fun s (m, n, takes) => (lanesOf m).foldl (fun s l => s.setLane c r l n (if takes then g else 0)) s) s

/-- The record that a group's arrival by CNTSUM owes, for its generation (R216). -/
def Arrival.owed (a : Arrival) (g : Word) : List BarWait :=
  match a.sum with
  | some at' => [⟨false, 0, 0, a.scope, a.id, some g, some at', false⟩]
  | none => []

/-- Completes an arrival that some lanes have begun once every live lane has arrived; a group whose every lane ends without
arriving has begun none (R209, R214). -/
def State.tryArrival (s : State) (c u : Nat) : State :=
  match s.unit c u with
  | none => s
  | some r =>
    match r.arrival with
    | none => s
    | some a =>
      if r.lanes.live &&& ~~~a.arrived ≠ 0 then s
      else
        let (g, s) := s.arrive c u r.info.ctx a.scope a.id r.info.handle a.sum.isSome
        let s := s.writeTokens c r a.tokens g
        s.modUnit c u fun r => { r with
          arrival := none
          waits := (r.waits.map fun w => if !w.lead && w.token.isNone then { w with token := some g } else w) ++ a.owed g }

/-! ### The end of lanes (R134, R140, R163, R209) -/

/-- Removes lanes from paths; a path without lanes leaves the order. -/
def dropLanes (m : LaneMask) (ps : List Path) : List Path :=
  ps.filterMap fun p => if p.lanes &&& ~~~m = 0 then none else some { p with lanes := p.lanes &&& ~~~m }

/-- The join stack after lanes have ended: entries completed, with the paths that resume, first (R132, R134). -/
def settleJoins : List Join → List Path × List Join
  | [] => ([], [])
  | j :: r =>
    let (ps, js) := settleJoins r
    if j.members = 0 then (ps, js)
    else if j.arrived = j.members then (Path.start (j.target + 4) j.members :: ps, js)
    else (ps, j :: js)

/-- The lanes of segment j of a lanyard (R160). -/
def segLanes (k j : Nat) : LaneMask := BitVec.ofNat 64 ((2 ^ k - 1) * 2 ^ (k * j))

def Segment.unbound : Segment := ⟨0, false, false⟩

/-- A lanyard after lanes have ended: a segment that lost some faults, one that lost all is unbound (R163). -/
def Lanyard.afterEnd (l : Lanyard) (before after : LaneMask) : Lanyard :=
  { l with segments := l.segments.zipIdx.map fun (g, j) =>
      let m := segLanes l.k j
      if after &&& m = 0 then Segment.unbound
      else if g.bound && (before &&& m) != (after &&& m) then { g with bound := false, faulted := true } else g }

/-- The trap handler has no lanes left: its trap ends (log entry 24). -/
def Control.endTrap (k : Control) (live : LaneMask) : Control :=
  match k.trap with
  | some t => if k.paths.isEmpty && !t.lead then
      { k with paths := dropLanes (~~~live) t.paths, loops := t.loops, mode := t.mode, trap := none } else k
  | none => k

/-- Lanes of a unit end, or are filed (R134, R140); a path whose lanes all do discards its loop frames, whatever resumes (R144). -/
def State.endLanes (s : State) (c u : Nat) (m : LaneMask) : State :=
  match s.unit c u with
  | none => s
  | some r =>
    let live := r.lanes.live &&& ~~~m
    let joins := r.ctl.joins.map fun j => { j with members := j.members &&& ~~~m, arrived := j.arrived &&& ~~~m }
    let (resumed, joins) := settleJoins joins
    let k := r.ctl
    let left := dropLanes m k.paths
    let trap := k.trap.map fun t => { t with
      paths := resumed ++ t.paths, index := t.index + resumed.length, loops := if (dropLanes m t.paths).isEmpty then [] else t.loops }
    let k : Control := { k with
      paths := (if k.trap.isSome then [] else resumed) ++ left
      joins := joins, trap := trap, loops := if left.isEmpty then [] else k.loops }
    let r := { r with
      lanes := { r.lanes with live := live }
      ctl := k.endTrap live
      lanyard := if live = 0 then none else r.lanyard.map (·.afterEnd r.lanes.live live) }
    let s := (s.setUnit c u r).tryArrival c u
    if live = 0 then s.dropWatches c (.lanes u) else s

/-! ### Division of paths (R129, R130, R144, R164) -/

/-- Live lanes of the issuing unit. -/
def State.live (s : State) (i : Issue) : LaneMask := ((s.unit i.core i.unit).map (·.lanes.live)).getD 0

/-- The bound segments that sets of lanes divide (R164). -/
def State.divided (s : State) (i : Issue) (sets : List LaneMask) : List (Nat × LaneMask) :=
  match (s.unit i.core i.unit).bind (·.lanyard) with
  | none => []
  | some l =>
    l.segments.zipIdx.filterMap fun (g, j) =>
      let m := segLanes l.k j
      let alive := m &&& s.live i
      if g.bound && sets.any fun t => (t &&& alive) != 0 && (t &&& alive) != alive then some (j, m) else none

/-- A lanyard trap that names segments (R165). -/
def lanyardTrap (cause reason : Nat) (segs : List (Nat × LaneMask)) (s : State) : Eff :=
  .trap ⟨cause, segs.foldl (fun m x => m ||| x.2) 0, 0, BitVec.ofNat 64 (reason + 16 * ((segs.head?.map (·.1)).getD 0))⟩ s

/-- The group is diverged: it has more than one path (R128). -/
def State.pathCount (s : State) (i : Issue) : Nat :=
  match s.unit i.core i.unit with
  | some r => match r.ctl.trap with
    | some t => t.paths.length
    | none => r.ctl.paths.length
  | none => 0

/-- A path's spin count after a taken branch to a lower offset (R135, R136). -/
def Path.spun (p : Path) : Path :=
  if p.spin + 1 = 256 then { p with spin := 0, demoted := 256 } else { p with spin := p.spin + 1 }

/-- The paths that a division makes come first, in their order, in the place of the issuing path (R129; log entry 25). -/
def State.divide (s : State) (i : Issue) (parts : List (LaneMask × Word)) : State :=
  let s := s.modCtl i.core i.unit fun k => { k with
    paths := (parts.filter (·.1 ≠ 0)).map (fun p => Path.start p.2 p.1) ++ dropAt i.path k.paths }
  s.issued i i.front.hints.yields

/-- A taken branch of the whole issuing path, lead or run. -/
def State.branchAll (s : State) (i : Issue) (target : Word) : State :=
  let back := i.kind == .group && decide (target < i.front.pc) && decide (1 < s.pathCount i) && !i.handler
  let s := if back then s.modCtl i.core i.unit fun k => { k with paths := setAt i.path Path.spun k.paths } else s
  s.jump i target

/-- A direct branch or an indirect jump: `taken` gives the taking lanes by target (R129, R130, R144, R164). `s0` is the state
before the unit. -/
def State.branch (s0 s : State) (i : Issue) (taken : List (LaneMask × Word)) : Eff :=
  match i.kind with
  | .group =>
    let rest := i.lanes &&& ~~~(taken.foldl (fun m t => m ||| t.1) 0)
    let parts := taken ++ (if rest = 0 then [] else [(rest, i.front.pc + 4)])
    if 1 < parts.length && i.handler then i.illegal 28 s0
    else if 1 < parts.length && !(s0.loops i).isEmpty then i.illegal 5 s0
    else
      match s0.divided i (taken.map (·.1)) with
      | [] =>
        match parts with
        | [(_, target)] => .moved (s.branchAll i target)
        | _ => .moved (s.divide i parts)
      | segs => lanyardTrap Cause.lanyardDiverge 0 segs s0
  | _ => match taken with
    | (_, target) :: _ => .moved (s.branchAll i target)
    | [] => .done s

/-! ### Bins (R145, R146) -/

/-- Files a strand: the bin that fills with the key, or a free one; none when no bin can take it (R145). -/
def State.fileStrand (s : State) (c : Nat) (h : BitVec 32) (offset : Word) (x : Strand) : Option State :=
  let k := s.core c
  let slot := match k.bins.find? fun b => b.2.launch == h && b.2.offset == offset && !b.2.drawn with
    | some b => some b
    | none => ((List.range 32).find? fun n => (SMap.find k.bins n).isNone).map fun n => (n, ⟨h, offset, [], false, k.cycle, k.order + 1⟩)
  slot.map fun (n, b) =>
    let strands := b.strands ++ [x]
    s.setCore c { k with order := k.order + 1, bins := SMap.put k.bins n { b with strands := strands, drawn := decide (64 ≤ strands.length) } }

end Sys2Proof.Machine
end

