-- ==== Sys2Proof/Machine/Control.lean ====
section
/-! DEFINITION. The families BR and JR: branches, the join stack, END, loops, REFORM and queue mapping (R129 to R157). -/

namespace Sys2Proof.Machine

/-- What BR and JR share: REPEAT may not repeat them (R143). -/
def branchAttr : Attr := { branch := true }
/-- Legal in group code only, and not in a trap handler (R42, R395). -/
def pathAttr : Attr := { branch := true, l := false, h := false, noHandler := true }
/-- Legal in group and lead code (R42). -/
def groupLead : Attr := { branch := true, h := false }
/-- END: the arrival that ended lanes may complete follows their stores (R188, R209). -/
def endAttr : Attr := { groupLead with event := true }
/-- REFORM: a strand's program order continues into its hank (R180). -/
def reformAttr : Attr := { pathAttr with event := true }

/-- The word after the issuing one. -/
def Issue.next (i : Issue) : Word := i.front.pc + 4

/-- The target of an 18-bit offset (R24). -/
def Issue.target18 (i : Issue) (o : BitVec 18) : Word := i.next + (o.signExtend 32 <<< 2)
def Issue.target14 (i : Issue) (o : BitVec 14) : Word := i.next + (o.signExtend 32 <<< 2)

/-- The link register of a kind of code (R138). -/
def Issue.link (i : Issue) : RegField :=
  match i.kind with
  | .group => BitVec.ofNat 6 (i.regs - 1)
  | .lead => 55
  | .run => 31

/-! ### BR (R130 to R140) -/

def execBra (o : BitVec 18) (g : GuardField) (s : State) : Host.Outcome State Fault Refusal :=
  runUnit branchAttr g (fun i s => s.branch s i [(i.active, i.target18 o)]) s

def execCall (o : BitVec 18) (g : GuardField) (s : State) : Host.Outcome State Fault Refusal :=
  runUnit branchAttr g (fun i s =>
    s.branch (s.writeLanes i .word i.link i.active fun _ => i.next.setWidth 64) i [(i.active, i.target18 o)]) s

/-- Pushes an entry on the join stack (R131). -/
def execSplit (o : BitVec 18) (g : GuardField) (s : State) : Host.Outcome State Fault Refusal :=
  runUnit pathAttr g (fun i s =>
    match s.unit i.core i.unit with
    | none => .wait s
    | some r =>
      if 16 ≤ r.ctl.joins.length then i.illegal 1 s
      else .done (s.modCtl i.core i.unit fun k => { k with joins := ⟨i.target18 o, i.lanes, 0⟩ :: k.joins })) s

/-- The path's region: the innermost entry whose members include its lanes (R131). -/
def Join.includes (j : Join) (m : LaneMask) : Bool := m &&& ~~~j.members == 0

/-- Parks the path at its join, or completes it (R132). -/
def State.parkAt (s : State) (i : Issue) (n : Nat) (j : Join) : State :=
  let arrived := j.arrived ||| i.lanes
  let s := if arrived = j.members then
      s.modCtl i.core i.unit fun k =>
        let (pc, loops) := endCheck i.front.pc k.loops
        { k with joins := dropAt n k.joins, loops := loops, paths := Path.start pc arrived :: dropAt i.path k.paths }
    else
      s.modCtl i.core i.unit fun k => { k with
        joins := setAt n (fun j => { j with arrived := arrived }) k.joins, paths := dropAt i.path k.paths }
  s.issued i i.front.hints.yields

def execJoin (g : GuardField) (s : State) : Host.Outcome State Fault Refusal :=
  runUnit pathAttr g (fun i s =>
    match s.unit i.core i.unit with
    | none => .wait s
    | some r =>
      match r.ctl.joins.zipIdx.find? fun x => x.1.includes i.lanes with
      | some (j, n) => if j.target = i.front.pc then .moved (s.parkAt i n j) else i.illegal 2 s
      | none => i.illegal 2 s) s

/-- Which entries BRK discards: those that contain the path, n of them, with every entry above one whose members it
includes; and the outermost of the n (R133). -/
def discarded (joins : List Join) (lanes : LaneMask) (n : Nat) : Option (List Join × List Join × Join) :=
  let own := (joins.zipIdx.filter fun x => x.1.includes lanes).take n
  match own.getLast? with
  | none => none
  | some outer =>
    if own.length < n then none
    else
      let gone (x : Join × Nat) : Bool :=
        own.any fun y => y.2 == x.2 || (decide (x.2 < y.2) && y.1.includes x.1.members)
      some ((joins.zipIdx.filter gone).map (·.1), (joins.zipIdx.filter fun x => !gone x).map (·.1), outer.1)

/-- Withdraws lanes from the barrier waits of a unit: their path is gathered elsewhere (R133). Lanes that BRK gathers while they
wait at a barrier stay arrived there, and wait no longer (DESIGN CHOICE, log entry 88). -/
def Resident.unwait (r : Resident) (m : LaneMask) : Resident :=
  { r with waits := (r.waits.map fun w => if w.lead then w else { w with lanes := w.lanes &&& ~~~m }).filter fun w =>
      w.lead || w.lanes != 0 || w.sum.isSome }

def execBrk (n : BitVec 4) (o : BitVec 14) (g : GuardField) (s : State) : Host.Outcome State Fault Refusal :=
  runUnit pathAttr g (fun i s =>
    match s.unit i.core i.unit with
    | none => .wait s
    | some r =>
      match discarded r.ctl.joins i.lanes (n.toNat + 1) with
      | none => i.illegal 3 s
      | some (gone, kept, outer) =>
        if i.active ≠ i.lanes && !r.ctl.loops.isEmpty then i.illegal 5 s
        else
          match s.divided i [i.active] with
          | [] =>
            let gathered := (gone.foldl (fun m j => m ||| j.members) 0) &&& r.lanes.live &&& ~~~i.active
            let target := i.target14 o
            let s := s.modUnit i.core i.unit fun r => { r.unwait gathered with ctl := { r.ctl with
              joins := kept
              loops := afterBranch target r.ctl.loops
              paths := Path.start target i.active
                :: ((if gathered = 0 then [] else [Path.start (outer.target + 4) gathered])
                  ++ dropLanes gathered (dropAt i.path r.ctl.paths)) } }
            .moved (s.issued i i.front.hints.yields)
          | segs => lanyardTrap Cause.lanyardDiverge 0 segs s) s

/-- YIELD: the stream gives up one issue opportunity; with the yield bit of a SCHED hint as well it gives up two (DESIGN CHOICE, log
entry 95). -/
def execYield (g : GuardField) (s : State) : Host.Outcome State Fault Refusal :=
  runUnit groupLead g (fun i s => .moved ((s.finish i).issued i 1)) s

/-- Ends a lead; its trap, if it runs one, ends with it (R140). -/
def State.endLead (s : State) (c u : Nat) : State :=
  let s := s.modUnit c u fun r =>
    { r with
      lead := r.lead.map fun l => { l with ended := true }
      ctl := { r.ctl with trap := match r.ctl.trap with | some t => if t.lead then none else some t | none => none } }
  s.dropWatches c (.lead u)

def execEndOp (g : GuardField) (s : State) : Host.Outcome State Fault Refusal :=
  runUnit endAttr g (fun i s =>
    match i.kind with
    | .group => .moved ((s.finish i).endLanes i.core i.unit i.active)
    | _ => .moved ((s.finish i).endLead i.core i.unit)) s

def execNop (g : GuardField) (s : State) : Host.Outcome State Fault Refusal := runUnit branchAttr g (fun _ s => .done s) s

/-! ### Indirect jumps (R123, R129, R139) -/

/-- The sets of lanes with equal targets, in ascending order of their lowest lane. -/
def byTarget (target : Nat → Word) : List Nat → List (LaneMask × Word)
  | [] => []
  | l :: r =>
    let rest := byTarget target r
    match rest.find? fun x => x.2 == target l with
    | some x => (x.1 ||| laneBit l, target l) :: rest.filter fun y => y.2 != target l
    | none => (laneBit l, target l) :: rest

/-- Jumps to A, writing D first when there is one. -/
def jumpTo (d : Option RegField) (a : RegField) (g : GuardField) (s : State) : Host.Outcome State Fault Refusal :=
  runUnit branchAttr g (fun i s =>
    if !i.regOk false .nat a || !(d.all fun d => i.regOk true .nat d) then i.illegal 0 s
    else match s.operands i [(.nat, a)] d.toList with
      | .stop e => e
      | .ok v t =>
        let target (l : Nat) : Word := (nth v 0 l).setWidth 32
        let bad := maskOf fun l => i.active.getLsbD l && target l % 4 != 0
        if bad ≠ 0 then
          .trap ⟨Cause.misalign, if i.kind == .group then bad else 0, (target (lowestLane bad)).setWidth 64, 0⟩ s
        else
          match d with
          | none => s.branch t i (byTarget target (lanesOf i.active))
          | some d =>
            match s.result t i .nat d fun _ => i.next.setWidth 64 with
            | .done t => s.branch t i (byTarget target (lanesOf i.active))
            | e => e) s

def execJmp (a : RegField) (g : GuardField) (s : State) : Host.Outcome State Fault Refusal := jumpTo none a g s
def execCallr (d a : RegField) (g : GuardField) (s : State) : Host.Outcome State Fault Refusal := jumpTo (some d) a g s
def execRet (a : RegField) (g : GuardField) (s : State) : Host.Outcome State Fault Refusal := jumpTo none a g s

/-! ### REFORM (R145) -/

/-- The strand of a lane, with n registers. -/
def State.strandOf (s : State) (c : Nat) (r : Resident) (n l : Nat) : Strand :=
  { regs := (List.range n).map fun j => s.lane c r l j
    preds := SMap.word r.lanes.preds l
    ggi := if r.info.hank then (SMap.find r.lanes.ggis l).getD 0 else r.info.ggi }

/-- Files lanes in ascending order: the lanes filed, and those that stay, by offset. -/
def State.fileLanes (s : State) (i : Issue) (r : Resident) (n : Nat) (offset : Nat → Word) :
    List Nat → LaneMask → List (Nat × Word) → LaneMask × List (Nat × Word) × State
  | [], filed, stay => (filed, stay, s)
  | l :: more, filed, stay =>
    match s.fileStrand i.core i.launch (offset l) (s.strandOf i.core r n l) with
    | some s => s.fileLanes i r n offset more (filed ||| laneBit l) stay
    | none => s.fileLanes i r n offset more filed (stay ++ [(l, offset l)])

/-- The launch of the issuing stream reforms (R370). -/
def State.reforming (s : State) (i : Issue) : Bool := ((s.launch i.ctx i.launch).map (·.record.reform)).getD false

/-- Active lanes in a bound or faulted segment. -/
def State.lanesBound (s : State) (i : Issue) : Bool :=
  match (s.unit i.core i.unit).bind (·.lanyard) with
  | some l => l.segments.zipIdx.any fun (g, j) => (g.bound || g.faulted) && (segLanes l.k j &&& i.active) != 0
  | none => false

/-- REFORM (R145 to R149). A group that goes on with several paths keeps its one loop stack for all of them (DESIGN CHOICE, log entry
105). -/
def execReform (a n : RegField) (g : GuardField) (s : State) : Host.Outcome State Fault Refusal :=
  runUnit reformAttr g (fun i s =>
    match s.unit i.core i.unit with
    | none => .wait s
    | some r =>
      if n = 0 || decide (16 < n.toNat) || !i.regOk false .nat a then i.illegal 0 s
      else if i.regs < n.toNat || !s.reforming i then i.illegal 6 s
      else if s.tokenPending i (List.range n.toNat) then .wait s
      else match s.operands i [(.nat, a)] [] with
        | .stop e => e
        | .ok v t =>
          let offset (l : Nat) : Word := if a = 60 then i.next else (nth v 0 l).setWidth 32
          let bad := maskOf fun l => i.active.getLsbD l && offset l % 4 != 0
          if s.lanesBound i then i.trapBare Cause.reformState 0 s
          else if bad ≠ 0 then .trap ⟨Cause.misalign, bad, (offset (lowestLane bad)).setWidth 64, 0⟩ s
          else if s.unsettled i then .wait s
          else
            let rest := i.lanes &&& ~~~i.active
            let (filed, stay, t) := (t.finish i).fileLanes i r n.toNat offset (lanesOf i.active) 0 []
            let stays := byTarget (fun l => ((stay.find? (·.1 == l)).map (·.2)).getD 0) (stay.map (·.1))
            let t := t.modCtl i.core i.unit fun k =>
              let own := match k.paths[i.path]? with
                | some p => if rest = 0 then [] else [{ p with lanes := rest }]
                | none => []
              { k with
                paths := k.paths.take i.path ++ own ++ stays.map (fun x => Path.start x.2 x.1) ++ k.paths.drop (i.path + 1)
                loops := if rest = 0 && stays.isEmpty then [] else k.loops }
            .moved (t.endLanes i.core i.unit filed)) s

/-! ### LOOP and REPEAT (R141 to R144) -/

/-- The count of a LOOP: from the lowest active lane, or the 64-bit register. -/
def loopBody (n : RegField) (i : Issue) (count : Nat) (s : State) : Eff :=
  let start := i.next
  let last := i.front.pc + BitVec.ofNat 32 (4 * n.toNat)
  let loops := s.loops i
  let nested := match loops with
    | f :: _ => decide (f.first.toNat ≤ i.front.pc.toNat + 4)
        && decide (i.front.pc.toNat + 4 * n.toNat ≤ f.last.toNat)
    | [] => true
  if !nested then i.illegal 4 s
  else if count = 0 then
    let (pc, loops) := endCheck last loops
    .moved ((((s.countMasked i).setLoops i loops).setFront i ⟨pc, Hints.none, 0, i.front.skip⟩).issued i i.front.hints.yields)
  else if 4 ≤ loops.length then i.illegal 4 s
  else .moved ((((s.countMasked i).setLoops i (⟨start, last, count⟩ :: loops)).setFront i
    ⟨start, Hints.none, 0, i.front.skip⟩).issued i i.front.hints.yields)

def execLoop (a n : RegField) (g : GuardField) (s : State) : Host.Outcome State Fault Refusal :=
  runUnit branchAttr g (fun i s =>
    if n = 0 || !i.regOk false .nat a then i.illegal 0 s
    else if i.kind == .group && decide (1 < s.pathCount i) then i.illegal (if i.handler then 28 else 5) s
    else match s.operands i [(.nat, a)] [] with
      | .stop e => e
      | .ok v t => match loopBody n i (nth v 0 (lowestLane i.active)).toNat t with
        | .trap r _ => .trap r s
        | e => e) s

/-- The word at a stream's place belongs to BR or JR: looks past hints (R143). -/
def State.repeatsBranch (s : State) (i : Issue) : Nat → Option Bool × State
  | 0 => (some false, s)
  | n + 1 =>
    match s.fetchNext i with
    | .waiting s => (none, s)
    | .refused _ _ _ => (some false, s)
    | .word w s =>
      if w / 2 ^ 26 = 0x3F then s.repeatsBranch { i with front := { i.front with pc := i.front.pc + 4 } } n
      else (some (w / 2 ^ 26 == 0x1B || w / 2 ^ 26 == 0x1C), s)

def execRepeatOp (n : RegField) (g : GuardField) (s : State) : Host.Outcome State Fault Refusal :=
  runUnit branchAttr g (fun i s =>
    if n = 0 || i.front.hints.mod.isSome || (s.loops i).any (·.last == i.front.pc) then i.illegal 0 s
    else match s.repeatsBranch { i with front := { i.front with pc := i.next } } 5 with
      | (none, s) => .wait s
      | (some true, _) => i.illegal 0 s
      | (some false, s) =>
        .moved (((s.countMasked i).setFront i ⟨i.next, Hints.none, n.toNat, i.front.skip⟩).issued i i.front.hints.yields)) s

/-! ### QMAP and QSTAT (R152, R156) -/

/-- Another stream of the unit stands blocked on a queue (R152). -/
def Resident.blockedOn (r : Resident) (own : Bool × Word) (q : QueueReg) : Bool :=
  q.blocked.any fun b => b != own && (if b.1 then (r.lead.map (·.s.front.pc)) == some b.2 else r.ctl.paths.any (·.front.pc == b.2))

/-- Why a mapping is refused; the reasons are tried in the order 3, 4, 7, 5, 6 (R152, R157; DESIGN CHOICE, log entry 104). -/
def State.mapRefused (s : State) (i : Issue) (r : Resident) (k ep opt : Nat) : Option Nat :=
  let q := (r.queues[k]?).getD QueueReg.unmapped
  if !q.entries.isEmpty || decide (q.kept ≠ 0) || r.blockedOn (i.kind == .lead, i.front.pc) q then some 3
  else if 10 < ep || (ep == 0 && opt != 0) || (ep == 1 && decide (1 < opt)) || (ep == 2 && opt != 0) then some 4
  else if (ep == 1 || ep == 2) && r.lead.isNone then some 7
  else if 3 ≤ ep then
    let inside := match neighbour i.core ep, s.context i.ctx with
      | some d, some x => x.cores.contains d
      | _, _ => false
    if !inside then some 5
    else match s.mappedBy i.core ep opt with
      | some (u, _) => if u = i.unit then none else some 6
      | none => none
  else none

/-- Maps a queue, and notes that each side of a link has a peer (R152, R154). -/
def State.mapQueue (s : State) (i : Issue) (k ep opt : Nat) : State :=
  let q : QueueReg := { QueueReg.unmapped with ep := ep, opt := opt }
  let s := s.modUnit i.core i.unit fun r => { r with queues := setAt k (fun _ => q) r.queues }
  if ep < 3 then s
  else match s.peer i.core q with
    | none => s
    | some (d, u, j) =>
      let seen (s : State) (c u k : Nat) : State :=
        s.modUnit c u fun r => { r with queues := setAt k (fun q => { q with hadPeer := true }) r.queues }
      seen (seen s i.core i.unit k) d u j

def execQmap (d a b : RegField) (g : GuardField) (s : State) : Host.Outcome State Fault Refusal :=
  runUnit groupLead g (fun i s =>
    if !isQueue d || !i.regOk false .nat a || !i.regOk false .nat b then i.illegal 0 s
    else
      let k := queueIndex d
      if i.hank then i.queueMap k 0 s
      else match s.operands i [(.nat, a), (.nat, b)] [] with
        | .stop e => e
        | .ok v t =>
          let l := lowestLane i.active
          let ep := (nth v 0 l).toNat % 16
          let opt := (nth v 1 l).toNat % 4
          match t.unit i.core i.unit with
          | none => .wait s
          | some r =>
            match t.mapRefused i r k ep opt with
            | some reason => i.queueMap k reason s
            | none => .done (t.mapQueue i k ep opt)) s

/-- The status word of a queue (R156). -/
def State.queueStatus (s : State) (i : Issue) (k : Nat) : Dword :=
  match s.unit i.core i.unit with
  | none => 0
  | some r =>
    let q := (r.queues[k]?).getD QueueReg.unmapped
    BitVec.ofNat 64 (q.ep + 16 * q.opt + 64 * q.entries.length + 1024 * (s.writerEnded i.core r q).toNat
      + 2048 * (s.readerEnded i.core r q).toNat)

def execQstat (d a : RegField) (g : GuardField) (s : State) : Host.Outcome State Fault Refusal :=
  runUnit groupLead g (fun i s =>
    if !isQueue a then i.illegal 0 s
    else if i.hank then i.queueMap (queueIndex a) 0 s
    else s.compute i 0 (.nat, d) [] fun _ t => (fun _ => s.queueStatus i (queueIndex a), t)) s

end Sys2Proof.Machine
end

