-- ==== Sys2Proof/Machine/Barrier.lean ====
section
/-! DEFINITION. The barrier instructions and the departure of parties (R208 to R218). -/

namespace Sys2Proof.Machine

/-- Legal in group and lead code, not in a trap handler (R42, R395); a synchronisation event (R212). -/
def barrierAttr : Attr := { h := false, noHandler := true, event := true, noMod := true }

/-- An operand of an E-format word: a pair from the lowest active lane, or a 64-bit register (R33). -/
def State.wide (s : State) (i : Issue) (f : RegField) : Dword := s.source i .pair f none (lowestLane i.active)

/-- The encoding of an operand of an E-format word: a pair in group code, never a queue register (R32, R33). -/
def Issue.wideOk (i : Issue) (write : Bool) (f : RegField) : Bool := i.regOk write .pair f && !isQueue f

/-- BARRIER with its reason (R217). -/
def Issue.barrierTrap (i : Issue) (reason scope id : Nat) (s : State) : Eff :=
  i.trapAt Cause.barrier 0 (reason + 16 * scope + 128 * id) s

/-- The wait of the issuing path or lead at this unit, when it has begun one. -/
def State.ownWait (s : State) (i : Issue) : Option BarWait :=
  (s.unit i.core i.unit).bind fun r => r.waits.find? fun w =>
    w.lead == (i.kind == .lead) && w.pc == i.start && (i.kind == .lead || (i.lanes &&& ~~~w.lanes == 0))

/-- A wait at a barrier begins; one that a trap handler skipped is forgotten. -/
def State.addWait (s : State) (i : Issue) (scope id : Nat) (token : Option Word) (sum : Option Nat) : State :=
  let lead := i.kind == .lead
  let w : BarWait := ⟨lead, if lead then 0 else i.lanes, i.start, scope, id, token, sum, false⟩
  s.modUnit i.core i.unit fun r =>
    { r with waits := (r.waits.filter fun v => v.lead != lead || (!lead && v.lanes &&& i.lanes == 0)) ++ [w] }

/-- A wait ends. -/
def State.dropWait (s : State) (i : Issue) (w : BarWait) : State :=
  s.modUnit i.core i.unit fun r => { r with waits := r.waits.erase w }

/-- The arrival under way of the issuing group (R209). -/
def State.arrival (s : State) (i : Issue) : Option Arrival :=
  if i.kind == .group then (s.unit i.core i.unit).bind (·.arrival) else none

/-- The encoding of a barrier word in its kind of code; `lane` says that the instruction takes `.lane` (R214). -/
def Issue.barrierOk (i : Issue) (sc : BitVec 3) (id : RegField) (reads writes : List RegField) (lane : Bool) : Bool :=
  decide (id.toNat < 16) && decide (sc.toNat < 7) && (sc != 0 || (lane && i.kind == .group))
    && (reads.all fun r => i.wideOk false r) && (writes.all fun r => i.wideOk true r)

/-- Why a barrier instruction traps whatever it does; a unit that waits already has passed these checks (R148, R210,
R217). -/
def State.barrierReason (s : State) (i : Issue) (scope id : Nat) : Option Nat :=
  if (s.ownWait i).isSome then none
  else if decide (scope < 2) && (i.hank || (i.kind == .group && s.reforming i)) then some 0
  else if scope = 6 && !(s.core i.core).podOn then some 5
  else match s.arrival i with
    | some a => if a.scope != scope || a.id != id then some 4 else none
    | none => none

/-- The checks that every barrier instruction makes, then the instruction (R208, R210, R214, R217). -/
def barrierUnit (lane : Bool) (reads writes : List RegField) (sc : BitVec 3) (id : RegField) (g : GuardField)
    (f : Issue → Nat → Nat → State → Eff) (s : State) : Host.Outcome State Fault Refusal :=
  runUnit barrierAttr g (fun i s =>
    if !i.barrierOk sc id reads writes lane then i.illegal 0 s
    else if s.tokenPending i (reads.flatMap fun r => fieldRegs .pair r) then .wait s
    else match s.barrierReason i sc.toNat id.toNat with
      | some reason => i.barrierTrap reason sc.toNat id.toNat s
      | none => f i sc.toNat id.toNat s) s

/-- The barrier is idle, for every scope that BARINIT arms (R211). At a package that is not the root of a pod barrier this looks at
the E of the package's own instance (DESIGN CHOICE, log entry 87). -/
def State.barrierIdle (s : State) (i : Issue) (scope id : Nat) : Bool :=
  scope != 0 && (s.barrier i.core i.ctx scope id).expected == 0

/-- Generation of the barrier, as the issuing unit sees it (R211). -/
def State.generation (s : State) (i : Issue) (scope id : Nat) : Word :=
  if scope = 0 then
    match s.unit i.core i.unit with
    | some r => SMap.word r.laneGens id
    | none => 0
  else (s.barrier i.core i.ctx scope id).gen

/-- The lanes of the issuing path arrive; the group's arrival completes once every live lane has (R209, R210). A path that arrives
again at the same barrier while its group's arrival is incomplete adds nothing to it (DESIGN CHOICE, log entry 88). -/
def State.arrivePath (s : State) (i : Issue) (scope id : Nat) (tokens : List (LaneMask × Nat × Bool)) (sum : Option Nat) : State :=
  let s := s.modUnit i.core i.unit fun r =>
    let a := r.arrival.getD ⟨scope, id, 0, [], none⟩
    { r with arrival := some { a with
        arrived := a.arrived ||| i.lanes, tokens := a.tokens ++ tokens, sum := a.sum <|> sum } }
  s.tryArrival i.core i.unit

/-- BAR and CNTSUM: the unit arrives and waits for the barrier point of the generation that counts it; it completes when
its party has departed (R213, R214). -/
def arriveAndWait (sum : Option Nat) (i : Issue) (scope id : Nat) (s : State) : Eff :=
  match s.ownWait i with
  | some w => if w.departed then .done (s.dropWait i w) else .wait s
  | none =>
    if s.barrierIdle i scope id then i.barrierTrap 1 scope id s
    else match i.kind with
      | .group => .moved ((s.addWait i scope id none none).arrivePath i scope id [] sum)
      | _ =>
        let (t, s) := s.arrive i.core i.unit i.ctx scope id i.launch sum.isSome
        .moved (s.addWait i scope id (some t) sum)

def execBar (b : BitVec 6) (sc : BitVec 3) (g : GuardField) (s : State) : Host.Outcome State Fault Refusal :=
  barrierUnit true [] [] sc b g (arriveAndWait none) s

/-- BARA: the arrival, and its token at once or when the group's arrival completes (R214). -/
def execBara (a b : BitVec 6) (sc : BitVec 3) (g : GuardField) (s : State) : Host.Outcome State Fault Refusal :=
  barrierUnit true [] [a] sc b g (fun i scope id s =>
    if s.barrierIdle i scope id then i.barrierTrap 1 scope id s
    else match i.kind with
      | .group =>
        let tokens := if a = 60 then [] else [(i.active, a.toNat, true), (i.active, a.toNat + 1, false)]
        .done ((s.supersede i (fieldRegs .pair a)).arrivePath i scope id tokens none)
      | _ =>
        let (t, s) := s.arrive i.core i.unit i.ctx scope id i.launch false
        .done (s.writeReg i .pair a 0 (t.setWidth 64))) s

/-- BARW: departs at once from a generation whose barrier point has passed, else waits (R214); a unit that waits has passed its
checks (R210). -/
def execBarw (a b : BitVec 6) (sc : BitVec 3) (g : GuardField) (s : State) : Host.Outcome State Fault Refusal :=
  barrierUnit true [a] [] sc b g (fun i scope id s =>
    let t : Word := (s.wide i a).setWidth 32
    let now := s.generation i scope id
    match s.ownWait i with
    | some w => if 0 < (now - t).toInt then .done (s.dropWait i w) else .wait s
    | none =>
      if 0 < (t - now).toInt then i.barrierTrap 6 scope id s
      else if 0 < (now - t).toInt then .done s
      else .moved (s.addWait i scope id (some t) none)) s

/-- BARINIT: arms a barrier that is not collecting (R211, R215). -/
def execBarinit (a b : BitVec 6) (sc : BitVec 3) (g : GuardField) (s : State) : Host.Outcome State Fault Refusal :=
  barrierUnit false [a] [] sc b g (fun i scope id s =>
    let e := (s.wide i a).toNat % 2 ^ 32
    let x := s.barrier i.core i.ctx scope id
    if !x.parties.isEmpty then i.barrierTrap 2 scope id s
    else if e = 0 || decide (2 ^ 24 ≤ e) then i.barrierTrap 3 scope id s
    else
      let s := s.inOrder i.core i.ctx scope id
      .done (s.setBarrier i.core i.ctx scope id { s.barrier i.core i.ctx scope id with expected := e })) s

/-- CNTSUM: as BAR, with the record of sums at a checked local address (R216). -/
def execCntsum (a b : BitVec 6) (sc : BitVec 3) (g : GuardField) (s : State) : Host.Outcome State Fault Refusal :=
  barrierUnit false [a] [] sc b g (fun i scope id s =>
    let at' := (s.wide i a).toNat % 2 ^ 32
    if !i.window.holds at' 64 then i.trapAt Cause.lsBound at' 0 s
    else if at' % 64 ≠ 0 then i.trapAt Cause.misalign at' 0 s
    else arriveAndWait (some at') i scope id s) s

/-! ### Departure (R213, R216, R218, R419) -/

/-- A wait whose generation has passed its barrier point. -/
def BarWait.passed (w : BarWait) (scope id : Nat) (now : Word) : Bool :=
  !w.departed && w.scope == scope && w.id == id && (match w.token with
    | some t => decide (0 < (now - t).toInt)
    | none => false)

/-- The party's waits that the barrier releases have departed; its record, if it owed one, is stored. -/
def State.departed (s : State) (scope id c u : Nat) (lead : Bool) (now : Word) : State :=
  s.modUnit c u fun r => { r with waits := (r.waits.map fun w =>
    if w.lead == lead && w.passed scope id now then { w with departed := true } else w).filter fun w => w.lead || w.lanes != 0 || !w.departed }

/-- One party of a unit departs, its group or its lead; one that owes a record stores it as it departs, once its page is there, and
takes a refusal at its unit, to depart later (R213, R216, R223). -/
def State.departParty (s : State) (b : Barrier) (scope id c u : Nat) (lead : Bool) : State :=
  match s.unit c u with
  | none => s
  | some r =>
    let due := (r.waits.filter fun w => w.lead == lead && w.passed scope id b.gen).findSome? fun w =>
      match w.sum, w.token.bind fun t => SMap.find b.records t.toNat with
      | some a, some sums => some (a, sums)
      | _, _ => none
    match due with
    | none => s.departed scope id c u lead b.gen
    | some (a, sums) =>
      match s.pages c r.info.ctx [a] (some (if lead then .lead u else .lanes u)) with
      | .waiting s => s
      | .refused _ cause s => s.modCtl c u fun k => { k with waiting := k.waiting ++ [(lead, ⟨cause, 0, BitVec.ofNat 64 a, 0⟩)] }
      | .ready =>
        (s.storeLocal ⟨r.info.ctx, r.info.handle⟩ c a 64 (natOfBytes (sums.flatMap fun v => bytesOfNat v.toNat 8))).departed
          scope id c u lead b.gen

/-- The parties of a unit that a barrier releases. -/
def State.departUnit (s : State) (ctx scope id c u : Nat) : State :=
  match s.unit c u with
  | none => s
  | some r =>
    if r.info.ctx ≠ ctx then s else
    let b := if scope = 0 then { Barrier.idle with gen := SMap.word r.laneGens id } else s.barrier c ctx scope id
    (s.departParty b scope id c u false).departParty b scope id c u true

/-- Units of a context that wait in an instance of a scope. -/
def State.instanceUnits (s : State) (x : Context) (scope inst : Nat) : List (Nat × Nat) :=
  (x.cores.filter fun c => scope = 0 || barInstance c 0 scope == inst).flatMap fun c =>
    ((s.core c).units.filter fun (u, _) => scope ≠ 0 || barInstance c u 0 == inst).map fun (u, _) => (c, u)

/-- A party of some context has still to depart with a record of a generation. -/
def State.recordOwed (s : State) (home scope inst id : Nat) (g : Nat) : Bool :=
  s.cores.any fun (c, k) => barInstance c 0 scope == inst && k.units.any fun (_, r) =>
    s.barHome c r.info.ctx scope == home && r.waits.any fun w =>
      w.scope == scope && w.id == id && w.sum.isSome && !w.departed && w.token == some (BitVec.ofNat 32 g)

/-- A record is kept while a party has still to depart with it. -/
def State.settleRecords (s : State) (x : Context) (ctx scope inst id : Nat) : State :=
  match x.cores.find? fun c => barInstance c 0 scope == inst with
  | none => s
  | some c =>
    let b := s.barrier c ctx scope id
    let home := if scope = 1 then ctx else s.barHome c ctx scope
    if b.records.isEmpty then s
    else s.setBarrier c ctx scope id { b with records := b.records.filter fun y => s.recordOwed home scope inst id y.1 }

/-- The root of a pod barrier has acknowledged every arrival of this package there (R418, R419). -/
def State.podHeard (s : State) (k : CoreState) (id : Nat) : Bool :=
  match SMap.find s.link.fabric k.podRoot with
  | some f => f.replay.all fun x => x.2 != .arrive k.podSet id
  | none => true

/-- At a package that is not the root of a pod barrier the release comes from outside: it ends the generation in which this
package's parties wait, once the root has acknowledged their arrivals (R213, R419; log entries 20, 87). -/
def State.podReleased (s : State) (ctx : Nat) (x : Context) (scope inst id : Nat) : State :=
  match x.cores.find? fun c => (s.core c).podAway scope && barInstance c 0 scope == inst with
  | none => s
  | some c =>
    let b := s.barrier c ctx scope id
    if b.parties.isEmpty || !s.podHeard (s.core c) id then s else s.passPoint c ctx scope id b true

/-- The parties whose generation has passed its barrier point depart (R213). -/
def execBarrierDeparture (ctx scope inst id : Nat) (s : State) : Host.Outcome State Fault Refusal :=
  match s.context ctx with
  | none => .next s
  | some x =>
    if !x.placed || 6 < scope || 15 < id then .next s else
    let s := s.podReleased ctx x scope inst id
    let s := (s.instanceUnits x scope inst).foldl (fun s (c, u) => s.departUnit ctx scope id c u) s
    .next (if scope = 0 then s else s.settleRecords x ctx scope inst id)

/-- An arrival from another package counts against the E of the root's own instance (R419); one that finds it idle is not counted,
since no unit here can trap for it (R211; DESIGN CHOICE, log entry 87). -/
def State.countPod (s : State) (setId : BitVec 16) (id : Nat) : State :=
  match s.podMember setId with
  | none => s
  | some (ctx, c) =>
    if (s.barrier c ctx 6 id).expected = 0 then s
    else s.countParty c ctx 6 id ⟨0, 0, none, false, []⟩

/-- POD_ARRIVAL: an arrival packet of another package is taken from the CTL inbox that holds it, and counted (R313, R419). -/
def execPodArrival (setId : BitVec 16) (id : Nat) (s : State) : Host.Outcome State Fault Refusal :=
  let due := s.cores.findSome? fun (c, k) =>
    ((k.inbox .ctl).findIdx? fun m => m.msg == .podArrive setId id).map fun n => (c, n)
  match due with
  | none => .next s
  | some (c, n) => if !s.inTurn c .ctl n then .next s else .next ((s.take c .ctl n).countPod setId id)

end Sys2Proof.Machine
end

