-- ==== Sys2Proof/Machine/Integer.lean ====
section
/-! DEFINITION. The integer families IA, IL, IM, IB, II and LI (R98 to R108). -/

namespace Sys2Proof.Machine

/-- The w low bits (R58). -/
def lowBits (w : Nat) (v : Dword) : Dword := BitVec.ofNat 64 (v.toNat % 2 ^ w)

/-- The signed value of the w low bits (R58). -/
def signedOf (w : Nat) (v : Dword) : Int :=
  let n := v.toNat % 2 ^ w
  if n < 2 ^ (w - 1) then n else (n : Int) - 2 ^ w

/-- An integer modulo 2^w (R99). -/
def wrap (w : Nat) (x : Int) : Dword := BitVec.ofNat 64 (x % 2 ^ w).toNat

/-- The natural value of the w low bits. -/
def natOf (w : Nat) (v : Dword) : Nat := v.toNat % 2 ^ w

/-- An instruction of two w-bit sources and one w-bit result. -/
def binary (d a b : RegField) (g : GuardField) (f : Nat → Dword → Dword → Dword) (s : State) :
    Host.Outcome State Fault Refusal :=
  runUnit {} g (fun i s => s.lanewise i (.nat, d) [(.nat, a), (.nat, b)] fun v => f i.w (v 0) (v 1)) s

/-- An instruction of one w-bit source. -/
def unary (d a : RegField) (g : GuardField) (f : Nat → Dword → Dword) (s : State) : Host.Outcome State Fault Refusal :=
  runUnit {} g (fun i s => s.lanewise i (.nat, d) [(.nat, a)] fun v => f i.w (v 0)) s

/-- An instruction of three w-bit sources, C being D unless MOD names it (R34). -/
def ternary (d a b : RegField) (g : GuardField) (f : Nat → Dword → Dword → Dword → Dword) (s : State) :
    Host.Outcome State Fault Refusal :=
  runUnit { c := true } g (fun i s =>
    s.lanewise i (.nat, d) [(.nat, a), (.nat, b), (.nat, i.cField d)] fun v => f i.w (v 0) (v 1) (v 2)) s

/-! ### IA (R99) -/

def addValue (w : Nat) (a b : Dword) : Dword := wrap w (signedOf w a + signedOf w b)
def execAdd (d a b : RegField) (g : GuardField) (s : State) : Host.Outcome State Fault Refusal := binary d a b g addValue s

def subValue (w : Nat) (a b : Dword) : Dword := wrap w (signedOf w a - signedOf w b)
def execSub (d a b : RegField) (g : GuardField) (s : State) : Host.Outcome State Fault Refusal := binary d a b g subValue s

def mulValue (w : Nat) (a b : Dword) : Dword := wrap w (signedOf w a * signedOf w b)
def execMul (d a b : RegField) (g : GuardField) (s : State) : Host.Outcome State Fault Refusal := binary d a b g mulValue s

/-- Bits 2w-1 to w of the signed product. -/
def mulhValue (w : Nat) (a b : Dword) : Dword := wrap w (signedOf w a * signedOf w b / 2 ^ w)
def execMulh (d a b : RegField) (g : GuardField) (s : State) : Host.Outcome State Fault Refusal := binary d a b g mulhValue s

/-- Bits 2w-1 to w of the natural product. -/
def mulhnValue (w : Nat) (a b : Dword) : Dword := BitVec.ofNat 64 (natOf w a * natOf w b / 2 ^ w)
def execMulhn (d a b : RegField) (g : GuardField) (s : State) : Host.Outcome State Fault Refusal := binary d a b g mulhnValue s

def madValue (w : Nat) (a b c : Dword) : Dword := wrap w (signedOf w a * signedOf w b + signedOf w c)
def execMad (d a b : RegField) (g : GuardField) (s : State) : Host.Outcome State Fault Refusal := ternary d a b g madValue s

def minValue (w : Nat) (a b : Dword) : Dword := lowBits w (if signedOf w b < signedOf w a then b else a)
def execMinOp (d a b : RegField) (g : GuardField) (s : State) : Host.Outcome State Fault Refusal := binary d a b g minValue s

def maxValue (w : Nat) (a b : Dword) : Dword := lowBits w (if signedOf w a < signedOf w b then b else a)
def execMaxOp (d a b : RegField) (g : GuardField) (s : State) : Host.Outcome State Fault Refusal := binary d a b g maxValue s

/-! ### IL (R100) -/

def execAndOp (d a b : RegField) (g : GuardField) (s : State) : Host.Outcome State Fault Refusal :=
  binary d a b g (fun w a b => lowBits w (a &&& b)) s
def execOrOp (d a b : RegField) (g : GuardField) (s : State) : Host.Outcome State Fault Refusal :=
  binary d a b g (fun w a b => lowBits w (a ||| b)) s
def execXorOp (d a b : RegField) (g : GuardField) (s : State) : Host.Outcome State Fault Refusal :=
  binary d a b g (fun w a b => lowBits w (a ^^^ b)) s
def execAndn (d a b : RegField) (g : GuardField) (s : State) : Host.Outcome State Fault Refusal :=
  binary d a b g (fun w a b => lowBits w (a &&& ~~~b)) s

def shlValue (w : Nat) (a : Dword) (n : Nat) : Dword := BitVec.ofNat 64 (natOf w a * 2 ^ n % 2 ^ w)
def shrValue (w : Nat) (a : Dword) (n : Nat) : Dword := BitVec.ofNat 64 (natOf w a / 2 ^ n)
def sarValue (w : Nat) (a : Dword) (n : Nat) : Dword := wrap w (signedOf w a / 2 ^ n)
def rotlValue (w : Nat) (a : Dword) (n : Nat) : Dword :=
  BitVec.ofNat 64 (natOf w a * 2 ^ n % 2 ^ w + natOf w a / 2 ^ (w - n))

/-- A shift takes its amount modulo the operand width (R44, R100). -/
def execShl (d a b : RegField) (g : GuardField) (s : State) : Host.Outcome State Fault Refusal :=
  binary d a b g (fun w a b => shlValue w a (b.toNat % w)) s
def execShr (d a b : RegField) (g : GuardField) (s : State) : Host.Outcome State Fault Refusal :=
  binary d a b g (fun w a b => shrValue w a (b.toNat % w)) s
def execSar (d a b : RegField) (g : GuardField) (s : State) : Host.Outcome State Fault Refusal :=
  binary d a b g (fun w a b => sarValue w a (b.toNat % w)) s
def execRotl (d a b : RegField) (g : GuardField) (s : State) : Host.Outcome State Fault Refusal :=
  binary d a b g (fun w a b => rotlValue w a (b.toNat % w)) s

/-! ### IM (R101 to R103) -/

def minnValue (w : Nat) (a b : Dword) : Dword := BitVec.ofNat 64 (min (natOf w a) (natOf w b))
def execMinn (d a b : RegField) (g : GuardField) (s : State) : Host.Outcome State Fault Refusal := binary d a b g minnValue s

def maxnValue (w : Nat) (a b : Dword) : Dword := BitVec.ofNat 64 (max (natOf w a) (natOf w b))
def execMaxn (d a b : RegField) (g : GuardField) (s : State) : Host.Outcome State Fault Refusal := binary d a b g maxnValue s

def absValue (w : Nat) (a : Dword) : Dword := wrap w (if signedOf w a < 0 then -signedOf w a else signedOf w a)
def execAbsOp (d a : RegField) (g : GuardField) (s : State) : Host.Outcome State Fault Refusal := unary d a g absValue s

def execNeg (d a : RegField) (g : GuardField) (s : State) : Host.Outcome State Fault Refusal :=
  unary d a g (fun w a => wrap w (-signedOf w a)) s

def fshrValue (w : Nat) (a b c : Dword) : Dword :=
  BitVec.ofNat 64 ((natOf w b * 2 ^ w + natOf w a) / 2 ^ (c.toNat % w) % 2 ^ w)
def execFshr (d a b : RegField) (g : GuardField) (s : State) : Host.Outcome State Fault Refusal := ternary d a b g fshrValue s

/-- The bits of a field that lie inside the word (R102). -/
def fieldLength (w : Nat) (b : Dword) : Nat :=
  let pos := b.toNat % 64
  let len := b.toNat / 256 % 128
  if pos < w then min len (w - pos) else 0

def bfxValue (w : Nat) (a b : Dword) : Dword :=
  let pos := b.toNat % 64
  let l := fieldLength w b
  if l = 0 then 0
  else
    let f := natOf w a / 2 ^ pos % 2 ^ l
    if b.getLsbD 16 then wrap w (signedOf l (BitVec.ofNat 64 f)) else BitVec.ofNat 64 f
def execBfx (d a b : RegField) (g : GuardField) (s : State) : Host.Outcome State Fault Refusal := binary d a b g bfxValue s

def bfiValue (w : Nat) (a b c : Dword) : Dword :=
  let pos := b.toNat % 64
  let l := fieldLength w b
  let v := natOf w c
  if l = 0 then lowBits w c
  else BitVec.ofNat 64 (v / 2 ^ (pos + l) * 2 ^ (pos + l) + natOf w a % 2 ^ l * 2 ^ pos + v % 2 ^ pos)
def execBfi (d a b : RegField) (g : GuardField) (s : State) : Host.Outcome State Fault Refusal := ternary d a b g bfiValue s

/-- One result byte of BPRM (R103). -/
def permuteByte (ab sel k : Nat) : Nat :=
  let n := sel / 2 ^ (4 * k) % 16
  let t := ab / 2 ^ (8 * (n % 8)) % 256
  if 8 ≤ n then (if 128 ≤ t then 255 else 0) else t

def bprmValue (_ : Nat) (a b c : Dword) : Dword :=
  let ab := natOf 32 a + 2 ^ 32 * natOf 32 b
  let sel := natOf 32 c
  BitVec.ofNat 64 (permuteByte ab sel 0 + 256 * permuteByte ab sel 1 + 65536 * permuteByte ab sel 2
    + 16777216 * permuteByte ab sel 3)
def execBprm (d a b : RegField) (g : GuardField) (s : State) : Host.Outcome State Fault Refusal := ternary d a b g bprmValue s

/-! ### IB (R104, R105) -/

def popcount (n : Nat) (v : Nat) : Nat := ((List.range n).filter fun k => v.testBit k).length

def execPopc (d a : RegField) (g : GuardField) (s : State) : Host.Outcome State Fault Refusal :=
  unary d a g (fun w a => BitVec.ofNat 64 (popcount w a.toNat)) s

def clzValue (w : Nat) (a : Dword) : Dword :=
  BitVec.ofNat 64 (((List.range w).find? fun k => a.getLsbD (w - 1 - k)).getD w)
def execClz (d a : RegField) (g : GuardField) (s : State) : Host.Outcome State Fault Refusal := unary d a g clzValue s

def ctzValue (w : Nat) (a : Dword) : Dword := BitVec.ofNat 64 (((List.range w).find? fun k => a.getLsbD k).getD w)
def execCtz (d a : RegField) (g : GuardField) (s : State) : Host.Outcome State Fault Refusal := unary d a g ctzValue s

def brevValue (w : Nat) (a : Dword) : Dword :=
  BitVec.ofNat 64 ((List.range w).foldl (fun v k => v + (if a.getLsbD k then 2 ^ (w - 1 - k) else 0)) 0)
def execBrev (d a : RegField) (g : GuardField) (s : State) : Host.Outcome State Fault Refusal := unary d a g brevValue s

/-- An instruction of two 32-bit sources whose result is a pair in every kind of code (R104). -/
def widening (d a b : RegField) (g : GuardField) (f : Dword → Dword → Dword) (s : State) :
    Host.Outcome State Fault Refusal :=
  runUnit {} g (fun i s => s.lanewise i (.pair, d) [(.word, a), (.word, b)] fun v => f (v 0) (v 1)) s

def execMulw (d a b : RegField) (g : GuardField) (s : State) : Host.Outcome State Fault Refusal :=
  widening d a b g (fun a b => wrap 64 (signedOf 32 a * signedOf 32 b)) s
def execMulwn (d a b : RegField) (g : GuardField) (s : State) : Host.Outcome State Fault Refusal :=
  widening d a b g (fun a b => BitVec.ofNat 64 (natOf 32 a * natOf 32 b)) s

/-- ADDC and SUBC: C is D's even register unless MOD names it (R105). -/
def carrying (d a b : RegField) (g : GuardField) (f : Nat → Nat → Nat → Dword) (s : State) :
    Host.Outcome State Fault Refusal :=
  runUnit { c := true } g (fun i s =>
    s.lanewise i (.pair, d) [(.word, a), (.word, b), (.word, i.cField d)] fun v =>
      f (natOf 32 (v 0)) (natOf 32 (v 1)) ((v 2).toNat % 2)) s

def execAddc (d a b : RegField) (g : GuardField) (s : State) : Host.Outcome State Fault Refusal :=
  carrying d a b g (fun a b c => BitVec.ofNat 64 (a + b + c)) s

def subcValue (a b c : Nat) : Dword :=
  let t : Int := (a : Int) - b - c
  BitVec.ofNat 64 ((t % 2 ^ 32).toNat + if t < 0 then 2 ^ 32 else 0)
def execSubc (d a b : RegField) (g : GuardField) (s : State) : Host.Outcome State Fault Refusal := carrying d a b g subcValue s

/-! ### II and LI (R106 to R108) -/

/-- An instruction of a register and a nine-bit immediate, which XIMM extends (R36, R106). -/
def immediate (d a : RegField) (imm : BitVec 9) (g : GuardField) (f : Nat → Dword → Dword → Dword) (s : State) :
    Host.Outcome State Fault Refusal :=
  runUnit { ximm := true } g (fun i s =>
    s.lanewise i (.nat, d) [(.nat, a)] fun v => f i.w (v 0) (i.immediate 9 imm.toNat)) s

def execAddi (d a : RegField) (imm : BitVec 9) (g : GuardField) (s : State) : Host.Outcome State Fault Refusal :=
  immediate d a imm g addValue s
def execAndi (d a : RegField) (imm : BitVec 9) (g : GuardField) (s : State) : Host.Outcome State Fault Refusal :=
  immediate d a imm g (fun w a b => lowBits w (a &&& b)) s
def execOri (d a : RegField) (imm : BitVec 9) (g : GuardField) (s : State) : Host.Outcome State Fault Refusal :=
  immediate d a imm g (fun w a b => lowBits w (a ||| b)) s
def execXori (d a : RegField) (imm : BitVec 9) (g : GuardField) (s : State) : Host.Outcome State Fault Refusal :=
  immediate d a imm g (fun w a b => lowBits w (a ^^^ b)) s

/-- SHI by its kind (R107). -/
def shiValue (kind w : Nat) (a : Dword) (n : Nat) : Dword :=
  if kind = 0 then shlValue w a n else if kind = 1 then shrValue w a n else if kind = 2 then sarValue w a n
  else rotlValue w a n

/-- R44, R107: amounts 32 to 63 in group code are ILLEGAL (kinds 4 to 7 do not decode). -/
def execShi (d a : RegField) (k : BitVec 2) (n : BitVec 6) (g : GuardField) (s : State) : Host.Outcome State Fault Refusal :=
  runUnit {} g (fun i s =>
    let kind := k.toNat
    let n := n.toNat
    if i.w ≤ n then i.illegal 0 s
    else s.lanewise i (.nat, d) [(.nat, a)] fun v => shiValue kind i.w (v 0) n) s

def execLimm (d : RegField) (imm : BitVec 15) (g : GuardField) (s : State) : Host.Outcome State Fault Refusal :=
  runUnit { ximm := true } g (fun i s => s.lanewise i (.nat, d) [] fun _ => lowBits i.w (i.immediate 15 imm.toNat)) s

end Sys2Proof.Machine
end

