-- ==== Sys2Proof/Machine/Memory.lean ====
section
/-! DEFINITION. The memory families LS, AT, AX and VX (R195 to R207). -/

namespace Sys2Proof.Machine

/-- A memory instruction: XIMM, the lease hint, and the order of its events. -/
def memoryAttr : Attr := { lease := true, event := true }
/-- One that stores, which returns the spin count to zero (R135). -/
def storeAttr : Attr := { lease := true, event := true, spin := true }

/-- The access size of SZ (R24). -/
def sizeOf' (sz : BitVec 2) : Nat := 2 ^ sz.toNat

/-- The class of the register that an access moves (R45). -/
def sizeCls (sz : BitVec 2) : Cls := if sz = 3 then .pair else .nat

/-- The byte offset of an M-format word (R24, R36). -/
def Issue.offset (i : Issue) (sz : BitVec 2) (o : BitVec 7) : Dword :=
  if i.front.hints.ximm.isSome then i.immediate 7 o.toNat
  else i.immediate 7 o.toNat * BitVec.ofNat 64 (sizeOf' sz)

/-- An address modulo 2^32. -/
def addr32 (a : Dword) : Dword := a &&& 0xFFFFFFFF

/-- A load (R196). -/
def loadUnit (p : Space) (t b : RegField) (o : BitVec 7) (sz : BitVec 2) (g : GuardField) (s : State) :
    Host.Outcome State Fault Refusal :=
  runUnit { memoryAttr with ximm := true } g (fun i s =>
    if !i.regOk true (sizeCls sz) t || !i.regOk false .nat b then i.illegal 0 s
    else match s.operands i [(.nat, b)] [t] with
      | .stop e => e
      | .ok v u =>
        let l := s.accesses i p (sizeOf' sz) fun l => addr32 (nth v 0 l + i.offset sz o)
        match i.addressTrap l with
        | some r => .trap r s
        | none => s.accessing (fun s => s.loadLanes i (sizeOf' sz) (targets l)) u fun vals u =>
          s.result u i (sizeCls sz) t fun l => BitVec.ofNat 64 ((SMap.find vals l).getD 0)) s

/-- A store (R196): the base is read first, then the value. -/
def storeUnit (p : Space) (t b : RegField) (o : BitVec 7) (sz : BitVec 2) (g : GuardField) (s : State) :
    Host.Outcome State Fault Refusal :=
  runUnit { storeAttr with ximm := true } g (fun i s =>
    if !i.regOk false (sizeCls sz) t || !i.regOk false .nat b then i.illegal 0 s
    else match s.operands i [(.nat, b), (sizeCls sz, t)] [] with
      | .stop e => e
      | .ok v u =>
        let l := s.accesses i p (sizeOf' sz) fun l => addr32 (nth v 0 l + i.offset sz o)
        match i.addressTrap l with
        | some r => .trap r s
        | none => s.accessing (fun s => s.storeLanes i (sizeOf' sz) (targets l) fun l => (nth v 1 l).toNat) u fun _ u => .done u) s

def execLdl (t b : RegField) (o : BitVec 7) (sz : BitVec 2) (g : GuardField) (s : State) : Host.Outcome State Fault Refusal :=
  loadUnit .local t b o sz g s
def execStl (t b : RegField) (o : BitVec 7) (sz : BitVec 2) (g : GuardField) (s : State) : Host.Outcome State Fault Refusal :=
  storeUnit .local t b o sz g s
def execLdc (t b : RegField) (o : BitVec 7) (sz : BitVec 2) (g : GuardField) (s : State) : Host.Outcome State Fault Refusal :=
  loadUnit .cluster t b o sz g s
def execStc (t b : RegField) (o : BitVec 7) (sz : BitVec 2) (g : GuardField) (s : State) : Host.Outcome State Fault Refusal :=
  storeUnit .cluster t b o sz g s

/-! ### AT and ACAS (R197, R198) -/

/-- Atomics whose old values go to D, at once or when every home has replied. -/
def State.atomicUnit (s u : State) (i : Issue) (d : RegField) (ts : List Target) (op : Nat → AtomicOp) (b : Nat → Word) : Eff :=
  let reply := d != 60
  let (id, u) := u.newId i.core
  s.accessing (fun s => s.atomicLanes i ts op b reply id) u fun olds u =>
    let missing := (ts.filter (·.core ≠ i.core)).foldl (fun m t => m ||| laneBit t.lane) 0
    if missing = 0 || !reply then s.result u i .word d fun l => (SMap.find olds l).getD 0
    else .done ((u.keepPlace i d 1).addPending i (i.pendingUnit id d false missing olds))

/-- An instruction of the AT family; `expected` reads D as well. -/
def atomicInstr (d a b : RegField) (cas : Bool) (op : Word → AtomicOp) (g : GuardField) (s : State) :
    Host.Outcome State Fault Refusal :=
  runUnit storeAttr g (fun i s =>
    let srcs := [(Cls.nat, a), (Cls.word, b)] ++ if cas then [(Cls.word, d)] else []
    if !i.regOk true .word d || !(srcs.all fun x => i.regOk false x.1 x.2) then i.illegal 0 s
    else match s.operands i srcs [d] with
      | .stop e => e
      | .ok v u =>
        let l := s.accesses i .unified 4 fun l => addr32 (nth v 0 l)
        match i.addressTrap l with
        | some r => .trap r s
        | none => s.atomicUnit u i d (targets l) (fun l => op ((nth v 2 l).setWidth 32)) fun l => (nth v 1 l).setWidth 32) s

def execAadd (d a b : RegField) (g : GuardField) (s : State) : Host.Outcome State Fault Refusal :=
  atomicInstr d a b false (fun _ => .add) g s
def execAmin (d a b : RegField) (g : GuardField) (s : State) : Host.Outcome State Fault Refusal :=
  atomicInstr d a b false (fun _ => .min) g s
def execAmax (d a b : RegField) (g : GuardField) (s : State) : Host.Outcome State Fault Refusal :=
  atomicInstr d a b false (fun _ => .max) g s
def execAand (d a b : RegField) (g : GuardField) (s : State) : Host.Outcome State Fault Refusal :=
  atomicInstr d a b false (fun _ => .and) g s
def execAor (d a b : RegField) (g : GuardField) (s : State) : Host.Outcome State Fault Refusal :=
  atomicInstr d a b false (fun _ => .or) g s
def execAxor (d a b : RegField) (g : GuardField) (s : State) : Host.Outcome State Fault Refusal :=
  atomicInstr d a b false (fun _ => .xor) g s
def execAxch (d a b : RegField) (g : GuardField) (s : State) : Host.Outcome State Fault Refusal :=
  atomicInstr d a b false (fun _ => .xchg) g s
def execAfadd (d a b : RegField) (g : GuardField) (s : State) : Host.Outcome State Fault Refusal :=
  atomicInstr d a b false (fun _ => .fadd) g s
def execAcas (d a b : RegField) (g : GuardField) (s : State) : Host.Outcome State Fault Refusal :=
  atomicInstr d a b true .cas g s

/-! ### Watching and waiting (R193, R194, R199 to R201) -/

/-- Registers a watch, unless the core's 64 places are full (R193, R194). -/
def State.watchLine (s : State) (i : Issue) (home line : Nat) : State :=
  let ws := (s.core i.core).cluster.watches
  let lines := ws.foldl (fun (l : List (Nat × Nat)) w => if l.contains (w.home, w.line) then l else (w.home, w.line) :: l) []
  if ws.any fun w => w.home == home && w.line == line && w.who == i.who then s
  else if !lines.contains (home, line) && decide (64 ≤ lines.length) then s
  else
    let s := s.modCluster i.core fun p => { p with watches := p.watches ++ [⟨home, line, i.who⟩] }
    s.modCluster home fun p => { p with homes := SMap.put p.homes line ((p.home line).watch i.core) }

/-- Releases a stream's watch of a line. -/
def State.unwatchLine (s : State) (i : Issue) (home line : Nat) : State :=
  let s := s.modCluster i.core fun p => { p with
    watches := p.watches.filter fun w => !(w.home == home && w.line == line && w.who == i.who) }
  if (s.core i.core).cluster.watches.any fun w => w.home == home && w.line == line then s
  else s.modCluster home fun p =>
    { p with homes := SMap.alter p.homes line (·.unwatch i.core) }

/-- WATCH and UNWATCH: no event, no value. -/
def watchUnit (f : State → Issue → Nat → Nat → State) (a : RegField) (g : GuardField) (s : State) :
    Host.Outcome State Fault Refusal :=
  runUnit { lease := true } g (fun i s =>
    if !i.regOk false .nat a then i.illegal 0 s
    else match s.operands i [(.nat, a)] [] with
      | .stop e => e
      | .ok v u =>
        let l := s.accesses i .unified 4 fun l => addr32 (nth v 0 l)
        match i.addressTrap l with
        | some r => .trap r s
        | none => .done ((targets l).foldl (fun u t => f u i t.core (t.off / 64)) u)) s

def execWatch (a : RegField) (g : GuardField) (s : State) : Host.Outcome State Fault Refusal := watchUnit State.watchLine a g s
def execUnwatch (a : RegField) (g : GuardField) (s : State) : Host.Outcome State Fault Refusal :=
  watchUnit State.unwatchLine a g s

/-- WAITW and WAITGE: the unit issues once every active lane's condition holds (R200). -/
def waitUnit (holds : Word → Word → Bool) (d a b : RegField) (g : GuardField) (s : State) :
    Host.Outcome State Fault Refusal :=
  runUnit { memoryAttr with h := false } g (fun i s =>
    if !i.regOk true .word d || !i.regOk false .nat a || !i.regOk false .word b then i.illegal 0 s
    else match s.operands i [(.nat, a), (.word, b)] [d] with
      | .stop e => e
      | .ok v u =>
        let l := s.accesses i .unified 4 fun l => addr32 (nth v 0 l)
        match i.addressTrap l with
        | some r => .trap r s
        | none => s.accessing (fun s => s.loadLanes i 4 (targets l)) u fun vals u =>
          let w (l : Nat) : Word := BitVec.ofNat 32 ((SMap.find vals l).getD 0)
          if (lanesOf i.active).all fun l => holds (w l) ((nth v 1 l).setWidth 32) then
            s.result u i .word d fun l => (w l).setWidth 64
          else .wait s) s

def execWaitw (d a b : RegField) (g : GuardField) (s : State) : Host.Outcome State Fault Refusal :=
  waitUnit (fun w b => w != b) d a b g s
def execWaitge (d a b : RegField) (g : GuardField) (s : State) : Host.Outcome State Fault Refusal :=
  waitUnit (fun w b => decide (0 ≤ (w - b).toInt)) d a b g s

/-! ### FENCE, LDX and STX (R202) -/

/-- The stream's next unit waits until what any lane of the path has sent is completed: the path's lanes hold those units. -/
def State.raiseFence (s : State) (i : Issue) : State :=
  s.modOut i.core i.who fun l => l.map fun o => if o.meets i.lanes then { o with held := o.held ||| i.lanes } else o

def execFence (g : GuardField) (s : State) : Host.Outcome State Fault Refusal :=
  runUnit { lease := true } g (fun i s => .done (s.raiseFence i)) s

/-- The access of LDX and STX in one lane: the index moves the local address or OFF only. TADDR of CLUSTER_ADDR is A, and that of
MISALIGN the moved address A + 4b: 'the unified address' of R202 can be either (DESIGN CHOICE, log entry 89). -/
def State.indexed (s : State) (i : Issue) (a : Dword) (b : Word) : Dword × Except Nat (Nat × Nat) :=
  match s.locate i .unified a.toNat with
  | none => (a, .error Cause.clusterAddr)
  | some (_, off) =>
    let sum : Int := (off : Int) + 4 * b.toInt
    if sum < 0 || decide (2 ^ 20 ≤ sum) then (BitVec.ofInt 64 sum, .error Cause.lsBound)
    else
      let word := BitVec.ofNat 64 (a.toNat / 2 ^ 20 * 2 ^ 20 + sum.toNat)
      (word, s.resolve i .unified word.toNat 4)

def State.indexedAccesses (s : State) (i : Issue) (v : List (Nat → Dword)) : List LaneAccess :=
  (lanesOf i.active).map fun l => (l, s.indexed i (addr32 (nth v 0 l)) ((nth v 1 l).setWidth 32))

def execLdx (d a b : RegField) (g : GuardField) (s : State) : Host.Outcome State Fault Refusal :=
  runUnit memoryAttr g (fun i s =>
    if !i.regOk true .word d || !i.regOk false .nat a || !i.regOk false .word b then i.illegal 0 s
    else match s.operands i [(.nat, a), (.word, b)] [d] with
      | .stop e => e
      | .ok v u =>
        let l := s.indexedAccesses i v
        match i.addressTrap l with
        | some r => .trap r s
        | none => s.accessing (fun s => s.loadLanes i 4 (targets l)) u fun vals u =>
          s.result u i .word d fun l => BitVec.ofNat 64 ((SMap.find vals l).getD 0)) s

def execStx (d a b : RegField) (g : GuardField) (s : State) : Host.Outcome State Fault Refusal :=
  runUnit storeAttr g (fun i s =>
    if !i.regOk false .word d || !i.regOk false .nat a || !i.regOk false .word b then i.illegal 0 s
    else match s.operands i [(.nat, a), (.word, b), (.word, d)] [] with
      | .stop e => e
      | .ok v u =>
        let l := s.indexedAccesses i v
        match i.addressTrap l with
        | some r => .trap r s
        | none => s.accessing (fun s => s.storeLanes i 4 (targets l) fun l => (nth v 2 l).toNat) u fun _ u => .done u) s

/-! ### VX (R203 to R207) -/

/-- Legal in group code only; no queue register may be named (R207). -/
def vectorAttr : Attr := { memoryAttr with l := false, h := false }

def Issue.plainRegs (i : Issue) (write : List RegField) (read : List RegField) : Bool :=
  (write.all fun f => i.regOk true .nat f && !isQueue f) && (read.all fun f => i.regOk false .nat f && !isQueue f)

/-- The ranks of the active lanes: lane and place. -/
def Issue.ranked (i : Issue) : List (Nat × Nat) := (lanesOf i.active).zipIdx

/-- A local access of one lane at base + 4 rank. -/
def State.rankAccess (s : State) (i : Issue) (base : Nat) (x : Nat × Nat) : LaneAccess :=
  (x.1, BitVec.ofNat 64 ((base + 4 * x.2) % 2 ^ 32), s.resolve i .local ((base + 4 * x.2) % 2 ^ 32) 4)

def LaneAccess.isOk (x : LaneAccess) : Bool := match x.2.2 with | .ok _ => true | .error _ => false

/-- R203: compacted stores; a short run of valid addresses completes in part and traps. -/
def execCstr (d a b : RegField) (g : GuardField) (s : State) : Host.Outcome State Fault Refusal :=
  runUnit { vectorAttr with spin := true } g (fun i s =>
    if !i.plainRegs [d] [a, b] then i.illegal 0 s
    else match s.operands i [(.nat, a), (.nat, b)] [] with
      | .stop e => e
      | .ok v u =>
        let base := (nth v 0 (lowestLane i.active)).toNat
        if base % 4 ≠ 0 then i.trapAt Cause.misalign base 0 s
        else
          let all := i.ranked.map (s.rankAccess i base)
          let good := all.takeWhile (·.isOk)
          s.accessing (fun s => s.storeLanes i 4 (targets good) fun l => (nth v 1 l).toNat) u fun _ u =>
            let u := u.writeLanes i .nat d i.active fun _ => BitVec.ofNat 64 good.length
            match all.drop good.length with
            | [] => .done u
            | x :: r => .trap ⟨Cause.lsBound, (x :: r).foldl (fun m y => m ||| laneBit y.1) 0, x.2.1,
                BitVec.ofNat 64 good.length⟩ u) s

/-- R204: the reverse of CSTR. -/
def execXlde (d a : RegField) (g : GuardField) (s : State) : Host.Outcome State Fault Refusal :=
  runUnit vectorAttr g (fun i s =>
    if !i.plainRegs [d] [a] then i.illegal 0 s
    else match s.operands i [(.nat, a)] [] with
      | .stop e => e
      | .ok v u =>
        let base := (nth v 0 (lowestLane i.active)).toNat
        if base % 4 ≠ 0 then i.trapAt Cause.misalign base 0 s
        else
          let l := i.ranked.map (s.rankAccess i base)
          match i.addressTrap l with
          | some r => .trap r s
          | none => s.accessing (fun s => s.loadLanes i 4 (targets l)) u fun vals u =>
            .done (u.writeLanes i .nat d i.active fun l => BitVec.ofNat 64 ((SMap.find vals l).getD 0))) s

/-- The lowest active lane of a lane's octet. -/
def Issue.octetLead (i : Issue) (l : Nat) : Nat :=
  ((List.range 8).find? fun e => i.active.getLsbD (l / 8 * 8 + e)).getD 0 + l / 8 * 8

/-- The accesses of LDT for row j, lane by lane. -/
def Issue.blockAccesses (i : Issue) (v : List (Nat → Dword)) (j : Nat) : List LaneAccess :=
  (lanesOf i.active).map fun l =>
    let o := i.octetLead l
    let base := (nth v 0 o).toNat
    let stride := (nth v 1 o).toNat
    let a := (base + j * stride + 4 * (l % 8)) % 2 ^ 32
    let r := if !i.window.holds a 4 then .error Cause.lsBound
      else if base % 4 ≠ 0 || stride % 4 ≠ 0 then .error Cause.misalign
      else .ok (i.core, a)
    (l, BitVec.ofNat 64 a, r)

/-- R205: 8 x 8 blocks with lane transposition. -/
def execLdt (d a b : RegField) (g : GuardField) (s : State) : Host.Outcome State Fault Refusal :=
  runUnit vectorAttr g (fun i s =>
    if !i.plainRegs [] [a, b] || (49 ≤ d.toNat && d.toNat ≤ 63) || i.regs ≤ d.toNat + 7 then i.illegal 0 s
    else match s.operands i [(.nat, a), (.nat, b)] [] with
      | .stop e => e
      | .ok v u =>
        let rows := (List.range 8).map (i.blockAccesses v)
        let worst := (lanesOf i.active).map fun l =>
          let mine := rows.filterMap fun r => r.find? (·.1 == l)
          ((failing mine Cause.lsBound ++ failing mine Cause.misalign).head?).getD ((mine.head?).getD (l, 0, .ok (0, 0)))
        match i.addressTrap worst with
        | some r => .trap r s
        | none => s.accessing (fun s => s.localPages i (rows.flatMap targets)) u fun _ u =>
          .done (rows.zipIdx.foldl (fun u (r, j) =>
            let (vals, _, u) := u.loadEach i 4 (targets r)
            u.writeLanes i .nat (d + BitVec.ofNat 6 j) i.active fun l => BitVec.ofNat 64 ((SMap.find vals l).getD 0)) u)) s

/-- R206: one aligned block, a word of it to each lane. -/
def execBldl (d a b : RegField) (g : GuardField) (s : State) : Host.Outcome State Fault Refusal :=
  runUnit vectorAttr g (fun i s =>
    if !i.plainRegs [d] [a, b] then i.illegal 0 s
    else match s.operands i [(.nat, a), (.nat, b)] [] with
      | .stop e => e
      | .ok v u =>
        let base := (nth v 0 (lowestLane i.active)).toNat
        if !i.window.holds base 64 then i.trapAt Cause.lsBound base 0 s
        else if base % 64 ≠ 0 then i.trapAt Cause.misalign base 0 s
        else
          s.accessing (fun s => s.localPages i [⟨lowestLane i.active, i.core, base, BitVec.ofNat 64 base⟩]) u fun _ u =>
            let (block, u) := u.loadLocal i.agent i.core base 64
            .done (u.writeLanes i .nat d i.active fun l =>
              BitVec.ofNat 64 (block / 2 ^ (32 * ((nth v 1 l).toNat % 16)) % 2 ^ 32))) s

end Sys2Proof.Machine
end

