-- ==== Sys2Proof/Machine/Irregular.lean ====
section
/-! DEFINITION. Gathers, scatters and hash tables: the IR family (R302 to R310), and the performing of element messages at their
owners (R303, R441). -/

namespace Sys2Proof.Machine

/-- Legal in group code only; MOD gives HACC its C (R310). -/
def irregularAttr : Attr := { l := false, h := false, event := true }

/-- The fields of an IR word: A a pair, no queue register (R310). -/
def Issue.tableOk (i : Issue) (a : RegField) (write read : List RegField) : Bool :=
  i.regOk false .pair a && (write.all fun f => i.regOk true .nat f && !isQueue f) && (read.all fun f => i.regOk false .nat f && !isQueue f)

/-- A plain register of a lane of the issuing group. -/
def State.laneWord (s : State) (i : Issue) (f : RegField) (lane : Nat) : Word := (s.source i .nat f none lane).setWidth 32

/-- The table descriptor: BASE and LEN with the bits above it (R302). -/
def State.table (s : State) (i : Issue) (a : RegField) : Nat × Nat :=
  let d := (s.source i .pair a none (lowestLane i.active)).toNat
  (d % 2 ^ 32, d / 2 ^ 32)

/-- BASE names no space (R302). -/
def namesNoSpace (base : Nat) : Bool :=
  let top := base / 2 ^ 27
  top != 0 && (top != 16 || base / 2 ^ 20 % 128 != 0)

/-- An element: its word's offset at the owner, or the reason and TADDR of a bad one (R302, R442). -/
def State.element (s : State) (i : Issue) (base len b : Nat) : Except (Nat × Nat) Nat :=
  let sum := base % 2 ^ 20 + 4 * b
  match s.locate i .unified base with
  | none => .error (1, (base + 4 * b) % 2 ^ 32)
  | some _ =>
    if len ≤ b then .error (0, (base + 4 * b) % 2 ^ 32)
    else if 2 ^ 20 ≤ sum then .error (2, sum)
    else if !i.window.holds sum 4 then .error (2, base / 2 ^ 20 * 2 ^ 20 + sum)
    else .ok sum

/-- The good elements of a unit: lane and offset. -/
def goodElements (l : List (Nat × Except (Nat × Nat) Nat)) : List (Nat × Nat) :=
  l.filterMap fun x => match x.2 with
    | .ok off => some (x.1, off)
    | .error _ => none

/-- INDEX_RANGE of a unit's bad elements (R306). -/
def indexRange (l : List (Nat × Except (Nat × Nat) Nat)) : Option TrapRec :=
  let bad := l.filterMap fun x => match x.2 with
    | .ok _ => none
    | .error e => some (x.1, e)
  match bad with
  | [] => none
  | (_, reason, addr) :: _ =>
    some ⟨Cause.indexRange, bad.foldl (fun m x => m ||| laneBit x.1) 0, BitVec.ofNat 64 addr, BitVec.ofNat 64 (reason + 256 * bad.length)⟩

/-- Inserts an element by ascending offset, after those of the same offset. -/
def byOffset (x : Nat × Nat) : List (Nat × Nat) → List (Nat × Nat)
  | [] => [x]
  | y :: r => if x.2 < y.2 then x :: y :: r else y :: byOffset x r

/-- Good elements in ascending address order, lanes ascending within an address (R303). -/
def ascending (l : List (Nat × Nat)) : List (Nat × Nat) := l.foldl (fun acc x => byOffset x acc) []

/-- The distinct offsets of ascending elements. -/
def offsets : List (Nat × Nat) → List Nat
  | [] => []
  | x :: r => x.2 :: (offsets r).filter (· ≠ x.2)

/-- Sends records as a train of packets of at most 14 (R441). -/
def State.sendTrain (s : State) (send : State → Msg → State) (m : Part → List Element → Msg) (l : List Element) : State :=
  let n := (l.length + 13) / 14
  (List.range n).foldl (fun s j => send s (m ⟨j, n⟩ ((l.drop (14 * j)).take 14))) s

/-- The element message of a unit to its owner (R303, R441); an own message takes an inbox place at once. -/
def State.sendElements (s : State) (i : Issue) (owner origin : Nat) (op : ElementOp) (l : List Element) (id : Nat) : State :=
  let s := s.ahead i.core .req
  let t := (s.core i.core).cluster.clock
  (s.sendTrain (fun s m => if owner = i.core then s.post i.core .req m else s.send i.core owner .req m)
    (fun p r => .elements p op origin r t (i.asker id)) l).sent i ⟨id, i.start, i.lanes, 0, 1, [], 0⟩

/-- A unit's elements are sent to their owner; it waits for the replies, to trap (R306) or for its results (R308, R309), and
issues again with them. -/
def State.sendAndWait (s : State) (i : Issue) (owner origin : Nat) (op : ElementOp) (l : List Element) (d : RegField)
    (writes : LaneMask) (after : Option TrapRec) : Eff :=
  if owner = i.core && !s.ownRoom i.core then .wait s
  else
    let (id, s) := s.newId i.core
    .moved ((s.sendElements i owner origin op l id).addPending i
      { i.pendingUnit id d false i.lanes [] with after := after, writes := writes })

/-- A unit's elements are sent: it completes, its values to be written later, or waits to trap (R303, R304, R306). -/
def State.irregular (s : State) (i : Issue) (base : Nat) (owner : Option Nat) (d : RegField) (awaited : LaneMask)
    (after : Option TrapRec) (op : ElementOp) (l : List Element) : Eff :=
  let origin := base / 2 ^ 20 * 2 ^ 20
  match owner, l with
  | some c, _ :: _ => match after with
    | some t => s.sendAndWait i c origin op l d awaited (some t)
    | none =>
      if c = i.core && !s.ownRoom i.core then .wait s
      else
        let (id, s) := s.newId i.core
        let s := s.sendElements i c origin op l id
        if awaited = 0 then .done s
        else .done ((s.modUnit i.core i.unit fun r => (lanesOf awaited).foldl (fun r l => r.overwritten l [d.toNat]) r).addPending i
          { i.pendingUnit id d false awaited [] with writes := awaited, loose := true })
  | _, _ => match after with
    | some t => .trap t s
    | none => .done s

/-- The shape of GATHER and the scatter family: the descriptor's traps, then the elements (R302, R306). -/
def tableUnit (a b : RegField) (write read : List RegField) (g : GuardField)
    (f : Issue → Nat → Option Nat → List (Nat × Nat) → Option TrapRec → State → Eff) (s : State) : Host.Outcome State Fault Refusal :=
  runUnit { irregularAttr with spin := write.isEmpty } g (fun i s =>
    if !i.tableOk a write (b :: read) then i.illegal 0 s
    else match s.acknowledged i with
      | some p =>
        let s := s.setPending (i.asker p.id) none
        match p.after with
        | some t => .trap t s
        | none => .done s
      | none =>
        if s.tokenPending i (fieldRegs .pair a ++ (b :: read).map (·.toNat)) then .wait s
        else
          let (base, len) := s.table i a
          if len = 0 || 2 ^ 24 ≤ len then i.trapAt Cause.illegal 0 22 s
          else if namesNoSpace base then i.trapAt Cause.clusterAddr base 0 s
          else if base % 4 ≠ 0 then i.trapAt Cause.misalign base 0 s
          else
            let l := (lanesOf i.active).map fun l => (l, s.element i base len (s.laneWord i b l).toNat)
            f i base ((s.locate i .unified base).map (·.1)) (ascending (goodElements l)) (indexRange l) s) s

def execGather (d a b : RegField) (g : GuardField) (s : State) : Host.Outcome State Fault Refusal :=
  tableUnit a b [d] [] g (fun i base owner good after s =>
    s.irregular i base owner d (if d = 60 then 0 else good.foldl (fun m x => m ||| laneBit x.1) 0) after .read
      (good.map fun x => ⟨x.1, x.2, 0, false⟩)) s

/-- The lanes' values for each address, combined in lane order (R305). -/
def combined (u : Word → Word → Word) (v : Nat → Word) (good : List (Nat × Nat)) (off : Nat) : Word :=
  match (good.filter fun x => x.2 == off).map fun x => v x.1 with
  | [] => 0
  | w :: r => r.foldl u w

/-- The scatter family (R305). -/
def scatterUnit (op : AtomicOp) (d a b : RegField) (g : GuardField) (s : State) : Host.Outcome State Fault Refusal :=
  tableUnit a b [] [d] g (fun i base owner good after s =>
    s.irregular i base owner 60 0 after (.update op) ((offsets good).map fun off =>
      ⟨((good.find? fun x => x.2 == off).map (·.1)).getD 0, off, combined op.apply (s.laneWord i d) good off, false⟩)) s

def execScatter (d a b : RegField) (g : GuardField) (s : State) : Host.Outcome State Fault Refusal := scatterUnit .xchg d a b g s
def execScadd (d a b : RegField) (g : GuardField) (s : State) : Host.Outcome State Fault Refusal := scatterUnit .add d a b g s
def execScfadd (d a b : RegField) (g : GuardField) (s : State) : Host.Outcome State Fault Refusal := scatterUnit .fadd d a b g s
def execScmin (d a b : RegField) (g : GuardField) (s : State) : Host.Outcome State Fault Refusal := scatterUnit .min d a b g s
def execScmax (d a b : RegField) (g : GuardField) (s : State) : Host.Outcome State Fault Refusal := scatterUnit .max d a b g s

/-! ### Hash tables (R307 to R309) -/

/-- The slot of probe p of a key in a table of 2^logc slots (R307). -/
def probeSlot (key logc p : Nat) : Nat := (key * 0x9E3779B1 % 2 ^ 32 / 2 ^ (32 - logc) + p) % 2 ^ logc

/-- The checks of HACC and HFIND before any effect (R307, R308). -/
def State.hashTrap (s : State) (i : Issue) (base logc : Nat) (keys : List (Nat × Nat)) (reserved : Bool) : Option Eff :=
  if 2 ^ 20 ≤ base || logc < 4 || 17 < logc then some (i.illegal 22 s)
  else if !i.window.holds base (8 * 2 ^ logc) then some (i.trapAt Cause.lsBound base 0 s)
  else if base % 8 ≠ 0 then some (i.trapAt Cause.misalign base 0 s)
  else
    let bad := keys.filter fun x => reserved && x.2 == 0xFFFFFFFF
    if bad.isEmpty then none
    else some (.trap ⟨Cause.indexRange, bad.foldl (fun m x => m ||| laneBit x.1) 0, 0, BitVec.ofNat 64 (3 + 256 * bad.length)⟩ s)

/-- The shape of HACC and HFIND: the descriptor's checks, then the element message of the lanes' keys to the issuing core itself;
with the reply, the results (R307 to R309, R441). `value` is what a lane sends with its key. -/
def hashUnit (d a b : RegField) (g : GuardField) (reserved : Bool) (op : Nat → Nat → ElementOp) (value : State → Issue → Nat → Word)
    (extra : Issue → List RegField) (results : State → Issue → SMap Dword → State) (t : Attr) (s : State) :
    Host.Outcome State Fault Refusal :=
  runUnit t g (fun i s =>
    let read := b :: extra i
    if !i.tableOk a [d] read then i.illegal 0 s
    else match s.acknowledged i with
      | some p =>
        let s := s.setPending (i.asker p.id) none
        match p.after with
        | some t => .trap t s
        | none => .done (results s i p.values)
      | none =>
        if s.tokenPending i (fieldRegs .pair a ++ read.map (·.toNat)) then .wait s
        else
          let (base, logc) := s.table i a
          let keys := (lanesOf i.active).map fun l => (l, (s.laneWord i b l).toNat)
          match s.hashTrap i base logc keys reserved with
          | some e => e
          | none => s.sendAndWait i i.core 0 (op base logc) (keys.map fun x => ⟨x.1, x.2, value s i x.1, false⟩) d i.active none) s

/-- The lanes that a reply marks done, or found. -/
def marked (vs : SMap Dword) : List Nat := (vs.filter fun x => x.2.getLsbD 32).map (·.1)

/-- HACC (R308): how many lanes are done goes to D, and whether all are to p63. -/
def execHacc (d a b : RegField) (g : GuardField) (s : State) : Host.Outcome State Fault Refusal :=
  hashUnit d a b g true .insert (fun s i l => s.laneWord i (i.cField d) l) (fun i => [i.cField d])
    (fun s i vs => (s.writeLanes i .nat d i.active fun _ => BitVec.ofNat 64 (marked vs).length).writePreds i 63
      fun _ => (marked vs).length == (lanesOf i.active).length)
    { irregularAttr with c := true, spin := true } s

/-- HFIND (R309): a lane's value, and whether its key is found. -/
def execHfind (d a b : RegField) (g : GuardField) (s : State) : Host.Outcome State Fault Refusal :=
  hashUnit d a b g false .find (fun _ _ _ => 0) (fun _ => [])
    (fun s i vs => (s.writeLanes i .nat d i.active fun l => BitVec.ofNat 64 (((SMap.find vs l).getD 0).toNat % 2 ^ 32)).writePreds i 63
      fun l => (marked vs).contains l)
    irregularAttr s

/-! ### At the owner (R303 to R305, R441) -/

/-- The search for a key from probe p on, `n` probes left: the slot where it is found, or where the first empty slot stands. Each
key word read is a load event, and only its page is demanded, of `s0`, the state before the message (R180, R308, R309). -/
def State.probe (s0 : State) (g : Agent) (c : Nat) (who : Issuer) (base logc key p : Nat) : Nat → State → Access (Option (Nat × Bool))
  | 0, s => .ready none s
  | n + 1, s =>
    let a := base + 8 * probeSlot key logc p
    match s0.pages c g.ctx [a] (some who) with
    | .waiting s => .waiting s
    | .refused a cause s => .refused ⟨cause, 0, BitVec.ofNat 64 a, 0⟩ s
    | .ready =>
      let (w, s) := s.loadLocal g c a 4
      if w = key && key != 0xFFFFFFFF then .ready (some (a, true)) s
      else if w = 0xFFFFFFFF then .ready (some (a, false)) s
      else s0.probe g c who base logc key (p + 1) n s

/-- What HACC does at the slot that its search has reached (R308). -/
def State.accumulate (s : State) (g : Agent) (core key : Nat) (v : Word) (slot : Nat × Bool) : State :=
  if slot.2 then
    let (w, s) := s.loadLocal g core (slot.1 + 4) 4
    s.storeLocal g core (slot.1 + 4) 4 (w + v.toNat)
  else s.storeLocal g core slot.1 8 (key + 2 ^ 32 * v.toNat)

/-- The keys of a HACC in order, up to one for which the table is full: what is done, marked, and the state after (R308). -/
def State.accumulateAll (s0 : State) (g : Agent) (c : Nat) (who : Issuer) (base logc : Nat) : List Element → State → Access (List Element)
  | [], s => .ready [] s
  | e :: r, s =>
    match s0.probe g c who base logc e.key 0 16 s with
    | .waiting s => .waiting s
    | .refused t s => .refused t s
    | .ready none s => .ready (e :: r) s
    | .ready (some slot) s => match s0.accumulateAll g c who base logc r (s.accumulate g c e.key e.value slot) with
      | .ready l s => .ready ({ e with ok := true } :: l) s
      | x => x

/-- The keys of a HFIND in order: those found, marked, with their values (R309). -/
def State.lookUpAll (s0 : State) (g : Agent) (c : Nat) (who : Issuer) (base logc : Nat) : List Element → State → Access (List Element)
  | [], s => .ready [] s
  | e :: r, s =>
    match s0.probe g c who base logc e.key 0 16 s with
    | .waiting s => .waiting s
    | .refused t s => .refused t s
    | .ready slot s =>
      let (e, s) := match slot with
        | some (a, true) =>
          let (v, s) := s.loadLocal g c (a + 4) 4
          ({ e with value := BitVec.ofNat 32 v, ok := true }, s)
        | _ => (e, s)
      match s0.lookUpAll g c who base logc r s with
      | .ready l s => .ready (e :: l) s
      | x => x

/-- One word at its owner, read or updated (R304, R305). -/
def State.performElement (s : State) (g : Agent) (c t : Nat) (op : Option AtomicOp) (e : Element) : Element × State :=
  match op with
  | some op => ({ e with ok := true }, (s.atomicAt g c e.key op e.value t).2)
  | none =>
    let w : Word := BitVec.ofNat 32 (natOfBytes (s.localBytes c g.ctx e.key 4))
    let s := s.touch c g.ctx e.key
    ({ e with value := w, ok := true },
      s.modCluster c fun p => { p with homes := SMap.put p.homes (e.key / 64) ((p.home (e.key / 64)).read (max t p.clock)) })

/-- The words of a message in their order, as adjacent events (R303). -/
def State.performWords (s : State) (g : Agent) (c t : Nat) (op : Option AtomicOp) : List Element → List Element × State
  | [] => ([], s)
  | e :: r =>
    let (x, s) := s.performElement g c t op e
    let (l, s) := s.performWords g c t op r
    (x :: l, s)

/-- The lanes of a message's words on a page. -/
def wordsOn (l : List Element) (page : Nat) : LaneMask := (l.filter fun e => e.key / 4096 == page).foldl (fun m e => m ||| laneBit e.lane) 0

/-- A whole element message at its owner: its records as the reply returns them (R303, R308, R309). A refused page traps the lanes
that want it, or every lane of a HACC or HFIND, under the address by which the unit names it (R223). -/
def State.performMessage (s : State) (c t : Nat) (a : Asker) (op : ElementOp) (origin : Nat) (l : List Element) : Access (List Element) :=
  let all (r : Access (List Element)) : Access (List Element) := match r with
    | .refused t s => .refused { t with mask := l.foldl (fun m e => m ||| laneBit e.lane) 0 } s
    | r => r
  let words (op : Option AtomicOp) : Access (List Element) := match s.pages c a.agent.ctx (l.map (·.key)) (some a.waiter) with
    | .waiting s => .waiting s
    | .refused addr cause s => .refused ⟨cause, wordsOn l (addr / 4096), BitVec.ofNat 64 (origin + addr), 0⟩ s
    | .ready =>
      let (l, s) := s.performWords a.agent c t op l
      .ready l s
  match op with
  | .read => words none
  | .update op => words (some op)
  | .insert base logc => all (s.accumulateAll a.agent c a.waiter base logc l s)
  | .find base logc => all (s.lookUpAll a.agent c a.waiter base logc l s)

/-- The latest write time of the words that a message names at a home (R192). -/
def State.latestWrite (s : State) (c t : Nat) (op : ElementOp) (l : List Element) : Nat :=
  match op with
  | .read => l.foldl (fun m e => max m ((s.core c).cluster.home (e.key / 64)).wts) t
  | .update _ => l.foldl (fun m e => max m ((s.core c).cluster.home (e.key / 64)).wts) t
  | _ => (s.core c).cluster.clock

/-- A reply to another core, or to the core itself. -/
def State.reply (s : State) (c dst : Nat) (m : Msg) : State := if c = dst then s.post c .rsp m else s.send c dst .rsp m

/-- A reply can leave: room in the flow, or in the core's own inbox. -/
def State.replyRoom (s : State) (c dst : Nat) : Bool := if c = dst then s.inboxRoom c .rsp else s.room c dst .rsp

/-- The first word of the unit that a reply names; none when it awaits nothing (R40). -/
def State.unitStart (s : State) (a : Asker) : Option Word :=
  match (s.outOf a.core a.who).find? (·.id == a.id) with
  | some o => some o.pc
  | none => (s.pendingOf a).map (·.pc)

/-- The live lanes of the unit that a reply names. -/
def State.askerLanes (s : State) (a : Asker) : LaneMask :=
  match a.who with
  | .lanes u => (((s.outOf a.core a.who).find? (·.id == a.id)).map (·.lanes)).getD 0 &&& ((s.unit a.core u).map (·.lanes.live)).getD 0
  | _ => 0

/-- A stream's page at its owner was refused: the trap is left to it, to a path of the unit's lanes (R223); a run takes it at its
next unit (R323). -/
def State.leaveRefusal (s : State) (a : Asker) (cause : Nat) (addr : Dword) : State :=
  let t : TrapRec := ⟨cause, s.askerLanes a, addr, 0⟩
  if !s.askerLives a then s else
  match a.who with
  | .lanes u => s.modCtl a.core u fun k => { k with waiting := k.waiting ++ [(false, t)] }
  | .lead u => s.modCtl a.core u fun k => { k with waiting := k.waiting ++ [(true, t)] }
  | .run k => s.modRun a.core k fun r => { r with due := r.due <|> some (t, (s.unitStart a).getD r.s.front.pc) }
  | _ => s

/-- The cluster address under which a core reaches an offset of another (R176). -/
def State.clusterAddress (s : State) (ctx core home off : Nat) : Nat :=
  match s.context ctx with
  | none => off
  | some x => off + 2 ^ 20 * (coreX home - max x.x (coreX core / 8 * 8)) + 2 ^ 23 * (coreY home - max x.y (coreY core / 12 * 12))

/-- A reply's packets: to another core, or to the core itself. -/
def State.replyTrain (s : State) (c t : Nat) (a : Asker) (refused : Option TrapRec) (l : List Element) : State :=
  s.sendTrain (fun s m => s.reply c a.core m) (fun p r => .elementsDone p refused r t a) l

/-- ELEMENT_MESSAGE: the owner performs an element message of which it holds the whole train (R303, R441). -/
def execElementMessage (c n : Nat) (s : State) : Host.Outcome State Fault Refusal :=
  match s.message c .req n with
  | some ⟨_, .elements part op origin l t a, _⟩ =>
    if !part.whole || !s.inTurn c .req n || !s.replyRoom c a.core then .next s
    else match s.performMessage c t a op origin l with
      | .waiting s => .next s
      | .refused r s => .next ((s.take c .req n).replyTrain c t a (some r) l)
      | .ready l s => .next ((s.take c .req n).replyTrain c (s.latestWrite c t op l) a none l)
  | _ => .next s

/-- One store or element message of a stream is acknowledged (R183, R202). -/
def State.acknowledge (s : State) (a : Asker) : State :=
  if !s.askerLives a then s else s.settleOut a.core a.who a.id fun o => { o with unacked := o.unacked - 1 }

/-- A refusal reaches the issuer: a unit that waits takes the trap itself, else it is left to the stream (R223). -/
def State.elementsRefused (s : State) (a : Asker) (t : TrapRec) : State :=
  match s.pendingOf a with
  | some p =>
    if p.loose then (s.setPending a none).leaveRefusal a t.cause t.addr
    else s.setPending a (some { p with missing := 0, after := some t })
  | none => s.leaveRefusal a t.cause t.addr

/-- The records of a reply reach the issuer: a GATHER's values are written, and a unit that waits can complete, or trap (R304, R306,
R308, R309). -/
def State.elementsReturned (s : State) (a : Asker) (l : List Element) : State :=
  match a.who, s.pendingOf a with
  | .lanes u, some p => match s.unit a.core u with
    | none => s
    | some r =>
      let s := l.foldl (fun s e =>
        if p.writes.getLsbD e.lane && decide (p.dest.toNat < 56) && (p.loose || p.after.isSome) then
          s.setLane a.core r e.lane p.dest.toNat e.value
        else s) s
      s.setPending a (if p.loose then none else some { p with
        missing := 0
        values := l.foldl (fun m e => SMap.put m e.lane (e.value.setWidth 64 + (if e.ok then 2 ^ 32 else 0))) [] })
  | _, _ => s

/-- ELEMENT_REPLY: a reply or acknowledgement whose whole train has come reaches the issuer (R303, R304, R306, R441). -/
def execElementReply (c n : Nat) (s : State) : Host.Outcome State Fault Refusal :=
  match s.message c .rsp n with
  | some ⟨_, .elementsDone part refused l t a, _⟩ =>
    if !part.whole then .next s else
    let s := (s.take c .rsp n).raiseClock c t
    let u := match refused with
      | some r => s.elementsRefused a r
      | none => s.elementsReturned a l
    .next (u.acknowledge a)
  | _ => .next s

end Sys2Proof.Machine
end

