-- ==== Sys2Proof/Machine/Page.lean ====
section
/-! DEFINITION. The instructions on the L2, the stations and local-store pages (R236 to R239), and the completion of L2
maintenance. -/

namespace Sys2Proof.Machine

/-- A privileged E-format instruction of MAJ 0x2C (R236). -/
def pageAttr : Attr := { p := true, ximm := true, noMod := true }

/-- The operand stage of an E-format instruction with sources A and B: their values from the lowest active lane (R33). `early`
are the checks of operand values that come before QUEUE_MAP. -/
def twoWideAfter (t : Attr) (a b : RegField) (write : List RegField) (g : GuardField)
    (illegal : Issue → Bool) (early : Issue → Dword → Dword → State → Option Eff) (f : Issue → Dword → Dword → State → State → Eff)
    (s : State) : Host.Outcome State Fault Refusal :=
  runUnit t g (fun i s =>
    if !i.regOk false .pair a || !i.regOk false .pair b || !(write.all fun r => i.regOk true .pair r) then i.illegal 0 s
    else if illegal i then i.illegal t.info s
    else match s.operandsAfter i [(.pair, a), (.pair, b)] write fun v =>
        early i (nth v 0 (lowestLane i.active)) (nth v 1 (lowestLane i.active)) s with
      | .stop e => e
      | .ok v u => f i (nth v 0 (lowestLane i.active)) (nth v 1 (lowestLane i.active)) s u) s

/-- The same where no check of an operand's value comes before QUEUE_MAP. -/
def twoWide (t : Attr) (a b : RegField) (write : List RegField) (g : GuardField)
    (illegal : Issue → Bool) (f : Issue → Dword → Dword → State → State → Eff) (s : State) : Host.Outcome State Fault Refusal :=
  twoWideAfter t a b write g illegal (fun _ _ _ _ => none) f s

/-! ### L2WB and L2INV (R237) -/

/-- The checks and the start of L2 maintenance. -/
def maintain (invalidate : Bool) (i : Issue) (a b : Dword) (s u : State) : Eff :=
  let all := i.k % 2 == 1
  if all && (a != 0 || b != 0) then i.illegal 16 s
  else if a.toNat % 64 ≠ 0 || b.toNat % 64 ≠ 0 then i.trapAt Cause.misalign a.toNat 0 s
  else if 2 ^ 40 < a.toNat + b.toNat then i.illegal 16 s
  else if !all && b == 0 then .done u
  else
    let (who, u) := u.awaiting i
    .done (u.modL2 fun l => { l with
      maintenance := l.maintenance ++ [⟨who, all, a.toNat, a.toNat + b.toNat, invalidate, i.k / 2 % 2 == 1⟩] })

def execL2wb (a b : RegField) (g : GuardField) (s : State) : Host.Outcome State Fault Refusal :=
  twoWide pageAttr a b [] g (fun i => decide (1 < i.k)) (maintain false) s
def execL2inv (a b : RegField) (g : GuardField) (s : State) : Host.Outcome State Fault Refusal :=
  twoWide pageAttr a b [] g (fun i => decide (3 < i.k)) (maintain true) s

/-- The maintenance covers a line. -/
def Maintenance.covers (m : Maintenance) (line : Nat) : Bool := m.all || (decide (m.base ≤ 64 * line) && decide (64 * line < m.limit))

/-- What one L2WB or L2INV does in every slice (R237). -/
def State.maintained (s : State) (m : Maintenance) : State :=
  let mine := s.l2.lines.filter fun x => m.covers (x.1 / 512)
  let s := if !m.invalidate || m.writeBack then mine.foldl (fun s x => s.writeBack (x.1 / 512) x.2) s else s
  let clean (x : Nat × L2Line) : Nat × L2Line := if m.covers (x.1 / 512) then (x.1, { x.2 with dirty := false }) else x
  s.modL2 fun l => { l with
    lines := if m.invalidate then l.lines.filter (fun x => !m.covers (x.1 / 512)) else l.lines.map clean }

/-- The channels take the dirty lines that an operation writes back (R230, R415, R427, R428). -/
def State.stacksTake (s : State) (lines : List (Nat × L2Line)) : Bool :=
  lines.all fun x => !x.2.dirty || s.channelAnswers (x.1 % 512) (x.1 / 512)

/-- L2_MAINTENANCE_DONE: every slice has finished the oldest; none finishes during a commit (R237). -/
def execL2MaintenanceDone (s : State) : Host.Outcome State Fault Refusal :=
  match s.l2.maintenance, s.l2.commit with
  | m :: more, none =>
    if !s.stacksTake (s.l2.lines.filter fun x => (!m.invalidate || m.writeBack) && m.covers (x.1 / 512)) then .next s
    else .next (((s.maintained m).modL2 fun l => { l with maintenance := more }).setPending m.who none)
  | _, _ => .next s

/-! ### TSINV (R238) -/

/-- The request's address lies in a range of a context, or of all. -/
def Stalled.inRange (x : Stalled) (ctx : Nat) (all : Bool) (base limit : Nat) : Bool :=
  (all || x.ctx == ctx) && decide (base ≤ x.va) && decide (x.va < limit)

/-- The requests of every station that stand under a record, or whose record waits, in a range; each with the step at which it
stalled. -/
def State.stalledIn (s : State) (ctx : Nat) (all : Bool) (base limit : Nat) : List (Walker × Nat) :=
  s.stations.flatMap fun (_, t) =>
    (t.stalled.filter fun x => x.state == .recorded && x.inRange ctx all base limit).map fun x => (x.who, x.since)

def execTsinv (a b : RegField) (g : GuardField) (s : State) : Host.Outcome State Fault Refusal :=
  twoWide pageAttr a b [] g
    (fun i => decide (2 ^ 19 ≤ i.k) || i.k / 2 ^ 16 % 4 == 3 || (i.k / 2 ^ 18 % 2 == 1 && i.k % 2 ^ 16 != 0))
    (fun i a b s u =>
      if a.toNat % 65536 ≠ 0 || b.toNat % 65536 ≠ 0 then i.trapAt Cause.misalign a.toNat 0 s
      else if 2 ^ 57 < a.toNat + b.toNat then i.illegal 17 s
      else
        let base := if b = 0 then 0 else a.toNat
        let limit := if b = 0 then 2 ^ 57 else a.toNat + b.toNat
        let ctx := i.k % 2 ^ 16
        let all := i.k / 2 ^ 18 % 2 == 1
        let (who, u) := u.awaiting i
        .done (u.modL2 fun l => { l with
          shootdowns := l.shootdowns ++ [⟨who, ctx, all, base, limit, i.k / 2 ^ 16 % 4, u.stalledIn ctx all base limit⟩] })) s

/-! ### LSPIN and LSUNPIN (R239) -/

/-- Pages whose count an LSPIN unit has raised and that have still to get a frame (R239). -/
def CoreState.owedPins (k : CoreState) : List (Nat × Nat) := k.pinning.flatMap fun w => w.pages.map fun p => (w.ctx, p)

/-- Frames of a core that hold a pinned page, or will (R221). -/
def CoreState.pinned (k : CoreState) : Nat := (k.frames.filter fun x => x.2.pins ≠ 0).length + k.owedPins.eraseDups.length

/-- The pin count of a page. -/
def CoreState.pins (k : CoreState) (ctx page : Nat) : Nat :=
  ((k.frameOf ctx page).map (·.2.pins)).getD 0 + k.owedPins.count (ctx, page)

/-- A page pinned once more; the eviction of a draining page is cancelled (R220, R240). -/
def Frame.pin (f : Frame) : Frame :=
  { f with
    pins := f.pins + 1
    modified := if f.pins = 0 then f.state == .dirty else f.modified
    touched := f.touched || f.state == .draining }

/-- A page unpinned once (R220). -/
def Frame.unpin (f : Frame) : Frame :=
  if f.pins = 1 then { f with pins := 0, state := if f.modified then .dirty else f.state } else { f with pins := f.pins - 1 }

/-- Changes the frame of a page. -/
def CoreState.modFrame (k : CoreState) (ctx page : Nat) (f : Frame → Frame) : CoreState :=
  match k.frameOf ctx page with
  | some (i, x) => { k with frames := SMap.put k.frames i (f x) }
  | none => k

/-- Drops the first element of a list that passes a test. -/
def dropFirst {α : Type} (p : α → Bool) : List α → List α
  | [] => []
  | x :: l => if p x then l else x :: dropFirst p l

/-- Lowers a page's count once, where it is above 0: at its frame, or of those that a unit has raised (R239). -/
def CoreState.unpinOne (k : CoreState) (ctx page : Nat) : CoreState :=
  match (k.frameOf ctx page).filter (·.2.pins ≠ 0) with
  | some (i, f) => { k with frames := SMap.put k.frames i f.unpin }
  | none =>
    match k.pinning.findIdx? fun w => w.ctx == ctx && w.pages.contains page with
    | some j => { k with pinning := setAt j (fun w => { w with pages := dropFirst (· == page) w.pages }) k.pinning }
    | none => k

/-- Pages pinned once more each, where they have a frame, which an absent page takes under R221; and those left without one. -/
def State.pinEach (s : State) (c ctx : Nat) : List Nat → List Nat × State
  | [] => ([], s)
  | p :: more =>
    let s := s.requestPage c ctx p
    if ((s.core c).frameOf ctx p).isSome then (s.modCore c (·.modFrame ctx p Frame.pin)).pinEach c ctx more
    else
      let (left, s) := s.pinEach c ctx more
      (p :: left, s)

/-- A page of the list drains. -/
def CoreState.drains (k : CoreState) (ctx : Nat) (pages : List Nat) : Bool :=
  pages.any fun p => ((k.frameOf ctx p).map (·.2.state == .draining)).getD false

/-- The operand checks that LSPIN and LSUNPIN share, of which MISALIGN names no address (R239, R396); then the pages. -/
def pinUnit (f : Issue → List Nat → State → State → Eff) (a b : RegField) (g : GuardField) (s : State) :
    Host.Outcome State Fault Refusal :=
  twoWide pageAttr a b [a] g (fun i => decide (i.k ≠ 0)) (fun i x y s u =>
    if x.toNat % 4096 ≠ 0 then i.trapAt Cause.misalign 0 0 s
    else if 2 ^ 20 < x.toNat + 4096 * y.toNat then i.trapAt Cause.lsBound x.toNat 0 s
    else if y = 0 || decide (256 < y.toNat) then i.illegal 18 s
    else f i ((List.range y.toNat).map fun j => x.toNat / 4096 + j) s u) s

/-- The record of an issuing LSPIN unit. -/
def Issue.pinning (i : Issue) (w : PinWait) : Bool := w.ctx == i.ctx && w.who == i.who && w.lanes == i.lanes && w.pc == i.start

/-- The record of an LSPIN unit goes, or is replaced. -/
def State.keepPins (s : State) (i : Issue) (left : Option (List Nat)) : State :=
  s.modCore i.core fun k => { k with
    pinning := (left.map fun l => PinWait.mk i.ctx i.who i.lanes i.start l).toList ++ k.pinning.filter (!i.pinning ·) }

/-- One attempt of an LSPIN unit whose pins fit: the counts are raised, once, and every page is awaited (R220, R239, R240). A
refused page undoes what the unit has raised (DESIGN CHOICE, log entry 59). -/
def State.pinAttempt (s : State) (i : Issue) (pages : List Nat) : Access Unit :=
  let due := (((s.core i.core).pinning.find? i.pinning).map (·.pages)).getD pages
  let (left, s) := (s.keepPins i none).pinEach i.core i.ctx due
  match s.pages i.core i.ctx (pages.map (4096 * ·)) (some i.waiter) with
  | .refused a cause s =>
    .refused ⟨cause, i.mask, BitVec.ofNat 64 a, 0⟩
      (s.modCore i.core fun k => (pages.filter fun p => !left.contains p).foldl (·.unpinOne i.ctx ·) k)
  | .waiting s => .waiting (s.keepPins i (some left))
  | .ready => if (s.core i.core).drains i.ctx pages then .waiting (s.keepPins i (some left)) else .ready () s

/-- LSPIN of some pages: all or nothing (R239). Where both the frame limit and a count of 255 stand in its way, it answers 1 (DESIGN
CHOICE, log entry 101). -/
def State.pinPages (s u : State) (i : Issue) (a : RegField) (pages : List Nat) : Eff :=
  let k := s.core i.core
  let fresh := !k.pinning.any i.pinning
  if fresh && decide (224 < k.pinned + (pages.filter fun p => k.pins i.ctx p == 0).length) then s.result u i .pair a fun _ => 1
  else if fresh && pages.any fun p => k.pins i.ctx p == 255 then s.result u i .pair a fun _ => 2
  else s.accessing (·.pinAttempt i pages) u fun _ u => s.result u i .pair a fun _ => 0

def execLspin (a b : RegField) (g : GuardField) (s : State) : Host.Outcome State Fault Refusal :=
  pinUnit (fun i pages s u => s.pinPages u i a pages) a b g s

def execLsunpin (a b : RegField) (g : GuardField) (s : State) : Host.Outcome State Fault Refusal :=
  pinUnit (fun i pages s u =>
    let k := s.core i.core
    let short := pages.any fun p => k.pins i.ctx p == 0
    let u := u.modCore i.core fun k => pages.foldl (·.unpinOne i.ctx ·) k
    s.result u i .pair a fun _ => if short then 3 else 0) a b g s

end Sys2Proof.Machine
end

