-- ==== Sys2Proof/Machine/Handler.lean ====
section
/-! DEFINITION. Messages and handlers: the MS family (R312 to R331), the release of messages, mailboxes and weight returns. -/

namespace Sys2Proof.Machine

/-- What the MS family shares: no MOD (R330). -/
def messageAttr : Attr := { noMod := true, event := true, spin := true }

/-! ### Releasing messages (R312, R321, R326) -/

/-- The send buffer of a run is full (R321, R331). -/
def State.bufferFull (s : State) (i : Issue) : Bool :=
  i.kind == .run && (match s.run i.core i.unit with
    | some r => decide (16 ≤ r.sendBuffer.length)
    | none => false)

/-- What a message's unit awaits for FENCE (R202): a SEND the acknowledgement of its message, a post or a weight return its being
performed and the answer. -/
def State.awaits (s : State) (i : Issue) (id : Nat) : Msg → Option Outstanding
  | .handler .. => some ⟨id, i.start, i.lanes, 0, 0, [(s.core i.core).handlers.mid], 0⟩
  | .post .. => some ⟨id, i.start, i.lanes, 1, 1, [], 0⟩
  | .weight .. => some ⟨id, i.start, i.lanes, 1, 1, [], 0⟩
  | _ => none

/-- A message sent as its unit issues, with the name under which its completion is heard of. -/
def State.emitted (u : State) (i : Issue) (dst : Nat) (cls : MsgClass) (m : Asker → Msg) : State :=
  let (id, u) := u.newId i.core
  let o : OutMsg := ⟨dst, cls, m (i.asker id)⟩
  match u.awaits i id o.msg with
  | some w => (u.sent i w).releaseOut i.core o
  | none => u.releaseOut i.core o

/-- A message that a run captures; no one hears of its completion (R202, R321). -/
def State.captured (u : State) (i : Issue) (dst : Nat) (cls : MsgClass) (m : Asker → Msg) : State :=
  u.modRun i.core i.unit fun r => { r with sendBuffer := r.sendBuffer ++ [⟨dst, cls, m { i.asker 0 with who := .gone }⟩] }

/-- A stream's message: captured by a run, else released behind what a save left pending, once its class has room; `s` is the
state before the unit (R183, R321, R324, R326, R330). -/
def State.emit (s u : State) (i : Issue) (dst : Nat) (cls : MsgClass) (m : Asker → Msg) : Eff :=
  match i.kind with
  | .run => .done (u.captured i dst cls m)
  | _ =>
    let u := u.ahead i.core cls
    if !u.outRoom i.core dst cls then .wait s else .done (u.emitted i dst cls m)

/-- The class that SEND names (R312). -/
def sendClass (n : Nat) : MsgClass := if n = 0 then .req else if n = 1 then .ray else if n = 2 then .page else .ctl

/-- LEN of SEND's A (R331). -/
def sendLength (x : Dword) : Nat := x.toNat / 2 ^ 24 % 16

/-- A run of scalar registers lies in the stream's own (R331, R359, R360). -/
def Issue.scalarRun (i : Issue) (f : RegField) (n : Nat) : Bool :=
  (i.kind == .lead && decide (f.toNat + n ≤ 56)) || (i.kind == .run && decide (f.toNat + n ≤ 32))

/-- Reads n adjacent units of `size` bytes at a local address, as events at issue (R175, R181, R331): the values, or the trap
of the first that fails. -/
def State.readUnits (s : State) (i : Issue) (a size n : Nat) : Access (List Nat) :=
  let at' := (List.range n).map fun j => a + size * j
  match at'.find? fun x => !i.window.holds x size with
  | some x => .refused ⟨Cause.lsBound, i.mask, BitVec.ofNat 64 x, 0⟩ s
  | none =>
    if n ≠ 0 && a % size ≠ 0 then .refused ⟨Cause.misalign, i.mask, BitVec.ofNat 64 a, 0⟩ s
    else
      match s.pages i.core i.ctx at' (some i.waiter) with
      | .refused x cause s => .refused ⟨cause, i.mask, BitVec.ofNat 64 x, 0⟩ s
      | .waiting s => .waiting s
      | .ready =>
        let (vals, s) := at'.foldl (fun (acc : List Nat × State) x =>
          let (v, s) := acc.2.loadLocal i.agent i.core x size
          (acc.1 ++ [v], s)) ([], s)
        .ready vals s

/-- A operand of an E-format word alone, or with B (R33). -/
def wideOperands (a : RegField) (b : Option RegField) : List (Cls × RegField) := (.pair, a) :: b.toList.map fun f => (.pair, f)

/-- The shape of SEND, RSEND and RHIT: A, then B as an address or, with K bit 0, as the first payload register (R331, R359,
R363). -/
def payloadUnit (info : Nat) (a b : RegField) (g : GuardField) (early : Issue → State → Option Eff)
    (bad : Issue → Dword → Option Nat → State → Bool)
    (f : Issue → Dword → Option Nat → State → State → Eff) (s : State) : Host.Outcome State Fault Refusal :=
  runUnit { messageAttr with ximm := true } g (fun i s =>
    match early i s with
    | some e => e
    | none =>
    let reg := i.k % 2 == 1
    let l := lowestLane i.active
    let at' (v : List (Nat → Dword)) : Option Nat := if reg then none else some (nth v 1 l).toNat
    if 1 < i.k || (reg && i.kind == .group) || !i.regOk false .pair a || (!reg && !i.regOk false .pair b) then i.illegal 0 s
    else if s.bufferFull i then i.illegal info s
    else match s.operandsAfter i (wideOperands a (if reg then none else some b)) [] fun v =>
        if bad i (nth v 0 l) (at' v) s then some (i.illegal info s) else none with
      | .stop e => e
      | .ok v u => f i (nth v 0 l) (at' v) s u) s

/-- SEND (R331). -/
def execSend (a b : RegField) (g : GuardField) (s : State) : Host.Outcome State Fault Refusal :=
  payloadUnit 23 a b g (fun _ _ => none)
    (fun i x at' _ =>
      let len := sendLength x
      x.toNat / 2 ^ 28 != 0 || decide (8 < len) || (sendClass (x.toNat / 2 ^ 22 % 4) == .ray && len != 8)
        || (at'.any fun m => decide (2 ^ 20 ≤ m)) || (at'.isNone && !i.scalarRun b len))
    (fun i x at' s u =>
    let len := sendLength x
    let cls := sendClass (x.toNat / 2 ^ 22 % 4)
    match (s.context i.ctx).bind fun c => c.coreAt (x.setWidth 16) with
      | none => i.trapAt Cause.clusterAddr (x.toNat % 2 ^ 16) 0 s
      | some dst =>
        let go (payload : List Dword) (u : State) : Eff :=
          s.emit u i dst cls fun _ => .handler (x.toNat / 2 ^ 16 % 64) 0 (s.coordWord i) payload
        match at' with
        | none => go ((List.range len).map fun j => s.scalarReg i (b.toNat + j)) u
        | some m => s.accessing (fun s => s.readUnits i m 8 len) u fun vals u =>
          go (vals.map (BitVec.ofNat 64)) u) s

/-! ### Bindings (R315 to R317) -/

def HandlerPart.binding (h : HandlerPart) (hid : Nat) : Binding := (SMap.find h.bindings hid).getD Binding.none

def execHbind (a b : RegField) (g : GuardField) (s : State) : Host.Outcome State Fault Refusal :=
  twoWideAfter { noMod := true, spin := true } a b [] g (fun _ => false) (fun i x y s =>
    if x.toNat / 2 ^ 32 != 0 || y.toNat / 2 ^ 7 % 2 ^ 25 != 0 || y.toNat / 2 ^ 56 != 0 then some (i.illegal 23 s)
    else if 60 ≤ y.toNat % 64 && !i.priv then some (i.trapBare Cause.priv 0 s) else none) (fun i x y s u =>
    let hid := y.toNat % 64
    if x.toNat % 4 ≠ 0 then i.trapAt Cause.misalign x.toNat 0 s
    else
      let cycles := y.toNat / 2 ^ 32 % 2 ^ 24
      let new : Binding := ⟨.bound, x.setWidth 32, y.getLsbD 6, if cycles = 0 then 65536 else cycles, i.launch⟩
      .done (u.modHandlers i.core fun h => { h with bindings := SMap.put h.bindings hid new })) s

def execHunbind (a : RegField) (g : GuardField) (s : State) : Host.Outcome State Fault Refusal :=
  twoWideAfter { noMod := true, spin := true } a 60 [] g (fun _ => false) (fun i x _ s =>
    if 64 ≤ x.toNat then some (i.illegal 23 s)
    else if 60 ≤ x.toNat && !i.priv then some (i.trapBare Cause.priv 0 s) else none) (fun i x _ _ u =>
    .done (u.modHandlers i.core fun h => { h with bindings := SMap.drop h.bindings x.toNat })) s

/-! ### HDONE and the release of a run's messages (R321) -/

/-- A run has released everything: its inbox place and its context are free (R321). -/
def State.finishRun (s : State) (c k : Nat) : State :=
  match s.run c k with
  | none => s
  | some r =>
    (s.modCore c fun co => co.setInbox r.cls ((co.inbox r.cls).filter fun m => m.run != some k)).endRun c k

/-- A run whose HDONE has issued takes a trap that another core has left it: it aborts, unless a high-priority run pauses it
(R320, R323, R325). -/
def State.abortDone (s : State) (c k : Nat) (r : Run) (t : TrapRec) (pc : Word) : State :=
  if !r.hi && (s.core c).handlers.highLive then s else s.abortRun (((s.holder c).map (·.1)).getD 0) c k pc t

/-- Releases a run's messages in issue order while there is room; at most n. They follow every event of the run (R321). -/
def State.releaseBuffer (s : State) (c k : Nat) : Nat → State
  | 0 => s
  | n + 1 =>
    match s.run c k with
    | none => s
    | some r =>
      if unperformedOf 1 r.s.out ≠ 0 then s else
      match r.due, r.sendBuffer with
      | some (t, pc), _ => s.abortDone c k r t pc
      | none, [] => s.finishRun c k
      | none, o :: more =>
        let u := s.ahead c o.cls
        if !u.outRoom c o.dst o.cls then s
        else ((u.modRun c k fun r => { r with sendBuffer := more }).releaseOut c o).releaseBuffer c k n

def execHdone (g : GuardField) (s : State) : Host.Outcome State Fault Refusal :=
  runUnit { g := false, l := false, noMod := true } g (fun i s =>
    let s := (s.finish i).modRun i.core i.unit fun r => { r with done := true, masked := none }
    .moved (s.releaseBuffer i.core i.unit 17)) s

/-- Messages that a save left pending are released first, in order (R324). -/
def State.releasePending (s : State) (c : Nat) : Nat → State
  | 0 => s
  | n + 1 =>
    match (s.core c).handlers.releases with
    | [] => s
    | o :: more =>
      if !s.outRoom c o.dst o.cls then s
      else ((s.modHandlers c fun h => { h with releases := more }).releaseOut c o).releasePending c n

/-- HDONE_RELEASE: a run whose HDONE has issued releases what has room; before it, the core's pending releases (R321,
R324). -/
def execHdoneRelease (c k : Nat) (s : State) : Host.Outcome State Fault Refusal :=
  let s := s.releasePending c 16
  match s.run c k with
  | some r => if r.done then .next (s.releaseBuffer c k 17) else .next s
  | none => .next s

/-! ### Budget and masked windows (R322, R328) -/

/-- BUDGET: a run's count has reached its budget at the end of a cycle, and its next unit, once it may issue, is taken as the
trap (R320, R322, R323, R325). -/
def execBudget (c k : Nat) (s : State) : Host.Outcome State Fault Refusal :=
  match s.run c k with
  | none => .next s
  | some r =>
    match s.issue (.run c k) with
    | some i => if r.count < r.budget then .next s else .next (s.takeTrap i ⟨Cause.budget, 0, 0, 0⟩)
    | none => .next s

/-- MASK_WINDOW: the 257th unit of a run's masked window, once it may issue (R328). -/
def execMaskWindow (c k : Nat) (s : State) : Host.Outcome State Fault Refusal :=
  match s.issue (.run c k) with
  | some i =>
    if s.maskExceeded i && i.front.hints.count = 0 then .next (s.takeTrap i ⟨Cause.maskWindow, 0, 0, 256⟩) else .next s
  | none => .next s

def execMaskon (g : GuardField) (s : State) : Host.Outcome State Fault Refusal :=
  runUnit { g := false, l := false, noMod := true } g (fun i s =>
    match s.run i.core i.unit with
    | none => .wait s
    | some r =>
      if r.hi then .done s
      else if r.masked.isSome then i.illegal 24 s
      else .moved ((s.finish i).modRun i.core i.unit fun r => { r with masked := some 0 })) s

def execMaskoff (g : GuardField) (s : State) : Host.Outcome State Fault Refusal :=
  runUnit { g := false, l := false, noMod := true } g (fun i s =>
    .moved ((s.finish i).modRun i.core i.unit fun r => { r with masked := none })) s

/-! ### Mailboxes (R326, R327) -/

def HandlerPart.mailbox (h : HandlerPart) (m : Nat) : Mailbox := (SMap.find h.mailboxes m).getD Mailbox.empty

def execMpost (a b : RegField) (m : BitVec 5) (g : GuardField) (s : State) : Host.Outcome State Fault Refusal :=
  twoWideAfter messageAttr a b [] g (fun _ => false)
    (fun i x _ s => if 2 ^ 16 ≤ x.toNat || s.bufferFull i then some (i.illegal 23 s) else none) (fun i x y s u =>
    match (s.context i.ctx).bind fun c => c.coreAt (x.setWidth 16) with
      | none => i.trapAt Cause.clusterAddr x.toNat 0 s
      | some dst => s.emit u i dst .ctl fun a => .post m.toNat y a) s

def execMtake (a : RegField) (m : BitVec 5) (g : GuardField) (s : State) : Host.Outcome State Fault Refusal :=
  runUnit { messageAttr with h := false } g (fun i s =>
    if !i.regOk true .pair a then i.illegal 0 s
    else match s.operands i [] [a] with
      | .stop e => e
      | .ok _ u =>
        let x := (s.core i.core).handlers.mailbox m.toNat
        if !x.present then .wait s
        else s.result (u.modHandlers i.core fun h => { h with mailboxes := SMap.drop h.mailboxes m.toNat }) i .pair a fun _ => x.value) s

/-- A store, post or weight return of a stream has been performed at logical time t (R180, R192). -/
def State.performed (s : State) (a : Asker) (t : Nat) : State :=
  if !s.askerLives a then s else
  (s.raiseClock a.core t).settleOut a.core a.who a.id fun o => { o with unperformed := o.unperformed - 1 }

/-- The queue of a unit takes an entry for which a place was kept (R151, R154). -/
def State.pushKept (s : State) (c u k : Nat) (e : List Word) : State :=
  match s.unit c u with
  | none => s
  | some r =>
    let gone := s.readerEnded c r ((r.queues[k]?).getD QueueReg.unmapped)
    s.modUnit c u fun r => { r with queues := setAt k (fun q => { q with
      kept := q.kept - 1, entries := if gone then q.entries else q.entries ++ [e] }) r.queues }

/-- A place that was kept in a queue is given up. -/
def State.dropPlace (s : State) (c u k : Nat) : State :=
  s.modUnit c u fun r => { r with queues := setAt k (fun q => { q with kept := q.kept - 1 }) r.queues }

/-- What a lead pushes for a value: itself, or the W words of local space at its address, loaded at the push (R151, R180). -/
def State.leadEntry (s : State) (a : Asker) (r : Resident) (k : Nat) (v : Dword) : Access (List Word) :=
  let n := r.info.width
  let x := v.toNat % 2 ^ 20
  let w : Window := { r.info.window with all := r.ctl.trap.isSome || ((s.context r.info.ctx).map (·.record.priv)).getD false }
  if ((r.queues[k]?).getD QueueReg.unmapped).opt = 0 then .ready (List.replicate 64 (v.setWidth 32)) s
  else if !w.holds x (4 * n) then .refused ⟨Cause.lsBound, 0, BitVec.ofNat 64 x, 0⟩ s
  else if x % 4 ≠ 0 then .refused ⟨Cause.misalign, 0, BitVec.ofNat 64 x, 0⟩ s
  else match s.pages a.core r.info.ctx [x, x + 4 * n - 1] (some a.who) with
    | .refused _ cause s => .refused ⟨cause, 0, BitVec.ofNat 64 x, 0⟩ s
    | .waiting s => .waiting s
    | .ready =>
      let (e, s) := s.localEntry a.agent a.core x n
      .ready e s

/-- A unit that awaited replies completes: its values go to its destination in the lanes that it writes, where older writes
that are still due give way (R96; log entry 7). A lead's push waits for the pages that it loads from (R151, R173). -/
def State.completePending (s : State) (a : Asker) (p : Pending) : State :=
  let t := s.setPending a none
  let v (l : Nat) : Dword := (SMap.find p.values l).getD 0
  let k := queueIndex p.dest
  match a.who with
  | .run x => if 56 ≤ p.dest.toNat then t
    else t.modRun a.core x fun r => { r with s := { r.s with regs := SMap.setWord r.s.regs p.dest.toNat (v 0) } }
  | .lead u =>
    if isQueue p.dest then
      match s.unit a.core u with
      | none => t
      | some r => match s.leadEntry a r k (v 0) with
        | .ready e s => (s.setPending a none).pushKept a.core u k e
        | .waiting s => s.setPending a (some { p with missing := 0 })
        | .refused trap s => ((s.setPending a none).dropPlace a.core u k).modCtl a.core u fun x => { x with
            waiting := x.waiting ++ [(true, trap)] }
    else if 56 ≤ p.dest.toNat then t
    else t.modLead a.core u fun l => { l with s := { l.s with regs := SMap.setWord l.s.regs p.dest.toNat (v 0) } }
  | .lanes u =>
    match s.unit a.core u with
    | none => t
    | some r =>
      if isQueue p.dest then
        t.pushKept a.core u k ((List.range 64).map fun l => if p.writes.getLsbD l then (v l).setWidth 32 else 0)
      else if 56 ≤ p.dest.toNat then t
      else
        let t := if p.loose then t else t.modUnit a.core u fun r => (lanesOf p.writes).foldl (fun r l =>
          r.overwritten l (p.dest.toNat :: if p.pair then [p.dest.toNat + 1] else [])) r
        (lanesOf p.writes).foldl (fun t l =>
        let t := t.setLane a.core r l p.dest.toNat ((v l).setWidth 32)
        if p.pair then t.setLane a.core r l (p.dest.toNat + 1) ((v l >>> 32).setWidth 32) else t) t
  | _ => s

/-- The pushes of a core's leads that have waited for pages (R151, R173). -/
def State.pushDue (s : State) (c : Nat) : State :=
  (s.core c).units.foldl (fun s (u, r) =>
    match r.ctl.pending.find? fun p => p.pushing && p.missing == 0 with
    | some p => s.completePending ⟨c, .lead u, p.id, r.info.order, ⟨r.info.ctx, r.info.handle⟩⟩ p
    | none => s) s

/-- A unit that awaited one answer takes it in every lane that it writes. -/
def State.answer (s : State) (a : Asker) (v : Dword) : State :=
  match s.pendingOf a with
  | some p => s.completePending a { p with values := (lanesOf (if p.lead then 1 else p.writes)).map fun l => (l, v) }
  | none => s

/-- MAILBOX_POST: a post is accepted when the mailbox is empty, else refused; the sender is told (R326). -/
def execMailboxPost (c n : Nat) (s : State) : Host.Outcome State Fault Refusal :=
  match s.message c .ctl n with
  | some ⟨src, .post m value a, _⟩ =>
    if !s.inTurn c .ctl n || !s.replyRoom c src then .next s
    else
      let t := s.take c .ctl n
      if ((s.core c).handlers.mailbox m).present then .next (t.reply c src (.postAnswer false m value a))
      else
        let t := t.modHandlers c fun h => { h with mailboxes := SMap.put h.mailboxes m ⟨true, value⟩ }
        .next ((t.performed a 0).reply c src (.postAnswer true m value a))
  | _ => .next s

/-- MAILBOX_RESEND: the n-th post of a core's list is sent, or sent again, once there is room (R326). -/
def execMailboxResend (c n : Nat) (s : State) : Host.Outcome State Fault Refusal :=
  match (s.core c).handlers.posts[n]? with
  | some (o, true) =>
    let first := match o.msg with
      | .post m .. => !{ (s.core c).handlers with posts := (s.core c).handlers.posts.take n }.posting o.dst m
      | _ => false
    if !first || !s.outRoom c o.dst o.cls then .next s
    else .next ((s.modHandlers c fun h => { h with posts := setAt n (fun p => (p.1, false)) h.posts }).release c o.dst o.cls o.msg)
  | _ => .next s

/-- The answer to a post reaches its sender: an accepted post is completed and the next one to the mailbox goes out; a
refused one is to be sent again (R326). -/
def State.postAnswered (s : State) (c dst : Nat) (accepted : Bool) (m : Nat) (a : Asker) : State :=
  let mine (p : OutMsg × Bool) : Bool := p.1.dst == dst && (match p.1.msg with
    | .post n .. => n == m
    | _ => false)
  match (s.core c).handlers.posts.findIdx? mine with
  | none => s
  | some j =>
    if !accepted then s.modHandlers c fun h => { h with posts := setAt j (fun p => (p.1, true)) h.posts }
    else
      let s := (s.modHandlers c fun h => { h with posts := dropAt j h.posts }).acknowledge a
      match (s.core c).handlers.posts.zipIdx.find? fun p => mine p.1 with
      | some (p, k) =>
        if s.outRoom c p.1.dst p.1.cls then
          (s.modHandlers c fun h => { h with posts := setAt k (fun p => (p.1, false)) h.posts }).release c p.1.dst p.1.cls p.1.msg
        else s
      | none => s

/-! ### Weights (R329, R330) -/

def execWsplit (a : RegField) (g : GuardField) (s : State) : Host.Outcome State Fault Refusal :=
  runUnit { noMod := true, spin := true } g (fun i s =>
    if !i.regOk true .nat a || !i.regOk false .nat a then i.illegal 0 s
    else match s.operands i [(.nat, a)] [a] with
      | .stop e => e
      | .ok v u =>
        let bad := maskOf fun l => i.active.getLsbD l && decide (63 ≤ (nth v 0 l).toNat % 256)
        if bad ≠ 0 then .trap ⟨Cause.weight, if i.kind == .group then bad else 0, 0, 0⟩ s
        else s.result u i .nat a fun l => nth v 0 l + 1) s

/-- The offset, alignment and core of a generator's word (R330). -/
def State.weightWord (s : State) (i : Issue) (a : Nat) : Except Nat Nat :=
  match (s.context i.ctx).bind fun c => c.coreAt (BitVec.ofNat 16 (a / 2 ^ 32)) with
  | none => .error Cause.clusterAddr
  | some dst =>
    if !i.window.holds (a % 2 ^ 20) 8 then .error Cause.lsBound
    else if a % 8 ≠ 0 then .error Cause.misalign
    else .ok dst

def execWret (a b : RegField) (g : GuardField) (s : State) : Host.Outcome State Fault Refusal :=
  twoWideAfter messageAttr a b [] g (fun _ => false) (fun i x _ s =>
    if x.toNat / 2 ^ 20 % 2 ^ 12 != 0 || x.toNat / 2 ^ 48 != 0 || s.bufferFull i then some (i.illegal 23 s) else none) (fun i x y s u =>
    match s.weightWord i x.toNat with
      | .error cause => i.trapAt cause x.toNat 0 s
      | .ok dst => s.emit u i dst .req fun a => .weight (x.toNat % 2 ^ 20) y a) s

/-- WEIGHT_RETURN: the amount is added to the generator's word as one event at its home (R329, R330). -/
def execWeightReturn (c n : Nat) (s : State) : Host.Outcome State Fault Refusal :=
  match s.message c .req n with
  | some ⟨_, .weight off amount a, _⟩ =>
    if !s.inTurn c .req n || !s.replyRoom c a.core then .next s
    else match s.pages c a.agent.ctx [off] (some a.waiter) with
      | .waiting s => .next s
      | .refused addr cause s => .next ((((s.take c .req n).performed a 0).leaveRefusal a cause (BitVec.ofNat 64 (s.clusterAddress a.agent.ctx a.core c addr))).reply c a.core (.ack 0 [] a))
      | .ready =>
        let v := natOfBytes (s.localBytes c a.agent.ctx off 8) + amount.toNat
        let s := (s.take c .req n).storeAt a.agent c off (bytesOfNat v 8) (s.core a.core).cluster.clock
        let t := ((s.core c).cluster.home (off / 64)).wts
        .next ((s.performed a t).reply c a.core (.ack t [] a))
  | _ => .next s

end Sys2Proof.Machine
end

