-- ==== Sys2Proof/Machine/Cluster.lean ====
section
/-! DEFINITION. What homes and requesters do with the messages of cluster space: renewals, stores, atomics, acknowledgements,
watches and polls (R183, R190 to R194, R200, R201). -/

namespace Sys2Proof.Machine

/-- LEASE_RENEWAL: the home extends the lease of a line and returns it; a line whose page is refused returns the cause and no
bytes (R191, R223). -/
def execLeaseRenewal (c n : Nat) (s : State) : Host.Outcome State Fault Refusal :=
  match s.message c .req n, s.holder c with
  | some ⟨src, .renew line clock, _⟩, some (ctx, _) =>
    if !s.inTurn c .req n || !s.replyRoom c src then .next s
    else match s.pages c ctx [64 * line] (some (.reader src line)) with
      | .waiting s => .next s
      | .refused _ cause s => .next ((s.take c .req n).reply c src (.renewed line [] cause 0))
      | .ready =>
        let h := ((s.core c).cluster.home line).renew clock
        let s := ((s.take c .req n).touch c ctx (64 * line)).modCluster c fun p => { p with homes := SMap.put p.homes line h }
        .next (s.reply c src (.renewed line (s.localBytes c ctx (64 * line) 64) h.wts h.rts))
  | _, _ => .next s

/-- Lines of the cluster cache: 768 KiB (R11). -/
def cacheLines : Nat := 12288

/-- A line enters the cluster cache, and one that a free value names gives way when the cache is full (R11; log entry 90). -/
def ClusterPart.cached (p : ClusterPart) (free : BitVec 64) (key : Nat) (l : CachedLine) : ClusterPart :=
  let room := (SMap.find p.cache key).isSome || decide (p.cache.length < cacheLines)
  { p with cache := SMap.put (if room then p.cache else dropAt (free.toNat % p.cache.length) p.cache) key l }

/-- The same in a core. -/
def State.cacheLine (s : State) (c key : Nat) (l : CachedLine) : State :=
  let (v, s) := s.freeValue
  s.modCluster c fun p => p.cached v key l

/-- CLUSTER_LOAD_REPLY: a renewed line enters the cluster cache; a refusal stands there for the loads that wait for the line (R191,
R223). -/
def execClusterLoadReply (c n : Nat) (s : State) : Host.Outcome State Fault Refusal :=
  match s.message c .rsp n with
  | some ⟨home, .renewed line bytes wts rts, _⟩ =>
    let key := lineKey home line
    let waiting := ((s.core c).cluster.readers.filter (·.1 == key)).map (·.2)
    let s := (s.take c .rsp n).modCluster c fun p => { p with
      asked := p.asked.erase (home, line), readers := p.readers.filter (·.1 != key) }
    .next (if bytes.isEmpty then (if waiting.isEmpty then s else s.cacheLine c key ⟨[], 0, 0, some wts, waiting⟩)
      else s.cacheLine c key ⟨bytes, wts, rts, none, []⟩)
  | _ => .next s

/-- A home may name the core that has written a line its owner: the spec leaves open when it does (R192; log entry 8). -/
def State.mayOwn (s : State) (home line q : Nat) : State :=
  let (v, s) := s.freeValue
  if v.getLsbD 0 then s.setOwner home line (some q) else s

/-- Atomics of one unit at a home, in lane order as adjacent events: the values replaced, and the latest write time (R181,
R192, R197). -/
def State.performAtomics (s : State) (g : Agent) (c t : Nat) :
    List (Nat × Nat × AtomicOp × Word) → List (Nat × Word) × Nat × State
  | [] => ([], 0, s)
  | (lane, off, op, b) :: more =>
    let (old, s) := s.atomicAt g c off op b t
    let w := ((s.core c).cluster.home (off / 64)).wts
    let (olds, top, s) := s.performAtomics g c t more
    ((lane, old) :: olds, max w top, s)

/-- An access at a home whose page has been refused: the trap is left to the stream, and nothing is written (R223). -/
def State.refuseAtHome (s : State) (c : Nat) (a : Asker) (cause addr : Nat) : State :=
  ((s.performed a 0).leaveRefusal a cause (BitVec.ofNat 64 (s.clusterAddress a.agent.ctx a.core c addr))).reply c a.core (.ack 0 [] a)

/-- STORE_AT_HOME: a cluster store, or the atomics of a unit, are performed at the home of their lines and acknowledged (R180 to
R183, R192). -/
def execStoreAtHome (c n : Nat) (s : State) : Host.Outcome State Fault Refusal :=
  match s.message c .req n with
  | some ⟨_, .store writes clock a, _⟩ =>
    if !s.inTurn c .req n || !s.replyRoom c a.core then .next s
    else match s.pages c a.agent.ctx (writes.map (·.1)) (some a.waiter) with
      | .waiting s => .next s
      | .refused addr cause s => .next ((s.take c .req n).refuseAtHome c a cause addr)
      | .ready =>
        let line := ((writes.head?.map (·.1)).getD 0) / 64
        let s := (s.take c .req n).storeBytes a.agent c line writes clock
        let t := ((s.core c).cluster.home line).wts
        .next (((s.mayOwn c line a.core).performed a t).reply c a.core (.ack t [] a))
  | some ⟨_, .atomics ops reply clock a, _⟩ =>
    if !s.inTurn c .req n || !s.replyRoom c a.core then .next s
    else match s.pages c a.agent.ctx (ops.map (·.2.1)) (some a.waiter) with
      | .waiting s => .next s
      | .refused addr cause s => .next ((s.take c .req n).refuseAtHome c a cause addr)
      | .ready =>
        let (olds, t, s) := (s.take c .req n).performAtomics a.agent c clock ops
        .next ((s.performed a t).reply c a.core (.ack t (if reply then olds else []) a))
  | _ => .next s

/-- The values that an acknowledgement carries reach the unit that waits for them; with the last, it completes (R183, R197). -/
def State.takeValues (s : State) (a : Asker) (olds : List (Nat × Word)) : State :=
  match s.pendingOf a with
  | none => s
  | some p =>
    let values := olds.foldl (fun m x => SMap.put m x.1 (x.2.setWidth 64)) p.values
    let missing := olds.foldl (fun m x => m &&& ~~~(laneBit x.1)) p.missing
    let p := { p with values := values, missing := missing }
    if missing = 0 then s.completePending a p else s.setPending a (some p)

/-- STORE_ACKNOWLEDGEMENT: a store, an atomic, a weight return or a post is completed (R183, R202, R326, R330). -/
def execStoreAcknowledgement (c n : Nat) (s : State) : Host.Outcome State Fault Refusal :=
  match s.message c .rsp n with
  | some ⟨_, .ack t olds a, _⟩ =>
    let s := (((s.take c .rsp n).acknowledge a).raiseClock c t)
    .next (if olds.isEmpty then s else s.takeValues a olds)
  | some ⟨src, .postAnswer accepted m _ a, _⟩ => .next ((s.take c .rsp n).postAnswered c src accepted m a)
  | _ => .next s

/-- LOGICAL_CLOCK_TICK (R190). -/
def execLogicalClockTick (c : Nat) (s : State) : Host.Outcome State Fault Refusal :=
  .next (s.modCluster c fun p => { p with clock := p.clock + 1 })

/-- WATCH_RENEWAL: a pushed line enters the cluster cache, and the core's streams that wait re-examine their word (R193, R200,
R201). -/
def execWatchRenewal (c n : Nat) (s : State) : Host.Outcome State Fault Refusal :=
  match s.message c .ctl n with
  | some ⟨_, .watched home line bytes wts rts, _⟩ =>
    if !s.inTurn c .ctl n then .next s
    else
      let s := s.take c .ctl n
      let newer := match SMap.find (s.core c).cluster.cache (lineKey home line) with
        | some l => decide (l.wts ≤ wts)
        | none => true
      let s := if newer && home != c then s.cacheLine c (lineKey home line) ⟨bytes, wts, rts, none, []⟩ else s
      .next { s with agenda := ((s.core c).streams c).map Turn.poll ++ s.agenda }
  | _ => .next s

/-- WAIT_POLL: a stream that waits re-reads its word (R201). -/
def execWaitPoll (ref : StreamRef) (s : State) : Host.Outcome State Fault Refusal :=
  .next { s with agenda := .poll ref :: s.agenda }

end Sys2Proof.Machine
end

