-- ==== Sys2Proof/Machine/Slots.lean ====
section
/-! DEFINITION. The tile table: slots, reservations, and what a write to a slot does to the fid's record of it (R263 to R271,
R290, R291). -/

namespace Sys2Proof.Machine

def TilePart.slot (t : TilePart) (k : Nat) : Slot := (SMap.find t.slots k).getD Slot.reset

def TilePart.setSlot (t : TilePart) (k : Nat) (x : Slot) : TilePart := { t with slots := SMap.put t.slots k x }

def TilePart.modSlot (t : TilePart) (k : Nat) (f : Slot → Slot) : TilePart := t.setSlot k (f (t.slot k))

/-- Changes every slot of a range. -/
def TilePart.modSlots (t : TilePart) (first count : Nat) (f : Slot → Slot) : TilePart :=
  (List.range count).foldl (fun t j => t.modSlot (first + j) f) t

/-- The fid's record of a slot, as a context sees it: another context's reads as absent (R290). -/
def TilePart.record (t : TilePart) (ctx k : Nat) : FidRecord :=
  match SMap.find t.fid k with
  | some r => if r.ctx = ctx then r else FidRecord.reset
  | none => FidRecord.reset

/-- A compilation leaves compiling: its request gives up its place (R295). -/
def TilePart.dropRequest (t : TilePart) (k : Nat) : TilePart :=
  { t with requests := t.requests.filter (·.1 ≠ k), compiling := t.compiling && t.requests.head?.map (·.1) != some k }

/-- A write to a slot is accepted: its record goes stale (R291). -/
def TilePart.staleRecord (t : TilePart) (k : Nat) : TilePart :=
  match SMap.find t.fid k with
  | none => t
  | some r =>
    match r.state with
    | .absent | .stale => t
    | _ => { t.dropRequest k with fid := SMap.put t.fid k { r with state := .stale, prog := [] } }

/-- PINV, or the end of the groups that used the slot: its record is absent (R291). -/
def TilePart.dropRecord (t : TilePart) (k : Nat) : TilePart := { t.dropRequest k with fid := SMap.drop t.fid k }

/-- A write to a slot begins (R270, R271). -/
def TilePart.beginWrite (t : TilePart) (k : Nat) : TilePart := (t.staleRecord k).modSlot k fun x => { x with state := .filling }

/-- A write to a slot completes (R270). -/
def TilePart.endWrite (t : TilePart) (k : Nat) : TilePart :=
  t.modSlot k fun x => { x with state := .ready, gen := x.gen + 1 }

/-- A slot can take a write now (R270, R271). -/
def Slot.writable (x : Slot) : Bool := (x.state == .empty || x.state == .ready) && x.readers == 0

/-- The bytes of a slot from an offset up. -/
def TilePart.bytes (t : TilePart) (k off n : Nat) : List Byte := Memory.readBytes t.opmem (8192 * k + off) n

def TilePart.putBytes (t : TilePart) (k off : Nat) (bs : List Byte) : TilePart :=
  { t with opmem := Memory.writeBytes t.opmem (8192 * k + off) bs }

/-- Zeroes a slot: no byte of it stays listed. -/
def TilePart.zero (t : TilePart) (k : Nat) : TilePart :=
  { t with opmem := t.opmem.filter fun x => x.1 / 8192 ≠ k }

/-- A slot is freed: bytes zeroed, generation raised (R270). -/
def TilePart.free (t : TilePart) (k : Nat) : TilePart :=
  ((t.staleRecord k).zero k).modSlot k fun x => { x with state := .free, gen := x.gen + 1, readers := 0, claims := 0 }

/-! ### Reservations (R265, R269) -/

/-- The slots of a reservation. -/
def Reservation.holds (v : Reservation) (k : Nat) : Bool := decide (v.first ≤ k) && decide (k < v.first + v.count)

/-- The reservation of a group that holds a slot. -/
def Resident.reservation (r : Resident) (k : Nat) : Option Reservation := r.resvs.find? (·.holds k)

/-- The element size of a format in bytes, the length of a row in elements, and the chunk length of R79 (R263). -/
def fmtSize (f : Nat) : Nat := if f = 0 then 1 else if f = 3 then 4 else 2
def fmtRow (f : Nat) : Nat := 128 / fmtSize f
def fmtChunk (f : Nat) : Nat := if f = 0 then 32 else if f = 3 then 4 else 16

/-- The block length L of a reservation. -/
def Reservation.block (v : Reservation) : Nat := if v.bl then 32 else 16

/-- The run offset of a scale byte (R266). -/
def Reservation.scaleAt (v : Reservation) (j row b : Nat) : Nat :=
  v.soff + j * 64 * (128 / v.block) + row * (128 / v.block) + b

/-- SLOT_STATE with its reason and slot (R287). -/
def Issue.slotState (i : Issue) (reason slot : Nat) (s : State) : Eff := i.trapAt Cause.slotState 0 (reason + 32 * slot) s

end Sys2Proof.Machine
end

