-- ==== Sys2Proof/Machine/Queue.lean ====
section
/-! DEFINITION. The engine queues: the XF family, the pieces of an entry, counters, refusals, and the events of the copy engine
(R241 to R261). -/

namespace Sys2Proof.Machine

/-! ### Queues -/

/-- The queues of a unit; unit 16 stands for the core's handler queues (R241). -/
def State.engineQueues (s : State) (c u : Nat) : List EngineQueue :=
  if u = 16 then (s.core c).handlers.queues else ((s.unit c u).map (·.engines)).getD []

def State.queue (s : State) (c u q : Nat) : EngineQueue := ((s.engineQueues c u)[q]?).getD EngineQueue.idle

def State.modQueue (s : State) (c u q : Nat) (f : EngineQueue → EngineQueue) : State :=
  if u = 16 then s.modHandlers c fun h => { h with queues := setAt q f h.queues }
  else s.modUnit c u fun r => { r with engines := setAt q f r.engines }

/-- The context of a queue. -/
def State.queueCtx (s : State) (c u : Nat) : Nat :=
  if u = 16 then ((s.holder c).map (·.1)).getD 0 else ((s.unit c u).map (·.info.ctx)).getD 0

/-- The queues that a stream's XF units name (R241). -/
def Issue.engines (i : Issue) : Nat := if i.kind == .run then 16 else i.unit

/-- TINFO of R252. -/
def engineInfo (u q value : Nat) (seq : Word) : Nat :=
  q + 4 * value + (if u = 16 then 64 else 0) + 256 * (seq.toNat % 2 ^ 24)

/-! ### Pieces (R245, R256, R257) -/

/-- The runs of virtual bytes of an entry: virtual address, place in the transfer, length. -/
def EngineOp.rows : EngineOp → List (Nat × Nat × Nat)
  | .copy _ va len _ _ _ => [(va, 0, len)]
  | .tiles va pitch _ count _ => (List.range (64 * count)).map fun k => (va + k * pitch, 128 * k, 128)
  | _ => []

/-- The 4 KiB blocks that runs of bytes touch, ascending: block p is piece p. -/
def blocksOf (l : List (Nat × Nat × Nat)) : List Nat :=
  l.foldl (fun acc x =>
    (List.range ((x.1 + x.2.2 - 1) / 4096 - x.1 / 4096 + 1)).foldl (fun acc j =>
      if acc.getLast? = some (x.1 / 4096 + j) then acc else acc ++ [x.1 / 4096 + j]) acc) []

def EngineOp.blocks (o : EngineOp) : List Nat := blocksOf o.rows

/-- A run cut to a range of virtual addresses. -/
def cutRun (lo hi : Nat) (x : Nat × Nat × Nat) : Option (Nat × Nat × Nat) :=
  let a := max x.1 lo
  let b := min (x.1 + x.2.2) hi
  if a < b then some (a, x.2.1 + (a - x.1), b - a) else none

/-- The bytes of an entry in one 64-byte block of virtual address. -/
def EngineOp.lineRuns (o : EngineOp) (line : Nat) : List (Nat × Nat × Nat) :=
  o.rows.filterMap (cutRun (64 * line) (64 * line + 64))

/-- The 64-byte blocks of piece `b`, by virtual line number. -/
def EngineOp.lines (o : EngineOp) (b : Nat) : List Nat :=
  (List.range 64).filterMap fun j => if (o.lineRuns (64 * b + j)).isEmpty then none else some (64 * b + j)

def EngineOp.stows : EngineOp → Bool
  | .copy stow .. => stow
  | _ => false

def Entry.piece (e : Entry) (p : Nat) : Piece := (SMap.find e.pieces p).getD Piece.fresh

/-- Changes a piece of the head entry of a queue. -/
def State.modPiece (s : State) (c u q p : Nat) (f : Piece → Piece) : State :=
  s.modQueue c u q fun x => { x with entries := setAt 0 (fun e => { e with pieces := SMap.put e.pieces p (f (e.piece p)) }) x.entries }

/-- The head entry of a queue, when the engine works on it. -/
def State.working (s : State) (c u q : Nat) : Option Entry :=
  let x := s.queue c u q
  if x.faulted then none else match x.entries with
    | e :: _ => if e.commanded then some e else none
    | [] => none

/-! ### Local side (R185, R187, R248) -/

/-- A store event of an engine of core c: bytes of one 64-byte block of what it moves, which may lie in two lines of the home. Its
write time follows the leases of both, and the core's clock does not stay behind (R185, R192, R245). -/
def State.storeBlock (s : State) (g : Agent) (c home a : Nat) (bs : List Byte) : State :=
  let k := 64 - a % 64
  let p := (s.core home).cluster
  let t := (linesOf a bs.length).foldl (fun t line => max t ((p.home line).rts + 1)) (s.core c).cluster.clock
  let s := s.storeAt g home a (bs.take k) t
  (if k < bs.length then s.storeAt g home (a + k) (bs.drop k) t else s).raiseClock c t

/-- Stores bytes at a home, line by line, as events of an engine of core c. -/
def State.engineStore (s : State) (g : Agent) (c home a : Nat) (bs : List Byte) : Nat → State
  | 0 => s
  | n + 1 =>
    if bs.isEmpty then s else
    let k := 64 - a % 64
    (s.storeBlock g c home a (bs.take k)).engineStore g c home (a + k) (bs.drop k) n

/-- Reads bytes at a home as one event of an engine of core c: it takes a lease at the core's clock, or at the write time that it
reads, and the clock does not stay behind (R185, R186, R191). -/
def State.engineLoad (s : State) (g : Agent) (c home a n : Nat) : List Byte × State :=
  let p := (s.core home).cluster
  let t := (linesOf a n).foldl (fun t line => max t (p.home line).wts) (s.core c).cluster.clock
  (s.localBytes home g.ctx a n,
    ((linesOf a n).foldl (fun s line => (s.touch home g.ctx (64 * line)).modCluster home fun p =>
      { p with homes := SMap.put p.homes line ((p.home line).read t) }) s).raiseClock c t)

/-- The pages that a range of local bytes needs. -/
def pagesOf (a n : Nat) : List Nat := (List.range ((a + n - 1) / 4096 - a / 4096 + 1)).map fun j => 4096 * (a / 4096 + j)

/-- A counter is bumped at its home (R248). -/
def State.bump (s : State) (g : Agent) (c home a : Nat) (inc : Word) : State :=
  let (_, s) := s.atomicAt g home a .add inc (s.core c).cluster.clock
  s.raiseClock c ((s.core home).cluster.home (a / 64)).wts

/-! ### Refusals and their traps (R250 to R252, R450) -/

/-- Leaves a trap to a stream of a unit: to the one that issued, else to the other, else to the group (R252). -/
def State.leaveTrap (s : State) (c u : Nat) (lead : Bool) (t : TrapRec) : State :=
  match s.unit c u with
  | none => s
  | some r =>
    let leadLive := (r.lead.map (!·.ended)).getD false
    let laneLive := r.lanes.live != 0
    let toLead := if lead then leadLive || !laneLive else leadLive && !laneLive
    s.modCtl c u fun k => { k with waiting := k.waiting ++ [(toLead && leadLive, t)] }

/-- Delivers the trap of an entry to the stream that issued it: a run takes it at its next unit; for one past its HDONE the fault
handler is told (R252, R323, R450). -/
def State.deliver (s : State) (c u : Nat) (who : Issuer) (t : TrapRec) : State :=
  match who with
  | .lanes _ => s.leaveTrap c u false t
  | .lead _ => s.leaveTrap c u true t
  | .run k => match s.run c k with
    | some r => if r.done then report s else s.modRun c k fun r => { r with due := r.due <|> some (t, r.s.front.start) }
    | none => report s
  | _ => report s
where
  /-- The report of type 4 for a run that has ended. -/
  report (s : State) : State :=
    s.faultReport (s.queueCtx c u) c [BitVec.ofNat 64 (t.cause + 4 * 65536), 0xFFFFFFFF, t.addr, t.info]

/-- The slots of a HAULT entry that no longer exists give up its write claim. -/
def TilePart.unclaim (t : TilePart) (e : Entry) : TilePart :=
  match e.op with
  | .tiles _ _ slot count _ => t.modSlots slot count fun x => { x with claims := x.claims - 1 }
  | _ => t

/-- What waited for pages of any core does so no more. -/
def State.dropWaits (s : State) (who : Issuer) : State := { s with cores := s.cores.map fun k => (k.1, k.2.dropWaiter who) }

/-- An entry is discarded: its stalled pieces, its waits and its claims are forgotten (R244). -/
def State.forgetEntry (s : State) (c u q : Nat) (e : Entry) : State :=
  let mine (x : Stalled) : Bool := match x.who with
    | .piece c' u' q' _ seq => c' == c && u' == u && q' == q && seq == e.seq
    | _ => false
  let s := s.modStation (stationOf c) fun t => { t with stalled := t.stalled.filter fun x => !mine x }
  (s.dropWaits (.queue c u q)).modTile c (·.unclaim e)

/-- The engine refuses the head entry: it is discarded, the queue is faulted, its stream traps (R251, R252). -/
def State.refuseEntry (s : State) (c u q : Nat) (cause value fr addr : Nat) : State :=
  match (s.queue c u q).entries with
  | [] => s
  | e :: more =>
    let s := s.forgetEntry c u q e
    let s := s.modQueue c u q fun x => { x with faulted := true, entries := more, done := x.done + 1, reason := fr }
    s.deliver c u e.issuer ⟨cause, 0, BitVec.ofNat 64 addr, BitVec.ofNat 64 (engineInfo u q value e.seq)⟩

/-- What FR shows for a cause and the KIND of its fault record (R259). -/
def refusalReason (cause kind : Nat) : Nat := if cause = Cause.eccUncorr then 0x20 else 0x10 + kind

/-- A local page that the head entry of a queue needs has been refused, or read an uncorrectable error: a replayable launch rolls
back, any other's entry is refused (R223, R250, R252, R379). `s0` is the state in which the page of offset `a` was found so; `addr` is
TADDR: the virtual address of a piece, or the own address of a counter (DEDUCED, log entry 100). -/
def State.refusePage (s0 s : State) (c u q home cause a addr : Nat) : State :=
  let ctx := s.queueCtx c u
  let kind := (((s0.core home).frameOf ctx (a / 4096)).map (·.2.kind)).getD 0
  match (s.queue c u q).entries with
  | [] => s
  | e :: _ =>
    if cause = Cause.eccUncorr && s.absorbs ⟨ctx, e.launch⟩ then s.beginRollback ctx e.launch false
    else s.refuseEntry c u q cause (if cause = Cause.eccUncorr then 0 else kind) (refusalReason cause kind) addr

/-! ### Completion (R248, R258, R261) -/

/-- A join entry is at the head of every named queue that still holds it (R261). -/
def joinReady (qs : List EngineQueue) (mask : BitVec 4) (id : Nat) : Bool :=
  (List.range 4).all fun j =>
    let x := (qs[j]?).getD EngineQueue.idle
    let here (e : Entry) : Bool := e.op == .join mask id
    !mask.getLsbD j || !x.entries.any here || (!x.faulted && (x.entries.head?.map here).getD false)

/-- The head entry of a queue has completed. -/
def State.popEntry (s : State) (c u q : Nat) : State :=
  s.modQueue c u q fun x => { x with entries := x.entries.drop 1, done := x.done + 1 }

/-- The completion of an entry whose pieces are all performed: its bumps, far before near, once their pages are there. A far counter
is given by its unified address, its home, its offset there and its increment. -/
def State.complete (s : State) (c u q : Nat) (e : Entry) (far : Option (Nat × Nat × Nat × Word)) (near : Option Nat) : State × Bool :=
  let g : Agent := ⟨s.queueCtx c u, e.launch⟩
  let ready (s : State) (home a addr : Nat) : Except State Unit :=
    match s.pages home g.ctx [a] (some (.queue c u q)) with
    | .ready => .ok ()
    | .waiting s => .error s
    | .refused a cause t => .error (s.refusePage t c u q home cause a addr)
  match (match far with | some (addr, home, a, _) => ready s home a addr | none => .ok ()) with
  | .error s => (s, false)
  | .ok _ =>
    match (match near with | some a => ready s c a a | none => .ok ()) with
    | .error s => (s, false)
    | .ok _ =>
      let s := match far with | some (_, home, a, inc) => s.bump g c home a inc | none => s
      let s := match near with | some a => s.bump g c c a 1 | none => s
      (s.popEntry c u q, true)

/-- Every piece of an entry is performed. -/
def Entry.performed (e : Entry) : Bool :=
  (List.range e.op.blocks.length).all fun p => (e.piece p).state == .performed

/-- The virtual range of an entry breaks R251: the reason. -/
def EngineOp.refused (o : EngineOp) : Option (Nat × Nat) :=
  match o.rows.head?, o.rows.getLast? with
  | some (va, _, _), some (v, _, n) => if 2 ^ 57 ≤ va then some (1, va) else if 2 ^ 57 < v + n then some (2, va) else none
  | _, _ => none

/-- The head entry of a queue goes one stage on: refused, or completed; the flag says that it did. -/
def State.advanceHead (s : State) (c u q : Nat) : State × Bool :=
  match s.working c u q with
  | none => (s, false)
  | some e =>
    match e.op.refused with
    | some (reason, va) => (s.refuseEntry c u q Cause.engineFault reason reason va, true)
    | none =>
      match e.op with
      | .join mask id =>
        if joinReady (s.engineQueues c u) mask id then
          ((List.range 4).foldl (fun s j =>
            if (((s.queue c u j).entries.head?.map (·.op == .join mask id))).getD false then s.popEntry c u j else s) s, true)
        else (s, false)
      | .bump a inc =>
        match s.locateFrom (s.queueCtx c u) c .unified a.toNat with
        | some (home, off) => s.complete c u q e (some (a.toNat, home, off, inc)) none
        | none => (s, false)
      | .copy _ _ _ _ far near =>
        if !e.performed then (s, false)
        else s.complete c u q e
          (far.bind fun a => (s.locateFrom (s.queueCtx c u) c .unified a.toNat).map fun (home, off) => (a.toNat, home, off, 1)) (some near)
      | .tiles _ _ slot count near =>
        if !e.performed then (s, false)
        else
          let (t, done) := s.complete c u q e none (some near)
          if done then
            (t.modTile c fun t => (List.range count).foldl (fun t j => t.endWrite (slot + j)) (t.unclaim e), true)
          else (t, false)

/-- The queues of a unit go on as far as they can. -/
def State.advance (s : State) (c u : Nat) : Nat → State
  | 0 => s
  | n + 1 =>
    let (s, moved) := (List.range 4).foldl (fun (acc : State × Bool) q =>
      let (s, m) := acc.1.advanceHead c u q
      (s, acc.2 || m)) (s, false)
    if moved then s.advance c u n else s

/-! ### The XF family (R255 to R261) -/

def xfAttr : Attr := { ximm := true, noMod := true, event := true, spin := true }

/-- The bytes of a range of one core's local space: core and offset, or cause and TADDR (R255). -/
def State.spanAt (s : State) (i : Issue) (a n align : Nat) : Except (Nat × Nat) (Nat × Nat) :=
  match s.locate i .unified a with
  | none => .error (Cause.clusterAddr, a)
  | some (c, off) =>
    let limit := if i.window.all then 2 ^ 20 else min (2 ^ 20) (i.window.base + i.window.size)
    if !i.window.holds off n then .error (Cause.lsBound, if i.window.holds off 1 then a + (limit - off) else a)
    else if off % align ≠ 0 then .error (Cause.misalign, a)
    else .ok (c, off)

/-- The near counter at local address 4 x K (R256). -/
def State.nearAt (s : State) (i : Issue) (k : Nat) : Except (Nat × Nat) (Nat × Nat) :=
  let _ := s
  if i.window.holds (4 * k) 4 then .ok (i.core, 4 * k) else .error (Cause.lsBound, 4 * k)

/-- The first failing address in the order of causes (R195, R255). -/
def firstFailing (l : List (Except (Nat × Nat) (Nat × Nat))) : Option (Nat × Nat) :=
  [Cause.clusterAddr, Cause.lsBound, Cause.misalign].findSome? fun cause =>
    l.findSome? fun x => match x with
      | .error (c, a) => if c = cause then some (c, a) else none
      | .ok _ => none

/-- The shape of an XF instruction: operands A and B from the lowest active lane, no queue register. -/
def xfUnit (a b : RegField) (write : List RegField) (g : GuardField) (f : Issue → Dword → Dword → State → Eff) (s : State) :
    Host.Outcome State Fault Refusal :=
  twoWide xfAttr a b write g (fun _ => isQueue a || isQueue b) (fun i x y s _ => f i x y s) s

/-- Places an entry in a queue, with its command message (R242). -/
def State.placeEntry (s : State) (i : Issue) (q : Nat) (op : EngineOp) (commanded : Bool) : State :=
  let seq := (s.queue i.core i.engines q).nextSeq
  let e : Entry := ⟨seq, op, i.who, i.launch, commanded, false, []⟩
  let s := s.modQueue i.core i.engines q fun x => { x with entries := x.entries ++ [e], nextSeq := x.nextSeq + 1 }
  if commanded then s else s.command i.core (.entry i.engines q seq)

/-- ENGINE_FAULT with reason 4 (R260); TINFO holds the number of the refused entry (DESIGN CHOICE, log entry 106). -/
def State.queueFaulted (s : State) (i : Issue) (q : Nat) : Eff :=
  i.trapAt Cause.engineFault 0 (engineInfo i.engines q 4 ((s.queue i.core i.engines q).done - 1)) s

/-- The last checks and the acceptance of an entry (R242, R255). -/
def State.accept (s : State) (i : Issue) (q : Nat) (op : EngineOp) (k : State → State) : Eff :=
  let x := s.queue i.core i.engines q
  if x.faulted then s.queueFaulted i q
  else if 16 ≤ x.entries.length || !s.ownRoom i.core then .wait s
  else .done (k (s.placeEntry i q op false))

/-- HAUL, STOW, HAUL2 and STOW2 (R256). -/
def copyUnit (stow two : Bool) (a b : RegField) (q : BitVec 2) (g : GuardField) (s : State) : Host.Outcome State Fault Refusal :=
  xfUnit a b [] g (fun i x y s =>
    let lc := i.k / 2 ^ 18
    let len := if two then 64 * 2 ^ lc else y.toNat / 2 ^ 32 % 2 ^ 21
    let bad := if two then decide (14 < lc)
      else lc != 0 || y.toNat / 2 ^ 53 != 0 || decide (len < 4) || decide (2 ^ 20 < len) || len % 4 != 0
    if bad || x.toNat % 4 ≠ 0 then i.illegal 20 s
    else if i.hank then i.queueMap q.toNat 0 s
    else
      let near := i.k % 2 ^ 18
      let checks := [s.spanAt i (y.toNat % 2 ^ 32) len 4]
        ++ (if two then [s.spanAt i (y.toNat / 2 ^ 32) 4 4] else []) ++ [s.nearAt i near]
      match firstFailing checks with
      | some (cause, addr) => i.trapAt cause addr 0 s
      | none =>
        s.accept i q.toNat (.copy stow x.toNat len (y.setWidth 32) (if two then some ((y >>> 32).setWidth 32) else none) (4 * near)) id) s

def execHaul (a b : RegField) (q : BitVec 2) (g : GuardField) (s : State) : Host.Outcome State Fault Refusal :=
  copyUnit false false a b q g s
def execStow (a b : RegField) (q : BitVec 2) (g : GuardField) (s : State) : Host.Outcome State Fault Refusal :=
  copyUnit true false a b q g s
def execHaul2 (a b : RegField) (q : BitVec 2) (g : GuardField) (s : State) : Host.Outcome State Fault Refusal :=
  copyUnit false true a b q g s
def execStow2 (a b : RegField) (q : BitVec 2) (g : GuardField) (s : State) : Host.Outcome State Fault Refusal :=
  copyUnit true true a b q g s

/-- A slot of a range that the issuing group does not hold (R257, R272, R287). -/
def State.unheld (s : State) (i : Issue) (slot count : Nat) : Option Nat :=
  match s.unit i.core i.unit with
  | none => some slot
  | some r => ((List.range count).find? fun j => i.kind == .run || (r.reservation (slot + j)).isNone).map (slot + ·)

/-- HAULT (R257): its slots take a write claim. -/
def execHault (a b : RegField) (q : BitVec 2) (g : GuardField) (s : State) : Host.Outcome State Fault Refusal :=
  xfUnit a b [] g (fun i x y s =>
    let slot := y.toNat % 64
    let count := y.toNat / 64 % 64 + 1
    let pitch := y.toNat / 2 ^ 32
    if decide (2 ^ 18 ≤ i.k) || y.toNat / 2 ^ 12 % 2 ^ 20 != 0 || decide (64 < slot + count)
        || (pitch != 0 && (pitch % 64 != 0 || decide (pitch < 128))) then i.illegal 20 s
    else if i.hank then i.queueMap q.toNat 0 s
    else match firstFailing [s.nearAt i i.k, if x.toNat % 64 ≠ 0 then .error (Cause.misalign, x.toNat) else .ok (0, 0)] with
      | some (cause, addr) => i.trapAt cause addr 0 s
      | none => match s.unheld i slot count with
        | some k => i.slotState 1 k s
        | none => s.accept i q.toNat (.tiles x.toNat (if pitch = 0 then 128 else pitch) slot count (4 * i.k)) fun s =>
            s.modTile i.core fun t => t.modSlots slot count fun x => { x with claims := x.claims + 1 }) s

/-- CBUMP (R258). -/
def execCbump (a b : RegField) (q : BitVec 2) (g : GuardField) (s : State) : Host.Outcome State Fault Refusal :=
  xfUnit a b [] g (fun i x y s =>
    if i.k ≠ 0 then i.illegal 20 s
    else if i.hank then i.queueMap q.toNat 0 s
    else match firstFailing [s.spanAt i (x.toNat % 2 ^ 32) 4 4] with
      | some (cause, addr) => i.trapAt cause addr 0 s
      | none => s.accept i q.toNat (.bump (x.setWidth 32) (y.setWidth 32)) id) s

/-- A piece of the head entry waits at its station under a failed walk (R244). -/
def EngineQueue.stalled (x : EngineQueue) : Bool :=
  match x.entries with
  | e :: _ => e.pieces.any fun p => p.2.state == .stalled
  | [] => false

/-- The status word of a queue (R259). -/
def EngineQueue.status (x : EngineQueue) : Nat :=
  (if x.faulted then 3 else if x.stalled then 2 else if x.entries.isEmpty then 0 else 1) + 4 * x.entries.length
    + 256 * x.reason + 2 ^ 16 * (x.nextSeq.toNat % 2 ^ 16) + 2 ^ 32 * (x.done.toNat % 2 ^ 16)

/-- CLR: every entry held is discarded (R244, R261). -/
def State.clearQueue (s : State) (c u q : Nat) : State :=
  let x := s.queue c u q
  let s := x.entries.foldl (fun s e => s.forgetEntry c u q e) s
  (s.modQueue c u q fun x => { x with
    faulted := false, entries := [], done := x.done + BitVec.ofNat 32 x.entries.length, reason := 0 }).advance c u 64

/-- XSTAT (R259). -/
def execXstat (a : RegField) (q : BitVec 2) (g : GuardField) (s : State) : Host.Outcome State Fault Refusal :=
  xfUnit 60 60 [a] g (fun i _ _ s =>
    if isQueue a then i.illegal 0 s
    else if 1 < i.k then i.illegal 20 s
    else if i.hank then i.queueMap q.toNat 0 s
    else
      let x := s.queue i.core i.engines q.toNat
      let t := s.writeLanes i .pair a i.active fun _ => BitVec.ofNat 64 x.status
      .done (if i.k = 1 && x.faulted then t.clearQueue i.core i.engines q.toNat else t)) s

/-- QFENCE: a join entry in every named queue (R261), with no command message (DESIGN CHOICE, log entry 107). -/
def execQfence (m : BitVec 4) (g : GuardField) (s : State) : Host.Outcome State Fault Refusal :=
  xfUnit 60 60 [] g (fun i _ _ s =>
    let named := (List.range 4).filter fun j => m.getLsbD j
    if m = 0 then i.illegal 0 s
    else if i.k ≠ 0 then i.illegal 20 s
    else if i.hank then i.queueMap (named.headD 0) 0 s
    else match named.find? fun j => (s.queue i.core i.engines j).faulted with
      | some j => s.queueFaulted i j
      | none =>
        if named.any fun j => decide (16 ≤ (s.queue i.core i.engines j).entries.length) then .wait s
        else
          let (id, s) := s.newId i.core
          .done ((named.foldl (fun s j => s.placeEntry i j (.join m id) true) s).advance i.core i.engines 64)) s

/-! ### Events of the engine (R12, R233, R234, R245 to R247, R257) -/

/-- HAULT_SLOT_WRITE: a HAULT entry at its turn moves its slots to filling, once their readers are gone (R257, R271). -/
def execHaultSlotWrite (c u q : Nat) (s : State) : Host.Outcome State Fault Refusal :=
  match s.working c u q with
  | some e => match e.op with
    | .tiles _ _ slot count _ =>
      if e.filling || !(List.range count).all fun j => ((s.core c).tile.slot (slot + j)).writable then .next s
      else .next ((s.modQueue c u q fun x => { x with entries := setAt 0 (fun e => { e with filling := true }) x.entries }).modTile c
        fun t => (List.range count).foldl (fun t j => t.beginWrite (slot + j)) t)
    | _ => .next s
  | none => .next s

/-- The port set of a package holds no port (R251, R419). -/
def State.noPorts (s : State) (pkg : Nat) : Bool := SMap.word s.link.fps pkg == 0

/-- A block of an entry whose page maps a package without a port set, as the tables stand (R251). -/
def State.unreachable (s : State) (c u : Nat) (e : Entry) : Bool :=
  let ctx := s.queueCtx c u
  let acc := if e.op.stows then 1 else 0
  e.op.blocks.any fun b =>
    let place := match (s.station (stationOf c)).hit ctx (4096 * b) acc with
      | some p => some p
      | none => match s.walk ctx (4096 * b) acc with
        | .ok t => some (t.place! (4096 * b))
        | .error _ => none
    match place with
    | some (.package pkg _) => s.noPorts pkg
    | _ => false

/-- Where the local side of an entry's transfer byte lies: home and offset; none for slots. -/
def State.localSide (s : State) (c u : Nat) (o : EngineOp) (off : Nat) : Option (Nat × Nat) :=
  match o with
  | .copy _ _ _ buf _ _ => (s.locateFrom (s.queueCtx c u) c .unified buf.toNat).map fun (home, a) => (home, a + off)
  | _ => none

/-- The runs of a piece. -/
def EngineOp.blockRuns (o : EngineOp) (b : Nat) : List (Nat × Nat × Nat) :=
  (o.lines b).flatMap o.lineRuns

/-- The first virtual address of a piece. -/
def EngineOp.firstVa (o : EngineOp) (b : Nat) : Nat := ((o.blockRuns b).head?.map (·.1)).getD (4096 * b)

/-- The place of the 4 KiB block that holds a place. -/
def Place.block (p : Place) (va : Nat) : Place :=
  match p with
  | .hbm a => .hbm (a - va % 4096)
  | .host a => .host (a - va % 4096)
  | .package k a => .package k (a - va % 4096)

/-- The local bytes that a piece reads or writes: home and page addresses. -/
def State.piecePages (s : State) (c u : Nat) (o : EngineOp) (b : Nat) : Option (Nat × List Nat) :=
  match o.blockRuns b with
  | [] => none
  | l => (s.localSide c u o 0).map fun (home, a) => (home, l.flatMap fun x => pagesOf (a + x.2.1) x.2.2)

/-- The bytes of a piece that has been read go to its buffer or its slots (R245, R257). -/
def State.landPiece (s : State) (c u : Nat) (e : Entry) (b : Nat) (data : SMap Byte) : State :=
  (e.op.lines b).foldl (fun s line => (e.op.lineRuns line).foldl (fun s (va, off, n) =>
    let bs := (List.range n).map fun j => (SMap.find data (va % 4096 + j)).getD 0
    match e.op with
    | .tiles _ _ slot _ _ => s.modTile c fun t => t.putBytes slot off bs
    | _ => match s.localSide c u e.op off with
      | some (home, a) => s.storeBlock ⟨s.queueCtx c u, e.launch⟩ c home a bs
      | none => s) s) s

/-- The bytes that a stow carries from one 64-byte block of virtual address: address and bytes (R245). -/
def State.stowLine (s : State) (c u : Nat) (e : Entry) (line : Nat) : List (Nat × List Byte) × State :=
  (e.op.lineRuns line).foldl (fun (acc : List (Nat × List Byte) × State) (va, off, n) =>
    match acc.2.localSide c u e.op off with
    | some (home, a) =>
      let (bs, s) := acc.2.engineLoad ⟨acc.2.queueCtx c u, e.launch⟩ c home a n
      (acc.1 ++ [(va, bs)], s)
    | none => acc) ([], s)

/-- Bytes of which nothing here tells: free values, eight bytes each (log entry 20). -/
def State.foreignBytes (s : State) (n : Nat) : List Byte × State :=
  ((List.range n).map fun j => BitVec.ofNat 8 ((Config.freeValue (s.free + j / 8)).toNat / 256 ^ (j % 8)), { s with free := s.free + n / 8 + 1 })

/-- A read of a line for the host or for another package: an error of a poisoned line is signalled again; of a line read from HBM4 a
free value tells whether it has an uncorrectable error (R429; log entry 40). -/
def State.checkedRead (s : State) (line : Nat) : State :=
  if s.l2.poisoned.contains line || s.cached line || (s.sliceOf (64 * line)).isNone then s.signalRead line
  else
    let (v, s) := s.freeValue
    (if v.getLsbD 1 then s.modL2 fun l => { l with poisoned := line :: l.poisoned } else s).signalRead line

/-- The bytes that such a read returns: free values from HBMTOP on, where no domain holds the address, and where its line is poisoned
(log entry 20). -/
def State.checkedBytes (s : State) (a n : Nat) : List Byte × State :=
  let s := (linesOf a n).foldl State.checkedRead s
  let (unknown, s) := s.foreignBytes n
  ((List.range n).map fun j =>
    if hbmTop ≤ a + j || (s.sliceOf (a + j)).isNone || s.l2.poisoned.contains ((a + j) / 64) then (unknown[j]?).getD 0
    else ((s.deviceLine ((a + j) / 64))[(a + j) % 64]?).getD 0, s)

/-- Bytes that the host or another package writes: a line of which they are a part is read, and checked, first (R429). -/
def State.checkedWrite (s : State) (a : Nat) (bs : List Byte) : State :=
  let part := (linesOf a bs.length).filter fun line => decide (64 * line < a) || decide (a + bs.length < 64 * line + 64)
  (part.foldl State.checkedRead s).deviceWriteAll a bs (bs.length / 64 + 2)

/-- Where a byte of host memory or of another package is remembered. -/
def Place.farKey : Place → Nat
  | .hbm a => a
  | .host a => a
  | .package pkg a => 2 ^ 57 * (pkg + 1) + a

/-- Bytes written to another package, or to host memory within its windows, are remembered (R189, R433). -/
def State.rememberFar (s : State) (p : Place) (bs : List Byte) : State :=
  let takes (j : Nat) : Bool := match p with
    | .host a => s.hostHolds (a + j)
    | _ => true
  { s with far := bs.zipIdx.foldl (fun m x => if takes x.2 then SMap.put m (p.farKey + x.2) x.1 else m) s.far }

/-- Bytes that are remembered no more. -/
def State.forgetFar (s : State) (p : Place) (n : Nat) : State :=
  { s with far := s.far.filter fun x => x.1 < p.farKey || p.farKey + n ≤ x.1 }

/-- n bytes that the host or another package answers with: those last written from here, unless a free value tells that another
agent has written their 64-byte block since; the others are free values (R189; log entry 20). -/
def State.farBytes (s : State) (p : Place) (n : Nat) : List Byte × State :=
  let k := p.farKey
  let first := s.free + n / 64 + 2
  let changed (j : Nat) : Bool := (Config.freeValue (s.free + ((k + j) / 64 - k / 64))).getLsbD 0
  let other (j : Nat) : Byte := BitVec.ofNat 8 ((Config.freeValue (first + j / 8)).toNat / 256 ^ (j % 8))
  let byte (j : Nat) : Byte := match SMap.find s.far (k + j) with
    | some b => if changed j then other j else b
    | none => other j
  ((List.range n).map byte, { s with
    free := first + n / 8 + 1
    far := s.far.filter fun x => x.1 < k || k + n ≤ x.1 || !changed (x.1 - k) })

/-- What a read outside every host window returns is all ones (R433). -/
def State.windowed (s : State) (place : Place) (bs : List Byte) : List Byte :=
  match place with
  | .host a => bs.zipIdx.map fun (b, j) => if s.hostHolds (a + j) then b else 0xFF
  | _ => bs

/-- A piece is performed, and its entry goes on. -/
def State.performPiece (s : State) (c u q p : Nat) : State :=
  (s.modPiece c u q p fun x => { x with state := .performed, lines := [], data := [] }).advance c u 64

/-- A piece of a page of the host, whose link is at die 0, or of another package (R19, R246, R247). -/
def State.foreignPiece (s : State) (c u q p : Nat) (e : Entry) (b : Nat) (x : Piece) (place : Place) : State :=
  let held := if e.op.stows then s.logging ⟨s.queueCtx c u, e.launch⟩ else none
  let near : Bool := match place with
    | .host _ => s.routeUp (dieOf c) 0
    | _ => true
  let readable : Bool := match place with
    | .host _ => near
    | _ => x.state == .answered
  match held with
  | some _ =>
    let ctx := s.queueCtx c u
    let (blocks, s) := carried s
    let s := s.modLaunch ctx e.launch fun l => { l with release := (blocks.map fun y => (at' y.1, y.2)) ++ l.release }
    let meets : Bool := match s.launch ctx e.launch with
      | some l => l.meets (128 * l.log.length + l.releaseBytes)
      | none => false
    (remembered (if meets then s.lapse ctx e.launch else s) blocks).performPiece c u q p
  | none =>
    if e.op.stows then
      if x.state == .answered then s.performPiece c u q p
      else if x.sent || !near then s
      else
        let (blocks, s) := carried s
        let s := (remembered s blocks).countOutside place (e.op.lines b)
        let s := s.modPiece c u q p fun x => { x with sent := true }
        match place with
        | .package pkg _ => s.sendFabric pkg (.write c u q p e.seq)
        | _ => s
    else if readable then
      let (bs, s) := s.farBytes place 4096
      let bs := s.windowed place bs
      let s := s.countOutside place (e.op.lines b)
      (s.landPiece c u e b (bs.zipIdx.map fun (y : Byte × Nat) => (y.2, y.1))).performPiece c u q p
    else match place with
      | .package pkg _ =>
        if x.sent then s else (s.modPiece c u q p fun x => { x with sent := true }).sendFabric pkg (.read c u q p e.seq)
      | _ => s
where
  /-- The place of a virtual address of the piece. -/
  at' (va : Nat) : Place := match place with
    | .host a => .host (a + va % 4096)
    | .package pkg a => .package pkg (a + va % 4096)
    | .hbm a => .hbm (a + va % 4096)
  /-- The bytes that the piece carries. -/
  carried (s : State) : List (Nat × List Byte) × State :=
    (e.op.lines b).foldl (fun (acc : List (Nat × List Byte) × State) line =>
      let (r, s) := acc.2.stowLine c u e line
      (acc.1 ++ r, s)) ([], s)
  remembered (s : State) (blocks : List (Nat × List Byte)) : State :=
    blocks.foldl (fun s y => s.rememberFar (at' y.1) y.2) s

/-- ENGINE_PIECE_PERFORMED: piece p of the head entry of a queue goes on: it asks for its translation, or moves its bytes once
every line has been answered; the entry completes with its last piece (R244 to R249). -/
def execEnginePiecePerformed (c u q p : Nat) (s : State) : Host.Outcome State Fault Refusal :=
  match s.working c u q with
  | none => .next s
  | some e =>
    match e.op, e.op.blocks[p]? with
    | .tiles .., some _ => if !e.filling then .next s else .next (go s e)
    | .copy .., some _ => .next (go s e)
    | _, _ => .next (s.advance c u 64)
where
  /-- One stage of the piece. -/
  go (s : State) (e : Entry) : State :=
    let b := (e.op.blocks[p]?).getD 0
    let x := e.piece p
    match x.state with
    | .performed => s.advance c u 64
    | .stalled => s
    | .untranslated =>
      if !((s.context (s.queueCtx c u)).map (·.issues)).getD false then s
      else if !(e.pieces.any fun y => y.2.state == .performed) && s.unreachable c u e then
        s.refuseEntry c u q Cause.engineFault 3 3 ((e.op.rows.head?.map (·.1)).getD 0)
      else
        match s.translate c (s.queueCtx c u) (e.op.firstVa b) (if e.op.stows then 1 else 0) q
            (.piece c u q p e.seq) with
        | (some place, s) =>
          let place := place.block (e.op.firstVa b)
          match place with
          | .package pkg _ =>
            if s.noPorts pkg then s.refuseEntry c u q Cause.engineFault 3 3 ((e.op.rows.head?.map (·.1)).getD 0)
            else s.modPiece c u q p fun x => { x with state := .ready, place := some place }
          | _ => s.modPiece c u q p fun x => { x with state := .ready, place := some place }
        | (none, s) => s.modPiece c u q p id
    | _ =>
      let move (s : State) : State := match x.place with
        | some (.hbm _) =>
          if !(e.op.lines b).all fun l => SMap.find x.lines (l % 64) == some .done then s
          else if e.op.stows then s.performPiece c u q p
          else (s.landPiece c u e b x.data).performPiece c u q p
        | some place => s.foreignPiece c u q p e b x place
        | none => s
      match s.piecePages c u e.op b with
      | none => move s
      | some (home, pages) =>
        match s.pages home (s.queueCtx c u) pages (some (.queue c u q)) with
        | .ready => move s
        | .waiting s => s
        | .refused a cause t => s.refusePage t c u q home cause a (e.op.firstVa b)

/-- HOST_WRITE_COMPLETION: the host link has returned the completion of a piece's write (R247, R423). -/
def execHostWriteCompletion (c u q p : Nat) (s : State) : Host.Outcome State Fault Refusal :=
  match s.working c u q with
  | some e =>
    let x := e.piece p
    match x.place with
    | some (.host _) => if x.sent && e.op.stows && x.state == .ready && s.routeUp (dieOf c) 0 then .next (s.performPiece c u q p) else .next s
    | _ => .next s
  | none => .next s

/-- ENGINE_TRAP_DELIVERY: a trap left for a unit is due to its stream, or to the unit's other stream where that has ended, and is
taken at the word of the next unit; with no stream left, the group's handler path is formed of all W lanes (R252, R396). -/
def execEngineTrapDelivery (c u : Nat) (s : State) : Host.Outcome State Fault Refusal :=
  match s.unit c u with
  | none => .next s
  | some r =>
    match r.ctl.waiting, s.context r.info.ctx with
    | (lead, t) :: more, some x =>
      if r.ctl.trap.isSome || !x.issues then .next s else
      let leadLive := (r.lead.map (!·.ended)).getD false
      let toLead := leadLive && (lead || r.lanes.live == 0)
      if !toLead && r.lanes.live == 0 then
        match s.pages c r.info.ctx (spillPages x.record.tsa u false (firstLanes r.info.width)) none with
        | .waiting s => .next s
        | .refused _ _ s => .next (s.contextFault r.info.ctx Cause.devFault c)
        | .ready =>
          .next ((s.modCtl c u fun k => { k with waiting := more }).vectorLanes c u 0 (firstLanes r.info.width) 0xFFFFFFFF
            (Front.at 0xFFFFFFFF) true { t with mask := 0 })
      else
        .next (s.modCtl c u fun k => { k with waiting := (toLead, t) :: more })
    | _, _ => .next s

end Sys2Proof.Machine
end

