-- ==== Sys2Proof/Machine/RayMath.lean ====
section
/-! DEFINITION. The box test and the triangle test of the traversal unit, in exact rationals with one rounding (R333 to
R341). -/

namespace Sys2Proof.Machine

/-- An extended real. -/
inductive Ext where
  | low
  | num (x : Rat)
  | high
deriving DecidableEq, Repr, Inhabited

def Ext.le (a b : Ext) : Bool :=
  match a, b with
  | .low, _ => true
  | _, .high => true
  | .num x, .num y => decide (x ≤ y)
  | _, _ => false

/-- A bound of a box test: its value, and the sign of a zero where it is known. -/
abbrev Bound := Ext × Option Bool

/-- A binary32 word as a bound. -/
def boundOf (w : Nat) : Bound :=
  match f32.decode false w with
  | .nan _ => (.num 0, some false)
  | .inf true => (.low, none)
  | .inf false => (.high, none)
  | .zero neg => (.num 0, some neg)
  | .fin x => (.num x, none)

/-- An exact quotient rounded to binary32 under a directed code; an exact zero is +0. -/
def directed (code : Nat) (x : Rat) : Bound :=
  if x = 0 then (.num 0, some false) else boundOf (f32.round false code 0 0 x).bits

/-- The larger bound; zeros of different sign leave the sign open (log entry 19). -/
def maxBound (a b : Bound) : Bound :=
  if a.1 = b.1 then (a.1, if a.2 == b.2 then a.2 else none) else if a.1.le b.1 then b else a

def minBound (a b : Bound) : Bound := if a.1.le b.1 then a else b

/-- Word i of a block of bytes. -/
def wordAt (bytes : Nat) (off : Nat) : Nat := bytes / 2 ^ (8 * off) % 2 ^ 32
def byteAt (bytes : Nat) (off : Nat) : Nat := bytes / 2 ^ (8 * off) % 256

/-- The value of a finite word. -/
def finiteOf (w : Nat) : Rat :=
  match f32.decode false w with
  | .fin x => x
  | _ => 0

def isNanWord (w : Nat) : Bool := (f32.decode false w).isNan
def isInfWord (w : Nat) : Bool := w % 2 ^ 31 == 0x7F800000

/-- The near and far bounds of one axis (R338). -/
def slab (o d lo hi : Rat) : Bound × Bound :=
  if d ≠ 0 then
    let ta := (lo - o) / d
    let tb := (hi - o) / d
    (directed 2 (if ta ≤ tb then ta else tb), directed 3 (if ta ≤ tb then tb else ta))
  else if lo ≤ o && o ≤ hi then ((.low, none), (.high, none)) else ((.high, none), (.low, none))

/-- A child of a node (R333, R334): its box by axis, or none where it never hits. -/
def childBox (node c : Nat) : Option (List (Rat × Rat)) :=
  let q (j : Nat) : Nat := byteAt node (16 + 6 * c + j)
  if wordAt node (40 + 4 * c) / 2 ^ 30 = 3 || (List.range 3).any (fun a => decide (q (3 + a) < q a)) then none
  else some ((List.range 3).map fun a =>
    let e := byteAt node (12 + a)
    let scale := pow2 (if 128 ≤ e then (e : Int) - 256 else e)
    let base := finiteOf (wordAt node (4 * a))
    (base + (q a : Rat) * scale, base + (q (3 + a) : Rat) * scale))

/-- tnear of a child that hits (R338). -/
def childHit (node : Nat) (ray : List Nat) (c : Nat) : Option Bound :=
  let w (j : Nat) : Nat := (ray[j]?).getD 0
  match childBox node c with
  | none => none
  | some box =>
    let slabs := box.zipIdx.map fun (b, a) => slab (finiteOf (w a)) (finiteOf (w (3 + a))) b.1 b.2
    let near := slabs.foldl (fun m x => maxBound m x.1) (boundOf (w 6))
    let far := slabs.foldl (fun m x => minBound m x.2) (boundOf (w 7))
    if near.1.le far.1 then some near else none

/-- Inserts a child by ascending tnear, after those of equal tnear. -/
def byNear (x : Nat × Bound) : List (Nat × Bound) → List (Nat × Bound)
  | [] => [x]
  | y :: r => if y.2.1.le x.2.1 then y :: byNear x r else x :: y :: r

/-- The children hit, nearest first (R338, R339). -/
def boxHits (node : Nat) (ray : List Nat) : List (Nat × Bound) :=
  let origins := ray.take 6
  let base := (List.range 3).map fun a => wordAt node (4 * a)
  if (ray ++ base).any isNanWord || (origins ++ base).any isInfWord then []
  else (List.range 4).foldl (fun l c => match childHit node ray c with
    | some b => byNear (c, b) l
    | none => l) []

/-- The binary32 word of a bound; `free` is the sign of a zero that the spec leaves open. -/
def Bound.bits (b : Bound) (free : Bool) : Nat :=
  match b.1 with
  | .low => 0xFF800000
  | .high => 0x7F800000
  | .num x => if x = 0 then (if b.2.getD free then 2 ^ 31 else 0) else (f32.round false 0 0 0 x).bits

/-- What RBOX4 writes (R339). -/
def boxWord (node : Nat) (ray : List Nat) : Nat :=
  let hits := boxHits node ray
  (hits.map fun h => 2 ^ h.1).sum + (hits.zipIdx.map fun (h, j) => h.1 * 2 ^ (8 + 2 * j)).sum + 2 ^ 16 * hits.length
    + 2 ^ 32 * (match hits with
      | h :: _ => h.2.bits (Config.boxTie node ray)
      | [] => 0x7F800000)

/-- An edge function is inside, its zero decided by the edge's direction (R340). -/
def insideEdge (e x y : Rat) : Bool := decide (0 < e) || (e == 0 && (decide (0 < y) || (y == 0 && decide (x < 0))))

/-- A finite result in a format, rounded to nearest even with subnormals kept; zero is +0. -/
def nearestBits (f : Fmt) (x : Rat) : Nat := if x = 0 then 0 else (f.round false 0 0 0 x).bits

/-- What RTRI writes for triangle t of a leaf block (R340, R341). -/
def triangleWord (leaf : Nat) (t : Nat) (ray : List Nat) : Nat :=
  let miss := 0x7F800000
  let w (j : Nat) : Nat := (ray[j]?).getD 0
  let vs := (List.range 9).map fun j => wordAt leaf (16 + 40 * t + 4 * j)
  if byteAt leaf 0 ≤ t || (vs ++ ray).any isNanWord || (vs ++ ray.take 6).any isInfWord then miss
  else
    let o (a : Nat) : Rat := finiteOf (w a)
    let d (a : Nat) : Rat := finiteOf (w (3 + a))
    let mag (a : Nat) : Rat := if d a < 0 then -(d a) else d a
    let kz := if mag 0 < mag 1 then (if mag 1 < mag 2 then 2 else 1) else (if mag 0 < mag 2 then 2 else 0)
    if d kz = 0 then miss
    else
      let k1 := (kz + 1) % 3
      let k2 := (kz + 2) % 3
      let kx := if d kz < 0 then k2 else k1
      let ky := if d kz < 0 then k1 else k2
      let q (v a : Nat) : Rat := finiteOf ((vs[3 * v + a]?).getD 0) - o a
      let px (v : Nat) : Rat := q v kx - d kx / d kz * q v kz
      let py (v : Nat) : Rat := q v ky - d ky / d kz * q v kz
      let u := px 2 * py 1 - py 2 * px 1
      let v := px 0 * py 2 - py 0 * px 2
      let x := px 1 * py 0 - py 1 * px 0
      let det := u + v + x
      if det = 0 then miss
      else
        let g : Rat := if det < 0 then -1 else 1
        let edge (e : Rat) (a b : Nat) : Bool := insideEdge (g * e) (g * (px a - px b)) (g * (py a - py b))
        if !(edge u 2 1 && edge v 0 2 && edge x 1 0) then miss
        else
          let t := 1 / d kz * (u * q 0 kz + v * q 1 kz + x * q 2 kz) / det
          let min := (boundOf (w 6)).1
          let max := (boundOf (w 7)).1
          if min.le (.num t) && !max.le (.num t) then
            nearestBits f32 t + 2 ^ 32 * nearestBits f16 (v / det) + 2 ^ 48 * nearestBits f16 (x / det)
          else miss

end Sys2Proof.Machine
end

