-- ==== Sys2Proof/Machine/Ray.lean ====
section
/-! DEFINITION. The traversal unit and a core's view of the hitch directory: the RY family (R332 to R344, R358 to R366). -/

namespace Sys2Proof.Machine

/-! ### The directory's configuration (R344, R345) -/

def RayPart.en (r : RayPart) : Bool := r.rcfg0.getLsbD 0
def RayPart.tfn (r : RayPart) : Nat := r.rcfg0.toNat / 2 % 16
def RayPart.tfb (r : RayPart) : Nat := r.rcfg0.toNat / 2 ^ 8 % 16
def RayPart.rth (r : RayPart) : Nat := r.rcfg0.toNat / 2 ^ 16 % 256
def RayPart.rwin (r : RayPart) : Nat := r.rcfg0.toNat / 2 ^ 24 % 32
def RayPart.spb (r : RayPart) : Nat := r.rcfg0.toNat / 2 ^ 32 % 256
def RayPart.spl (r : RayPart) : Nat := r.rcfg0.toNat / 2 ^ 40 % 16
def RayPart.tib (r : RayPart) : Nat := r.rcfg1.toNat / 2 ^ 16 % 2 ^ 41 * 2 ^ 16

/-- Frame f of a core exists (R344). -/
def RayPart.hasFrame (r : RayPart) (f : Nat) : Bool := decide (f < r.tfn) && decide (r.tfb + f < 16)

/-- The local address of frame f (R344). -/
def RayPart.frameAddr (r : RayPart) (f : Nat) : Nat := 65536 * (r.tfb + f)

/-- The directory of a context is in use (R344). -/
def State.hitching (s : State) (x : Context) : Bool :=
  match x.cores with
  | [] => false
  | c :: _ =>
    let a := (s.core c).ray
    x.cores.all fun d =>
      let b := (s.core d).ray
      b.en && b.tib == a.tib && b.rth == a.rth && b.rwin == a.rwin

/-- The home of a treelet in a context (R345). -/
def Context.treeletHome (x : Context) (n : Nat) : Nat :=
  (x.cores[n * 0x9E3779B1 % 2 ^ 32 * (x.record.rw * x.record.rh) / 2 ^ 32]?).getD 0

/-- The treelet that a ray's payload is sent to (R336). -/
def rayTarget (payload : List Dword) : Nat := ((payload[6]?).getD 0).toNat % 2 ^ 32

/-- The frame of a core that holds a treelet; one being evicted holds it until it is freed (R354, R447). -/
def RayPart.holding (r : RayPart) (n : Nat) : Option (Nat × TFrame) :=
  r.frames.find? fun (_, f) => f.tid == n && (f.use == .resident || f.use == .evicting)

/-- Puts an owner at the front of a core's owner cache of 256 entries (R364). -/
def RayPart.cacheOwner (r : RayPart) (n core frame : Nat) : RayPart :=
  { r with owners := ((n, core, frame) :: r.owners.filter (·.1 ≠ n)).take 256 }

/-! ### Instructions -/

/-- What the RY family shares (R358). -/
def rayAttr : Attr := { noMod := true, event := true }

/-- An instruction other than RLD needs the directory in use (R358). -/
def Issue.needsDirectory (i : Issue) (s : State) : Option Eff :=
  if ((s.context i.ctx).map s.hitching).getD false then none else some (i.illegal 26 s)

/-- The doublewords of a number. -/
def dwords (v n : Nat) : List Dword := (List.range n).map fun j => BitVec.ofNat 64 (v / 2 ^ (64 * j))

/-- RSEND and RHIT: the payload, then the checks of the record and of the destination (R358, R359, R363). -/
def raySend (n : Nat) (a b : RegField) (g : GuardField) (fields : Dword → Bool) (bad : Issue → Dword → List Dword → State → Bool)
    (msg : Issue → Dword → List Dword → State → MsgClass × Msg) (s : State) : Host.Outcome State Fault Refusal :=
  let registers (i : Issue) (s : State) : List Dword := (List.range n).map fun j => s.scalarReg i (b.toNat + j)
  payloadUnit 25 a b g Issue.needsDirectory
    (fun i x at' s => !fields x || (at'.isNone && (!i.scalarRun b n || bad i x (registers i s) s))) (fun i x at' s u =>
      let dst := (s.context i.ctx).bind fun c => c.coreAt (x.setWidth 16)
      let go (payload : List Dword) (u : State) : Eff :=
        if bad i x payload s then i.illegal 25 s
        else match dst with
          | none => i.trapAt Cause.clusterAddr (x.toNat % 2 ^ 16) 0 s
          | some d =>
            let (cls, m) := msg i x payload s
            s.emit u i d cls fun _ => m
      match at' with
      | none => go (registers i s) u
      | some m =>
        s.accessing (fun s => match s.readUnits i (m % 2 ^ 20) (8 * n) 1 with
          | .refused t s => if dst.isNone then .refused ⟨Cause.clusterAddr, i.mask, BitVec.ofNat 64 (x.toNat % 2 ^ 16), 0⟩ s else .refused t s
          | r => r) u fun vals u => go (dwords (vals.headD 0) n) u) s

/-- RSEND (R359). -/
def execRsend (a b : RegField) (g : GuardField) (s : State) : Host.Outcome State Fault Refusal :=
  raySend 8 a b g (fun x => x.toNat / 2 ^ 23 == 0)
    (fun i x payload s =>
      let tgt := rayTarget payload
      decide (2 ^ 30 ≤ tgt) || (x.getLsbD 22 && (match s.context i.ctx with
        | some c => (c.coreAt (x.setWidth 16)).any fun d => d != c.treeletHome tgt
        | none => true)))
    (fun i x payload s =>
      let hid := x.toNat / 2 ^ 16 % 64
      (.ray, if x.getLsbD 22 then .dirRay hid (s.coordWord i) payload else .handler hid 0 (s.coordWord i) payload)) s

/-- RHIT (R363). -/
def execRhit (a b : RegField) (g : GuardField) (s : State) : Host.Outcome State Fault Refusal :=
  raySend 4 a b g (fun x => x.toNat / 2 ^ 16 == 0) (fun _ _ _ _ => false)
    (fun _ _ payload _ => (.hit, .hit (payload.flatMap fun v => bytesOfNat v.toNat 8))) s

/-- The access to parts of a block, offset and length, at a local address, bits 19:0 of a lane's B, a multiple of 64 (R358). -/
def Issue.blockAccess (i : Issue) (parts : List (Nat × Nat)) (l : Nat) (b : Dword) : LaneAccess :=
  let a := b.toNat % 2 ^ 20
  (l, BitVec.ofNat 64 a, if parts.any fun p => !i.window.holds (a + p.1) p.2 then .error Cause.lsBound
    else if a % 64 ≠ 0 then .error Cause.misalign else .ok (i.core, a))

/-- One lane's read of parts of a block, each within a line: the bytes at their places, and the event (R180, R358). -/
def State.readParts (s : State) (i : Issue) (a : Nat) (parts : List (Nat × Nat)) : Nat × State :=
  parts.foldl (fun (acc : Nat × State) p =>
    let (v, s) := acc.2.loadLocal i.agent i.core (a + p.1) p.2
    (acc.1 + v * 2 ^ (8 * p.1), s)) (0, s)

/-- The lanes' reads, in lane order (R181, R360). -/
def State.readBlocks (s : State) (i : Issue) (parts : Nat → List (Nat × Nat)) (ts : List Target) : SMap Nat × State :=
  ts.foldl (fun (acc : SMap Nat × State) t =>
    let (v, s) := acc.2.readParts i t.off (parts t.lane)
    (acc.1 ++ [(t.lane, v)], s)) ([], s)

/-- The shape of RLD, RBOX4 and RTRI: parts of a block read as one event in each active lane, in lane order (R358, R360 to
R362); each lane's B is a pair (R33). -/
def blockUnit (parts : Dword → List (Nat × Nat)) (b : RegField) (dsts : List RegField) (g : GuardField)
    (early : Issue → State → Option Eff) (bad : Issue → (Nat → Dword) → Bool) (f : Issue → (Nat → Dword) → (Nat → Nat) → State → State → Eff) (s : State) :
    Host.Outcome State Fault Refusal :=
  runUnit rayAttr g (fun i s =>
    match early i s with
    | some e => e
    | none =>
      if !i.regOk false .pair b then i.illegal 0 s
      else match s.operandsAfter i [(.pair, b)] dsts fun v => if bad i (nth v 0) then some (i.illegal 25 s) else none with
        | .stop e => e
        | .ok v u =>
          let of (l : Nat) : List (Nat × Nat) := parts (nth v 0 l)
          let l := (lanesOf i.active).map fun l => i.blockAccess (of l) l (nth v 0 l)
          match i.addressTrap l with
          | some r => .trap r s
          | none =>
            let ts := targets l
            s.accessing (fun s => s.localPages i (ts.flatMap fun t => (of t.lane).map fun p => { t with off := t.off + p.1 })) u fun _ u =>
              let (vals, u) := u.readBlocks i of ts
              f i (nth v 0) (fun l => (SMap.find vals l).getD 0) s u) s

/-- A run of registers that a group's lanes or a scalar stream has (R360, R361). -/
def Issue.fieldRun (i : Issue) (f : Nat) (group scalar : Nat) : Bool :=
  match i.kind with
  | .group => decide (f + group ≤ i.regs)
  | .lead => decide (f + scalar ≤ 56)
  | .run => decide (f + scalar ≤ 32)

/-- One unit of 64 bytes. -/
def wholeUnit (_ : Dword) : List (Nat × Nat) := [(0, 64)]

/-- RLD (R360). -/
def execRld (a b : RegField) (g : GuardField) (s : State) : Host.Outcome State Fault Refusal :=
  blockUnit wholeUnit b [] g (fun i s => if i.fieldRun a.toNat 16 8 then none else some (i.illegal 25 s)) (fun _ _ => false)
    (fun i _ v _ u =>
      let (n, w) := if i.kind == .group then (16, 32) else (8, 64)
      .done ((lanesOf i.active).foldl (fun u l => (List.range n).foldl (fun u j =>
        u.writeReg i .nat (a + BitVec.ofNat 6 j) l (BitVec.ofNat 64 (v l / 2 ^ (w * j) % 2 ^ w))) u) u)) s

/-- The ray block at base F in one lane (R337). -/
def State.rayBlock (s : State) (i : Issue) (f : BitVec 5) (l : Nat) : List Nat :=
  match i.kind with
  | .group => match s.unit i.core i.unit with
    | some r => (List.range 8).map fun j => (s.laneReg i r l (f.toNat + j)).toNat
    | none => []
  | _ => (List.range 8).map fun j => (s.scalarReg i (f.toNat + j / 2)).toNat / 2 ^ (32 * (j % 2)) % 2 ^ 32

/-- What RBOX4 and RTRI check before their operands (R358, R361, R362). -/
def Issue.testChecks (i : Issue) (s : State) (a : RegField) (f : BitVec 5) : Option Eff :=
  match i.needsDirectory s with
  | some e => some e
  | none =>
    if !i.regOk true .pair a then some (i.illegal 0 s)
    else if !i.fieldRun f.toNat 8 4 then some (i.illegal 25 s)
    else if s.tokenPending i ((List.range 8).map (f.toNat + ·)) then some (.wait s) else none

/-- RBOX4 (R338, R339, R361). -/
def execRbox4 (a b : RegField) (f : BitVec 5) (g : GuardField) (s : State) : Host.Outcome State Fault Refusal :=
  blockUnit wholeUnit b [a] g (fun i s => i.testChecks s a f) (fun _ _ => false)
    (fun i _ v s u => s.result u i .pair a fun l => BitVec.ofNat 64 (boxWord (v l) (u.rayBlock i f l))) s

/-- What RTRI reads of a leaf block: COUNT, and triangle t of bits 21:20 of B (R335, R362). -/
def leafParts (b : Dword) : List (Nat × Nat) :=
  (0, 1) :: (List.range 5).map fun j => (16 + 40 * (b.toNat / 2 ^ 20 % 4) + 8 * j, 8)

/-- RTRI (R340, R341, R362). -/
def execRtri (a b : RegField) (f : BitVec 5) (g : GuardField) (s : State) : Host.Outcome State Fault Refusal :=
  blockUnit leafParts b [a] g (fun i s => i.testChecks s a f)
    (fun i v => (lanesOf i.active).any fun l => decide (2 ^ 22 ≤ (v l).toNat))
    (fun i x v s u =>
      s.result u i .pair a fun l => BitVec.ofNat 64 (triangleWord (v l) ((x l).toNat / 2 ^ 20 % 4) (u.rayBlock i f l))) s

/-- What TOWN writes for a treelet, and the state after it has asked (R364). -/
def State.ownerWord (s : State) (i : Issue) (x : Context) (n : Nat) : Dword × State :=
  let r := (s.core i.core).ray
  let word (c f : Nat) (hit : Bool) : Dword :=
    BitVec.ofNat 64 ((x.relative c).toNat + 2 ^ 16 * f + (if hit then 2 ^ 24 else 0) + (if hit && c == i.core then 2 ^ 25 else 0))
  match r.holding n with
  | some (f, _) => (word i.core f true, s)
  | none => match r.owners.find? (·.1 == n) with
    | some (_, c, f) => (word c f true, s.modRay i.core (·.cacheOwner n c f))
    | none =>
      let home := x.treeletHome n
      let s := if r.lookups.contains n then s
        else ((s.ahead i.core .ctl).modRay i.core fun r => { r with lookups := n :: r.lookups }).release i.core home .ctl (.lookup n i.core)
      (word home 0 false, s)

/-- TOWN (R364). -/
def execTown (a b : RegField) (g : GuardField) (s : State) : Host.Outcome State Fault Refusal :=
  runUnit { noMod := true } g (fun i s =>
    match i.needsDirectory s, s.context i.ctx with
    | some e, _ => e
    | none, none => .wait s
    | none, some x =>
      if !i.regOk false .pair b || !i.regOk true .pair a then i.illegal 0 s
      else match s.operandsAfter i [(.pair, b)] [a] fun v =>
          if (lanesOf i.active).any fun l => decide (2 ^ 30 ≤ (nth v 0 l).toNat) then some (i.illegal 25 s) else none with
        | .stop e => e
        | .ok v u =>
          let (words, u) := (lanesOf i.active).foldl (fun (acc : SMap Dword × State) l =>
            let (w, u) := acc.2.ownerWord i x (nth v 0 l).toNat
            (acc.1 ++ [(l, w)], u)) ([], u)
          s.result u i .pair a fun l => (SMap.find words l).getD 0) s

/-- The issuing unit waits for one answer, which goes to A in every active lane (R358). -/
def State.awaitAnswer (s : State) (i : Issue) (a : RegField) : Asker × State :=
  let (id, s) := s.newId i.core
  (i.asker id, (s.keepPlace i a 1).addPending i (i.pendingUnit id a (i.kind == .group) i.lanes []))

def TFrame.new (n order : Nat) : TFrame :=
  { tid := n, use := .filling, pinned := false, used := order, forPin := none, copy := false, taker := none, pages := [], answered := [],
    landed := [], commanded := false, held := false, refused := none, evictors := [] }

def State.modTFrame (s : State) (c f : Nat) (g : TFrame → TFrame) : State :=
  s.modRay c fun r => { r with frames := SMap.alter r.frames f g }

/-- TPIN (R365): a frame that holds the treelet already is pinned at once. -/
def execTpin (a b : RegField) (g : GuardField) (s : State) : Host.Outcome State Fault Refusal :=
  runUnit { noMod := true } g (fun i s =>
    match i.needsDirectory s, s.context i.ctx with
    | some e, _ => e
    | none, none => .wait s
    | none, some x =>
      if !i.regOk false .pair b || !i.regOk true .pair a then i.illegal 0 s
      else match s.operandsAfter i [(.pair, b)] [a] fun v =>
          let b := (nth v 0 (lowestLane i.active)).toNat
          if 2 ^ 36 ≤ b || b / 2 ^ 30 % 4 != 0 then some (i.illegal 25 s) else none with
        | .stop e => e
        | .ok v u =>
          let b := (nth v 0 (lowestLane i.active)).toNat
          let n := b % 2 ^ 30
          let f := b / 2 ^ 32 % 16
          let r := (s.core i.core).ray
          if !r.hasFrame f then s.result u i .pair a fun _ => 2
          else match SMap.find r.frames f with
            | some t =>
              if t.tid == n && t.use == .resident then
                s.result (u.modTFrame i.core f fun t => { t with pinned := true }) i .pair a fun _ => 0
              else s.result u i .pair a fun _ => 1
            | none =>
              let (who, u) := u.awaitAnswer i a
              let u := u.modCore i.core fun k => { k with
                order := k.order + 1
                ray := { k.ray with frames := SMap.put k.ray.frames f { TFrame.new n (k.order + 1) with forPin := some who } } }
              .done ((u.ahead i.core .ctl).release i.core (x.treeletHome n) .ctl (.pinRequest n i.core f who))) s

/-- The entry of a treelet at its home. -/
def State.modEntry (s : State) (x : Context) (n : Nat) (g : DirEntry → DirEntry) : State :=
  s.modRay (x.treeletHome n) fun r => { r with entries := SMap.alter r.entries n g }

/-- A core gives up a frame, and tells the home of its treelet (R346, R347). -/
def State.beginEvict (s : State) (x : Context) (c f : Nat) (taker : Option (Nat × Bool × Nat)) : State :=
  match SMap.find (s.core c).ray.frames f with
  | none => s
  | some t =>
    (s.modTFrame c f fun t => { t with use := .evicting, taker := t.taker <|> taker }).release c (x.treeletHome t.tid) .ctl
      (.evicting t.tid c f)

/-- TEVICT (R366). -/
def execTevict (a : RegField) (g : GuardField) (s : State) : Host.Outcome State Fault Refusal :=
  runUnit { noMod := true } g (fun i s =>
    match i.needsDirectory s, s.context i.ctx with
    | some e, _ => e
    | none, none => .wait s
    | none, some x =>
      if !i.regOk false .pair a || !i.regOk true .pair a then i.illegal 0 s
      else match s.operandsAfter i [(.pair, a)] [a] fun v =>
          if 16 ≤ (nth v 0 (lowestLane i.active)).toNat then some (i.illegal 25 s) else none with
        | .stop e => e
        | .ok v u =>
          let f := (nth v 0 (lowestLane i.active)).toNat
          match SMap.find (s.core i.core).ray.frames f with
            | none => s.result u i .pair a fun _ => 1
            | some t =>
              let (who, u) := u.awaitAnswer i a
              let u := u.modTFrame i.core f fun t => { t with evictors := t.evictors ++ [who] }
              .done (if t.use == .resident then (u.ahead i.core .ctl).beginEvict x i.core f none else u)) s

end Sys2Proof.Machine
end

