-- ==== Sys2Proof/Machine/Hitch.lean ====
section
/-! DEFINITION. The hitch directory (R344 to R356, R445 to R448), the spill ring (R355), and the dispatch of handler runs (R312,
R318 to R320, R354). -/

namespace Sys2Proof.Machine

/-! ### Entries and searches (R345 to R348) -/

def DirEntry.new (order cycle : Nat) : DirEntry :=
  { state := .paging, owners := [], arrivals := 0, next := 0, parked := [], lastArrival := order, counted := cycle,
    asking := none, taking := false, ticket := 0, leaving := [], copying := false }

/-- The place of a core in its context's order (R345). -/
def Context.coreIndex (x : Context) (c : Nat) : Nat := (coreY c - x.y) * x.record.rw + (coreX c - x.x)

/-- The j-th core that a home asks for a frame: after it, ending with itself (R348). -/
def Context.askOrder (x : Context) (home j : Nat) : Nat :=
  (x.cores[(x.coreIndex home + 1 + j) % (x.record.rw * x.record.rh)]?).getD home

/-- A core holds a treelet or is being filled with it. -/
def RayPart.touches (r : RayPart) (n : Nat) : Bool := r.frames.any fun (_, f) => f.tid == n

/-- The first core from the j-th on that a search may ask. -/
def State.nextAsked (s : State) (x : Context) (home n : Nat) (copy : Bool) (j : Nat) : Option Nat :=
  ((List.range (x.record.rw * x.record.rh)).drop j).find? fun k => !copy || !(s.core (x.askOrder home k)).ray.touches n

/-- Goes on with a search for a frame from its j-th core on: a second round may take frames; with no core left, paging stays
and a copy is abandoned (R348). -/
def State.askFrom (s : State) (x : Context) (n j : Nat) : State :=
  let home := x.treeletHome n
  match SMap.find (s.core home).ray.entries n with
  | none => s
  | some e =>
    let ask (s : State) (k : Nat) (taking : Bool) : State :=
      (s.modEntry x n fun e => { e with asking := some k, taking := taking }).release home (x.askOrder home k) .ctl
        (.frameRequest n home taking e.copying e.ticket)
    match s.nextAsked x home n e.copying j with
    | some k => ask s k e.taking
    | none =>
      match (if e.taking then none else s.nextAsked x home n e.copying 0) with
      | some k => ask s k true
      | none => s.modEntry x n fun e => { e with asking := none, taking := false, copying := false }

/-- A search for a frame begins; answers to an earlier one come to nothing (R348). -/
def State.search (s : State) (x : Context) (n : Nat) : State :=
  let home := x.treeletHome n
  let k := s.core home
  ((s.setCore home { k with order := k.order + 1 }).modEntry x n fun e => { e with taking := false, ticket := k.order + 1 }).askFrom x n 0

/-- The counter of an entry restarts, as a copy of its treelet starts (R347, R446). -/
def State.restartCounter (s : State) (x : Context) (n : Nat) : State :=
  let now := (s.core (x.treeletHome n)).cycle
  s.modEntry x n fun e => { e with arrivals := 0, counted := now }

/-- A copy starts, and the counter restarts (R347, R446). -/
def State.startCopy (s : State) (x : Context) (n : Nat) : State :=
  ((s.restartCounter x n).modEntry x n fun e => { e with copying := true }).search x n

/-- Frames being filled with a treelet. -/
def State.fillsOf (s : State) (x : Context) (n : Nat) : Nat :=
  (x.cores.map fun c => ((s.core c).ray.frames.filter fun (_, f) => f.tid == n && f.use == .filling && f.commanded).length).sum

def DirEntry.held (e : DirEntry) : Bool := e.state == .resident || e.state == .replicated

/-- The arrivals counted for an entry reach the threshold, and no copy is under way, TPIN's included (R347, R446). -/
def State.crossed (s : State) (x : Context) (n : Nat) (e : DirEntry) : Bool :=
  let rth := (s.core (x.treeletHome n)).ray.rth
  e.held && decide (rth ≠ 0) && decide (rth ≤ e.arrivals) && decide (e.owners.length < 4) && !e.copying && s.fillsOf x n == 0

/-- Counts an arrival: the counter of an entry that is not paging restarts in each window of the home's clock (R347, R445,
R446). -/
def State.countArrival (s : State) (x : Context) (n : Nat) : State :=
  let home := x.treeletHome n
  let k := s.core home
  let w := 2 ^ k.ray.rwin
  let s := s.setCore home { k with order := k.order + 1 }
  let s := s.modEntry x n fun e =>
    let e := { e with lastArrival := k.order + 1 }
    if e.state == .paging then { e with arrivals := e.arrivals + 1 }
    else { e with arrivals := (if e.counted / w = k.cycle / w then e.arrivals else 0) + 1, counted := k.cycle }
  match SMap.find (s.core home).ray.entries n with
  | some e => if s.crossed x n e then s.startCopy x n else s
  | none => s

/-- ARRIVAL_WINDOW_RESTART: counters whose window has passed stand at 0 (R347). -/
def execArrivalWindowRestart (c : Nat) (s : State) : Host.Outcome State Fault Refusal :=
  let now := (s.core c).cycle
  .next (s.modRay c fun r => { r with entries := r.entries.map fun (n, e) =>
    (n, if e.state == .paging || e.counted / 2 ^ r.rwin = now / 2 ^ r.rwin then e else { e with arrivals := 0, counted := now }) })

/-- The owner that the next forwarding or reply takes, and the entry after it (R350, R448). -/
def DirEntry.takeOwner (e : DirEntry) : Option (Nat × Nat) × DirEntry :=
  (e.owners[e.next]?, { e with next := if e.owners.isEmpty then 0 else (e.next + 1) % e.owners.length })

/-- Rays that a home has parked. -/
def RayPart.parked (r : RayPart) : Nat := (r.entries.map fun (_, e) => e.parked.length).sum

/-- The owner whose turn it is. -/
def State.nextOwner (s : State) (x : Context) (n : Nat) : Option (Nat × Nat) :=
  (SMap.find (s.core (x.treeletHome n)).ray.entries n).bind fun e => if e.held then e.owners[e.next]? else none

/-- A directory ray goes on to an owner as a kind-0 message, and its sender hears of the owner (R350). -/
def State.forwardTo (s : State) (x : Context) (n : Nat) (o : Nat × Nat) (hid : Nat) (src : BitVec 16) (payload : List Dword) : State :=
  let home := x.treeletHome n
  let s := s.releaseOut home ⟨o.1, .ray, .handler hid 0 (x.relative home) payload⟩
  match x.coreAt src with
  | some d => s.release home d .ctl (.ownerUpdate n o.1 o.2)
  | none => s

/-- A directory ray takes the next owner and goes on to it, or, where RAY has no room or an older ray of the treelet still waits for
it, waits for its turn (R346, R350, R351). -/
def State.forward (s : State) (x : Context) (n hid : Nat) (src : BitVec 16) (payload : List Dword) : State :=
  let home := x.treeletHome n
  match s.nextOwner x n with
  | none => s
  | some o =>
    let s := s.modEntry x n fun e => (e.takeOwner).2
    if s.outRoom home o.1 .ray && !((s.core home).ray.forwards.any fun y => y.1 == n) then s.forwardTo x n o hid src payload
    else s.modRay home fun r => { r with forwards := r.forwards ++ [(n, o, hid, src, payload)] }

/-- The parked rays of an entry that is held are released in their order of arrival, each to the owner whose turn it is (R347,
R351, R448). -/
def State.releaseParked (s : State) (x : Context) (n : Nat) : State :=
  let home := x.treeletHome n
  match SMap.find (s.core home).ray.entries n with
  | none => s
  | some e =>
    if !e.held then s
    else e.parked.foldl (fun s (hid, src, payload) => s.forward x n hid src payload) (s.modEntry x n fun e => { e with parked := [] })

/-- A directory ray must stay in its inbox place: its treelet's entry can neither be made nor park it (R349, R352). -/
def RayPart.holdsBack (r : RayPart) (tid : Nat) : Bool :=
  let full := decide (512 ≤ r.parked)
  match SMap.find r.entries tid with
  | none => full || decide (512 ≤ r.entries.length)
  | some e => !e.held && (full || decide (64 ≤ e.parked.length))

/-- A frame of an owner is pinned by TPIN. -/
def State.entryPinned (s : State) (e : DirEntry) : Bool :=
  e.owners.any fun (c, f) => ((SMap.find (s.core c).ray.frames f).map (·.pinned)).getD false

/-- Makes room in a full directory store: the entry without a pin that has gone longest without an arrival is evicted
(R352). -/
def State.makePlace (s : State) (x : Context) (home : Nat) : State :=
  let r := (s.core home).ray
  if r.entries.any fun (_, e) => e.state == .evicting then s
  else
    let best := r.entries.foldl (fun (b : Option (Nat × DirEntry)) (n, e) =>
      if !e.held || s.entryPinned e then b
      else match b with
        | some (m, d) => if d.lastArrival ≤ e.lastArrival then some (m, d) else some (n, e)
        | none => some (n, e)) none
    match best with
    | some (n, e) => e.owners.foldl (fun s (c, f) => s.release home c .ctl (.evict n f))
        (s.modEntry x n fun e => { e with state := .evicting, leaving := e.owners })
    | none => s

/-- A new entry of a home. -/
def State.newEntry (s : State) (home n : Nat) : State :=
  s.modCore home fun k => { k with
    order := k.order + 1
    ray := { k.ray with entries := SMap.put k.ray.entries n (DirEntry.new (k.order + 1) k.cycle) } }

/-- DIRECTORY_RAY: the n-th message of a home's RAY inbox is a directory ray, performed in its turn unless it must wait there (R313,
R346, R347, R349, R352). -/
def execDirectoryRay (c n : Nat) (s : State) : Host.Outcome State Fault Refusal :=
  match s.message c .ray n, s.holder c with
  | some ⟨_, .dirRay hid src payload, _⟩, some (_, x) =>
    let tid := rayTarget payload
    let r := (s.core c).ray
    let park (s : State) : State :=
      (s.modEntry x tid fun e => { e with parked := e.parked ++ [(hid, src, payload)] }).countArrival x tid
    let ahead := ((s.core c).inbox .ray).take n
    if x.treeletHome tid ≠ c || !x.issues
        || (ahead.any fun m => match m.msg with | .dirRay _ _ p => !r.holdsBack (rayTarget p) | _ => false) then .next s else
    match SMap.find r.entries tid with
    | none =>
      if 512 ≤ r.entries.length then .next (s.makePlace x c)
      else if r.holdsBack tid then .next s
      else .next ((park ((s.take c .ray n).newEntry c tid)).search x tid)
    | some e =>
      if r.holdsBack tid then .next s
      else if e.held then .next (((s.take c .ray n).forward x tid hid src payload).countArrival x tid)
      else .next (park (s.take c .ray n))
  | _, _ => .next s

/-- PARKED_RAY_RELEASE: the oldest ray of a treelet that has been released to an owner goes out once RAY has room (R351). -/
def execParkedRayRelease (c tid : Nat) (s : State) : Host.Outcome State Fault Refusal :=
  match s.holder c, (s.core c).ray.forwards.find? (·.1 == tid) with
  | some (_, x), some (_, o, hid, src, payload) =>
    if x.treeletHome tid ≠ c || !s.outRoom c o.1 .ray then .next s
    else .next ((s.modRay c fun r => { r with forwards := dropFirst (·.1 == tid) r.forwards }).forwardTo x tid o hid src payload)
  | _, _ => .next s

/-- TREELET_LOOKUP: a lookup is counted and answered; a paging or evicting entry answers that no owner is known (R347,
R445). -/
def execTreeletLookup (c n : Nat) (s : State) : Host.Outcome State Fault Refusal :=
  match s.message c .ctl n, s.holder c with
  | some ⟨_, .lookup tid asker, _⟩, some (_, x) =>
    if !s.inTurn c .ctl n then .next s
    else
      let s := s.take c .ctl n
      let owner := s.nextOwner x tid
      let s := if owner.isSome then s.modEntry x tid fun e => (e.takeOwner).2 else s
      .next ((s.countArrival x tid).release c asker .ctl (.lookupReply tid owner))
  | _, _ => .next s

/-- LOOKUP_REPLY: a reply that names an owner fills the owner cache (R364). -/
def execLookupReply (c n : Nat) (s : State) : Host.Outcome State Fault Refusal :=
  match s.message c .ctl n with
  | some ⟨_, .lookupReply tid owner, _⟩ =>
    if !s.inTurn c .ctl n then .next s
    else .next ((s.take c .ctl n).modRay c fun r =>
      let r := { r with lookups := r.lookups.filter (· ≠ tid) }
      match owner with
      | some (d, f) => r.cacheOwner tid d f
      | none => r)
  | _ => .next s

/-- OWNER_UPDATE (R350). -/
def execOwnerUpdate (c n : Nat) (s : State) : Host.Outcome State Fault Refusal :=
  match s.message c .ctl n with
  | some ⟨_, .ownerUpdate tid d f, _⟩ =>
    if !s.inTurn c .ctl n then .next s else .next ((s.take c .ctl n).modRay c (·.cacheOwner tid d f))
  | _ => .next s

/-! ### Frames (R347, R348, R354, R366) -/

/-- A frame that may be taken: neither pinned nor of a paging or evicting treelet (R348). -/
def State.takable (s : State) (x : Context) (t : TFrame) (n : Nat) : Bool :=
  t.use == .resident && !t.pinned && t.tid != n
    && ((SMap.find (s.core (x.treeletHome t.tid)).ray.entries t.tid).map (·.held)).getD false

/-- The least recently used frame of a core that may be taken. -/
def State.takableFrame (s : State) (x : Context) (c n : Nat) : Option Nat :=
  ((s.core c).ray.frames.foldl (fun (b : Option (Nat × TFrame)) (f, t) =>
    if !s.takable x t n then b
    else match b with
      | some (g, u) => if u.used ≤ t.used then some (g, u) else some (f, t)
      | none => some (f, t)) none).map (·.1)

/-- A free frame is given to a treelet, and its home is told; a copy gets none on a core that has the treelet (R348). -/
def State.grantFrame (s : State) (x : Context) (c f n : Nat) (copy : Bool) (ticket : Nat) : State :=
  if copy && (s.core c).ray.touches n then s.release c (x.treeletHome n) .ctl (.frameGrant n c none ticket) else
  let s := s.modCore c fun k => { k with
    order := k.order + 1
    ray := { k.ray with frames := SMap.put k.ray.frames f { TFrame.new n (k.order + 1) with copy := copy } } }
  s.release c (x.treeletHome n) .ctl (.frameGrant n c (some f) ticket)

/-- FRAME_REQUEST: a core grants a free frame, takes one that it may take, or grants none (R348). -/
def execFrameRequest (c n : Nat) (s : State) : Host.Outcome State Fault Refusal :=
  match s.message c .ctl n, s.holder c with
  | some ⟨_, .frameRequest tid home evict copy ticket, _⟩, some (_, x) =>
    if !s.inTurn c .ctl n then .next s
    else
      let s := s.take c .ctl n
      let r := (s.core c).ray
      if copy && r.touches tid then .next (s.release c home .ctl (.frameGrant tid c none ticket)) else
      match (List.range 16).find? fun f => r.hasFrame f && (SMap.find r.frames f).isNone with
      | some f => .next (s.grantFrame x c f tid copy ticket)
      | none =>
        match (if evict then s.takableFrame x c tid else none) with
        | some f => .next (s.beginEvict x c f (some (tid, copy, ticket)))
        | none => .next (s.release c home .ctl (.frameGrant tid c none ticket))
  | _, _ => .next s

/-- A home commands the fill of a frame, by a message to the copy engine of its core (R12, R346). -/
def State.commandFill (s : State) (home c f : Nat) : State :=
  (s.modTFrame c f fun t => { t with commanded := true }).release home c .page (.fill f)

/-- A commanded frame goes: the units that wait to evict it find that it holds nothing (R348, R365, R366). -/
def State.dropTFrame (s : State) (c f : Nat) : State :=
  let waiting := ((SMap.find (s.core c).ray.frames f).map (·.evictors)).getD []
  waiting.foldl (fun s a => s.answer a 1) (s.modRay c fun r => { r with frames := SMap.drop r.frames f })

/-- The local pages of a frame. -/
def RayPart.framePages (r : RayPart) (f : Nat) : List Nat := (List.range 16).map fun p => r.frameAddr f / 4096 + p

/-- Lowers the pin counts of a frame's pages, where a fill has raised them (R344). -/
def CoreState.unpinTFrame (k : CoreState) (ctx f : Nat) : CoreState :=
  if ((SMap.find k.ray.frames f).map (·.held)).getD false then (k.ray.framePages f).foldl (·.unpinOne ctx ·) k else k

/-- A page of a treelet is translated; one in another package is read by a packet (R418). -/
def State.placeTreelet (s : State) (c f p : Nat) (place : Place) : State :=
  let s := s.modTFrame c f fun t => { t with pages := SMap.put t.pages p place, answered := t.answered.erase p }
  match place with
  | .package pkg pa => s.sendFabric pkg (.treelet c f p pa)
  | _ => s

/-- Asks for the translations of a treelet's pages that are still to be filled (R344, R346). -/
def State.askTreelet (s : State) (ctx c f tid : Nat) (landed : List Nat) : State :=
  let base := (s.core c).ray.tib + 65536 * tid
  ((List.range 16).filter (!landed.contains ·)).foldl (fun s p =>
    let (place, s) := s.translate c ctx (base + 4096 * p) 0 0xFD (.treelet c f p)
    match place with
    | some place => s.placeTreelet c f p place
    | none => s) s

/-- The copy engine of a core starts a commanded fill once the 16 pages of the frame have frames and their pins fit: it pins them,
and asks for the translations of the treelet (R221, R332, R344, R346). Another state of the frame ends the command. -/
def State.startFill (s : State) (ctx c n f : Nat) : State :=
  match SMap.find (s.core c).ray.frames f with
  | none => s.take c .page n
  | some t =>
    if t.use != .filling || t.held then s.take c .page n else
    let pages := (s.core c).ray.framePages f
    let more := (pages.filter fun p => (s.core c).pins ctx p == 0).length
    if 224 < (s.core c).pinned + more then s else
    let s := pages.foldl (·.requestPage c ctx ·) s
    if !pages.all fun p => ((s.core c).frameOf ctx p).isSome then s else
    let s := (s.take c .page n).modCore c fun k => pages.foldl (fun k p => k.modFrame ctx p Frame.pin) k
    (s.modTFrame c f fun t => { t with held := true }).askTreelet ctx c f t.tid []

/-- ENGINE_COMMAND: a command message is taken in its turn: place n of the REQ inbox, or place n - 32 of the PAGE inbox, where
treelet fills arrive (R12, R313, R346). -/
def execEngineCommand (c n : Nat) (s : State) : Host.Outcome State Fault Refusal :=
  let cls : MsgClass := if n < 32 then .req else .page
  let n := if n < 32 then n else n - 32
  match s.message c cls n with
  | none => .next s
  | some m =>
    if !s.inTurn c cls n then .next s else
    match m.msg with
    | .entry u q seq =>
      let s := (s.take c cls n).modQueue c u q fun x => { x with
        entries := x.entries.map fun e => if e.seq = seq then { e with commanded := true } else e }
      .next (s.advance c u 64)
    | .tile u =>
      .next ((s.take c cls n).modTile c fun t => match t.cmds.findIdx? fun x => x.unit == u && !x.commanded with
        | some j => { t with cmds := setAt j (fun x => { x with commanded := true }) t.cmds }
        | none => t)
    | .step u =>
      .next ((s.take c cls n).modTile c fun t => match t.steps.findIdx? fun x => x.unit == u && !x.commanded with
        | some j => { t with steps := setAt j (fun x => { x with commanded := true }) t.steps }
        | none => t)
    | .compile k =>
      .next ((s.take c cls n).modTile c fun t => { t with requests := t.requests.map fun x => if x.1 = k then (k, true) else x })
    | .fill f => match s.holder c with
      | some (ctx, _) => .next (s.startFill ctx c n f)
      | none => .next s
    | _ => .next s

/-- FRAME_GRANT: the home commands the fill, or asks the next core (R348). A frame granted to a search that has ended is free
again. -/
def execFrameGrant (c n : Nat) (s : State) : Host.Outcome State Fault Refusal :=
  match s.message c .ctl n, s.holder c with
  | some ⟨_, .frameGrant tid d frame ticket, _⟩, some (_, x) =>
    if !s.inTurn c .ctl n then .next s
    else
      let s := s.take c .ctl n
      let entry := (SMap.find (s.core c).ray.entries tid).filter (·.ticket == ticket)
      match frame, entry with
      | none, some e => match e.asking with
        | some j => .next (s.askFrom x tid (j + 1))
        | none => .next s
      | some f, some e =>
        let s := s.modEntry x tid fun e => { e with asking := none, taking := false }
        if 4 ≤ e.owners.length + s.fillsOf x tid then .next ((s.dropTFrame d f).modEntry x tid fun e => { e with copying := false })
        else .next (s.commandFill c d f)
      | some f, none => .next (s.dropTFrame d f)
      | none, none => .next s
  | _, _ => .next s

/-- VICTIM_RETRY: a paging entry for which no frame was found asks again (R348). -/
def execVictimRetry (c tid : Nat) (s : State) : Host.Outcome State Fault Refusal :=
  match s.holder c, SMap.find (s.core c).ray.entries tid with
  | some (_, x), some e =>
    if x.treeletHome tid = c && e.state == .paging && e.asking.isNone
        && !(x.cores.any fun d => (s.core d).ray.frames.any fun (_, f) => (f.tid == tid && f.use == .filling) || (f.taker.map (·.1)) == some tid)
    then .next (s.search x tid) else .next s
  | _, _ => .next s

/-- TPIN_REQUEST: the home decides a TPIN in its turn: the frame is filled, with a copy where there is an entry, or the request is
refused, or it waits for a place in the store (R313, R347, R352, R365, R446). -/
def execTpinRequest (c n : Nat) (s : State) : Host.Outcome State Fault Refusal :=
  match s.message c .ctl n, s.holder c with
  | some ⟨_, .pinRequest tid d f asker, _⟩, some (_, x) =>
    if !s.inTurn c .ctl n then .next s else
    match SMap.find (s.core c).ray.entries tid with
    | none =>
      if 512 ≤ (s.core c).ray.entries.length then .next (s.makePlace x c)
      else .next (((s.take c .ctl n).newEntry c tid).commandFill c d f)
    | some e =>
      let s := s.take c .ctl n
      if 4 ≤ e.owners.length + s.fillsOf x tid then
        .next ((s.dropTFrame d f).answer asker 3)
      else .next ((s.restartCounter x tid).commandFill c d f)
  | _, _ => .next s

/-- The lines of a translated page of 4 KiB hold an uncorrectable error. -/
def State.pagePoisoned (s : State) (p : Place) : Bool :=
  match p with
  | .hbm pa => s.l2.poisoned.any fun line => decide (pa / 64 ≤ line) && decide (line < pa / 64 + 64)
  | _ => false

/-- The bytes of a translated page: of device memory, or from outside (log entry 20). -/
def State.pageBytes (s : State) (p : Place) : List Byte × State :=
  match p with
  | .hbm pa => (s.deviceRead pa 4096, (linesOf pa 4096).foldl (·.readThrough ·) s)
  | _ =>
    let (bs, s) := s.farBytes p 4096
    (s.windowed p bs, s.countOutside p (List.range 64))

/-- A treelet is in its frame: the owner is recorded before its core is told, and the parked rays of an entry that it makes resident
are released (R347, R351, R353, R446, R447). -/
def State.finishFill (s : State) (x : Context) (c f : Nat) (t : TFrame) : State :=
  let home := x.treeletHome t.tid
  let s := s.modTFrame c f fun t => { t with use := .filled, pinned := t.forPin.isSome, pages := [], landed := [] }
  let now := (s.core home).cycle
  let paging := ((SMap.find (s.core home).ray.entries t.tid).map (·.state == .paging)).getD false
  let s := s.modEntry x t.tid fun e =>
    let owners := e.owners ++ [(c, f)]
    { e with
      owners := owners
      state := if e.state == .evicting then .evicting else if owners.length = 1 then .resident else .replicated
      counted := if paging then now else e.counted
      copying := if t.copy then false else e.copying }
  let s := (s.release home c .ctl (.frameHolds t.tid f)).releaseParked x t.tid
  match SMap.find (s.core home).ray.entries t.tid with
  | some e => if paging && s.crossed x t.tid e then s.startCopy x t.tid else s
  | none => s

/-- A piece of a treelet's fill, a page, is written into its frame once it has been read (R245, R346); `c` is the core whose copy
engine fills it. -/
def State.landTreelet (s : State) (ctx c f p : Nat) : State :=
  match SMap.find (s.core c).ray.frames f with
  | none => s
  | some t => match SMap.find t.pages p with
    | none => s
    | some place =>
      if s.pagePoisoned place || !s.placeRead (dieOf c) place (t.answered.contains p) then s
      else
        let (bytes, s) := s.pageBytes place
        (s.engineStore ⟨ctx, 0⟩ c c ((s.core c).ray.frameAddr f + 4096 * p) bytes 64).modTFrame c f fun t =>
          { t with pages := SMap.drop t.pages p, landed := p :: t.landed }

/-- Every piece of a treelet's fill is in its frame. -/
def TFrame.full (t : TFrame) : Bool := (List.range 16).all t.landed.contains

/-- One attempt to go on with a fill, of a paging entry or of another: the pieces that have been read are written, and the fill is
finished once all are. -/
def finishAttempt (paging : Bool) (c f : Nat) (s : State) : Host.Outcome State Fault Refusal :=
  match s.holder c, SMap.find (s.core c).ray.frames f with
  | some (ctx, x), some t =>
    let kind := ((SMap.find (s.core (x.treeletHome t.tid)).ray.entries t.tid).map (·.state == .paging)).getD false
    if kind != paging || t.use != .filling || !t.held || t.refused.isSome then .next s
    else match s.pages c ctx (((s.core c).ray.framePages f).map (4096 * ·)) none with
      | .waiting s => .next s
      | .refused _ cause s => .next (s.modTFrame c f fun t => { t with refused := some cause })
      | .ready =>
        let s := (List.range 16).foldl (fun s p => s.landTreelet ctx c f p) s
        match SMap.find (s.core c).ray.frames f with
        | some t => .next (if t.full then s.finishFill x c f t else s)
        | none => .next s
  | _, _ => .next s

/-- TREELET_FILL_COMPLETE (R346, R347). -/
def execTreeletFillComplete (c f : Nat) (s : State) : Host.Outcome State Fault Refusal := finishAttempt true c f s

/-- TREELET_COPY_COMPLETE (R346, R347). -/
def execTreeletCopyComplete (c f : Nat) (s : State) : Host.Outcome State Fault Refusal := finishAttempt false c f s

/-- FRAME_HOLDS_TREELET: from the home's message on, the frame holds the treelet; the TPIN that waits is pinned, and a TEVICT
that waits evicts it (R365, R366, R447). -/
def execFrameHoldsTreelet (c n : Nat) (s : State) : Host.Outcome State Fault Refusal :=
  match s.message c .ctl n, s.holder c with
  | some ⟨_, .frameHolds tid f, _⟩, some (_, x) =>
    if !s.inTurn c .ctl n then .next s
    else
      let s := s.take c .ctl n
      match SMap.find (s.core c).ray.frames f with
      | some t =>
        if t.tid ≠ tid || t.use != .filled then .next s
        else
          let s := s.modTFrame c f fun t => { t with use := .resident, forPin := none }
          let s := match t.forPin with
            | some a => s.answer a 0
            | none => s
          .next (if t.evictors.isEmpty then s else s.beginEvict x c f none)
      | none => .next s
  | _, _ => .next s

/-- TREELET_FILL_FAILED: the frame is freed; a paging entry with no other fill goes cold, its parked rays are discarded, and
the fault handler is told (R347, R365, R366, R450). -/
def execTreeletFillFailed (c f : Nat) (s : State) : Host.Outcome State Fault Refusal :=
  match s.holder c, SMap.find (s.core c).ray.frames f with
  | some (ctx, x), some t =>
    let cause : Option Nat :=
      if t.use != .filling || !t.held then none
      else if t.refused.isSome then t.refused
      else if t.pages.any fun p => s.pagePoisoned p.2 then some Cause.eccUncorr
      else none
    match cause with
    | none => .next s
    | some cause =>
      let s := (s.modCore c (·.unpinTFrame ctx f)).dropTFrame c f
      let s := s.modStation (stationOf c) fun st => { st with stalled := st.stalled.filter fun y => match y.who with
        | .treelet c' f' _ => !(c' == c && f' == f)
        | _ => true }
      let s := match t.forPin with
        | some a => s.answer a 4
        | none => s
      let home := x.treeletHome t.tid
      match SMap.find (s.core home).ray.entries t.tid with
      | none => .next s
      | some e =>
        if e.state == .paging && e.asking.isNone && s.fillsOf x t.tid == 0 then
          .next ((s.modRay home fun r => { r with entries := SMap.drop r.entries t.tid }).faultReport ctx c
            [BitVec.ofNat 64 (cause + 2 * 65536), BitVec.ofNat 64 (t.tid % 2 ^ 30), BitVec.ofNat 64 e.parked.length])
        else .next (s.modEntry x t.tid fun e => { e with copying := if t.copy then false else e.copying })
  | _, _ => .next s

/-- A live run, before its HDONE, was started by a ray sent to a treelet (R354). -/
def HandlerPart.rayLive (h : HandlerPart) (n : Nat) : Bool := h.runs.any fun (_, r) => r.tid == some n && !r.done

/-- An evicting entry loses an owner; with the last that leaves, it moves on, and its parked rays are released to the owners
that remain, or wait for a new one (R347, R351, R448). -/
def State.dropOwner (s : State) (x : Context) (n c f : Nat) : State :=
  let home := x.treeletHome n
  let s := s.modEntry x n fun e =>
    let owners := e.owners.filter (· != (c, f))
    { e with owners := owners, next := if owners.isEmpty then 0 else e.next % owners.length, leaving := e.leaving.filter (· != (c, f)) }
  match SMap.find (s.core home).ray.entries n with
  | none => s
  | some e =>
    if e.state != .evicting || !e.leaving.isEmpty then s
    else if !e.owners.isEmpty then
      (s.modEntry x n fun e => { e with state := if e.owners.length = 1 then .resident else .replicated }).releaseParked x n
    else if s.fillsOf x n ≠ 0 then s.modEntry x n fun e => { e with state := .paging }
    else if !e.parked.isEmpty then (s.modEntry x n fun e => { e with state := .paging, copying := false }).search x n
    else s.modRay home fun r => { r with entries := SMap.drop r.entries n }

/-- A message of an eviction (R346). -/
def Msg.isEviction : Msg → Bool
  | .evict .. => true
  | .evicting .. => true
  | .evicted .. => true
  | _ => false

/-- An eviction message is taken, of a home at a core or of a core at a home: a home's ends a frame that holds the treelet; a core's
tells the home that an owner leaves, or has left (R346, R347, R352). -/
def State.takeEviction (s : State) (x : Context) (c : Nat) : Msg → State
  | .evict tid f => match SMap.find (s.core c).ray.frames f with
    | some t => if t.tid = tid && t.use == .resident then s.modTFrame c f fun t => { t with use := .evicting } else s
    | none => s
  | .evicting tid d f => s.modEntry x tid fun e =>
    if e.owners.contains (d, f) then { e with state := .evicting, leaving := (d, f) :: e.leaving.filter (· != (d, f)) } else e
  | .evicted tid d f => s.dropOwner x tid d f
  | _ => s

/-- A frame being evicted, with no live run of its treelet, is freed: its pages are unpinned, the home is told, TEVICT is answered,
and a treelet that took the frame has it (R347, R354, R366). -/
def State.freeTFrame (s : State) (ctx : Nat) (x : Context) (c f : Nat) (t : TFrame) : State :=
  let s := s.modCore c (·.unpinTFrame ctx f)
  let s := s.modRay c fun r => { r with frames := SMap.drop r.frames f }
  let s := s.release c (x.treeletHome t.tid) .ctl (.evicted t.tid c f)
  let s := t.evictors.foldl (fun s a => s.answer a 0) s
  match t.taker with
  | some (n, copy, ticket) => s.grantFrame x c f n copy ticket
  | none => s

/-- TREELET_EVICTION: frame f of a core is freed, where it is evicted and no run keeps it; or, with f 16 or more, the core takes
message f - 16 of its CTL inbox, of an eviction, in its turn (R313, R346, R347, R354, R366). -/
def execTreeletEviction (c f : Nat) (s : State) : Host.Outcome State Fault Refusal :=
  match s.holder c with
  | none => .next s
  | some (ctx, x) =>
    if f < 16 then
      match SMap.find (s.core c).ray.frames f with
      | some t => .next (if t.use != .evicting || (s.core c).handlers.rayLive t.tid then s else s.freeTFrame ctx x c f t)
      | none => .next s
    else match s.message c .ctl (f - 16) with
      | some m => .next (if s.inTurn c .ctl (f - 16) && m.msg.isEviction then (s.take c .ctl (f - 16)).takeEviction x c m.msg else s)
      | none => .next s

/-! ### Dispatch (R312, R318 to R320, R354) -/

def classCode : MsgClass → Nat
  | .req => 0 | .ray => 1 | .page => 2 | .ctl => 3 | .rsp => 0 | .hit => 0

/-- The header of a kind-0 message (R312). -/
def headerWords (dst src : BitVec 16) (hid : Nat) (cls : MsgClass) (len : Nat) (mid : Word) : Dword × Dword :=
  (BitVec.ofNat 64 (dst.toNat + 2 ^ 16 * src.toNat + 2 ^ 32 * (hid % 64) + 2 ^ 38 * classCode cls + 2 ^ 40 * len), mid.setWidth 64)

/-- The place of the oldest kind-0 message of an inbox that no run holds, with its message (R316, R318). -/
def CoreState.nextHandler (k : CoreState) (cls : MsgClass) : Option (Nat × Nat × Word × BitVec 16 × List Dword) :=
  (k.inbox cls).zipIdx.findSome? fun (m, j) => match m.msg, m.run with
    | .handler hid mid src payload, none => some (j, hid, mid, src, payload)
    | _, _ => none

/-- The window of a launch's streams (R174, R370). -/
def LaunchRecord.window (r : LaunchRecord) : Window := ⟨4096 * r.lbp, 4096 * r.lsp, false⟩

def State.launchWindow (s : State) (ctx : Nat) (h : BitVec 32) : Window :=
  match s.launch ctx h with
  | some l => l.record.window
  | none => ⟨0, 0, false⟩

/-- A message starts a run in a free context (R318, R319). -/
def State.startRun (s : State) (c ctx : Nat) (x : Context) (cls : MsgClass) (k turn : Nat)
    (m : Nat × Nat × Word × BitVec 16 × List Dword) (b : Binding) : State :=
  let (j, hid, mid, src, payload) := m
  let (h8, h9) := headerWords (x.relative c) src hid cls payload.length mid
  let regs := ((payload ++ List.replicate (8 - payload.length) 0) ++ [h8, h9]).zipIdx.foldl (fun r (v, n) => SMap.setWord r n v) []
  let tid := if cls == .ray then some (rayTarget payload) else none
  let run : Run :=
    { s := { Scalar.start b.entry with regs := regs }, hid := hid, hi := b.hi, mid := mid, launch := b.launch,
      window := s.launchWindow ctx b.launch, cls := cls, tid := tid, sendBuffer := [], done := false, count := 0, budget := b.budget,
      masked := none, pending := [], due := none, serial := (s.core c).order + 1 }
  s.modCore c fun co =>
    let ray := match tid.bind co.ray.holding with
      | some (f, _) => { co.ray with frames := SMap.alter co.ray.frames f fun t => { t with used := co.order + 1 } }
      | none => co.ray
    let co := { co with
      order := co.order + 1, ray := ray
      handlers := { co.handlers with
        runs := SMap.put co.handlers.runs k run
        turn := if b.hi then co.handlers.turn else turn
        hiTurn := if b.hi then turn else co.handlers.hiTurn
        dispatched := co.cycle + 1 } }
    co.setInbox cls (setAt j (fun m => { m with run := some k }) (co.inbox cls))

/-- The lowest free handler context of a bank (R318). -/
def HandlerPart.freeContext (h : HandlerPart) (hi : Bool) : Option Nat :=
  (List.range 16).findSome? fun j =>
    let k := if hi then 16 + j else j
    if (SMap.find h.runs k).isNone then some k else none

/-- The classes in the order in which the dispatcher serves them (R318). -/
def dispatchOrder : List MsgClass := [.ctl, .page, .req, .ray]

/-- The ray at the head of its inbox when its treelet is not here: its place, and its home (R354). -/
def State.strayRay (s : State) (c : Nat) (x : Context) : Option (Nat × Nat × Msg) :=
  match (s.core c).nextHandler .ray with
  | none => none
  | some (j, hid, _, _, payload) =>
    let n := rayTarget payload
    if !s.hitching x || ((s.core c).ray.holding n).isSome then none
    else some (j, x.treeletHome n, .dirRay hid (x.relative c) payload)

/-- HANDLER_DISPATCH: a ray whose treelet is elsewhere is sent on to its home, else one run is started (R316, R318, R320,
R354). -/
def execHandlerDispatch (c : Nat) (s : State) : Host.Outcome State Fault Refusal :=
  match s.holder c with
  | none => .next s
  | some (ctx, x) =>
    if !x.issues then .next s else
    let stray := s.strayRay c x
    match (match stray with
      | some (j, home, m) => if (s.take c .ray j).outRoom c home .ray then some (j, home, m) else none
      | none => none) with
    | some (j, home, m) =>
      let n := match m with | .dirRay _ _ payload => rayTarget payload | _ => 0
      .next (((s.take c .ray j).modRay c fun r => { r with owners := r.owners.filter (·.1 ≠ n) }).release c home .ray m)
    | none =>
      let k := s.core c
      let h := k.handlers
      if h.dispatched = k.cycle + 1 then .next s else
      let masked := h.runs.any fun (_, r) => !r.hi && r.masked.isSome
      let pick (hi : Bool) : Option State := (rotate4 (if hi then h.hiTurn else h.turn)).findSome? fun j =>
        let cls := (dispatchOrder[j]?).getD .ctl
        if cls == .ray && stray.isSome then none else
        match k.nextHandler cls with
        | none => none
        | some m =>
          let b := h.binding m.2.1
          if b.state != .bound || b.hi != hi || (hi && masked) then none
          else (h.freeContext hi).map fun free => s.startRun c ctx x cls free ((j + 1) % 4) m b
      .next ((pick true <|> pick false).getD s)
where
  /-- The four classes from a turn on. -/
  rotate4 (t : Nat) : List Nat := (List.range 4).map fun j => (t + j) % 4

/-! ### The spill ring (R355) -/

/-- The bytes of a spilled message: its header, then its payload. -/
def spillBytes (dst : BitVec 16) (m : Msg) : List Byte :=
  match m with
  | .handler hid mid src payload =>
    let (a, b) := headerWords dst src hid .ray payload.length mid
    (a :: b :: payload).flatMap fun v => bytesOfNat v.toNat 8
  | .dirRay hid src payload =>
    let (a, b) := headerWords dst src hid .ray payload.length 0
    ((a + 3 <<< 44) :: b :: payload).flatMap fun v => bytesOfNat v.toNat 8
  | _ => []

/-- RAY_SPILL: the next packet of a RAY flow, at a core whose inbox is full or whose ring is not empty, is written into the
ring's next place (R355, R412). -/
def execRaySpill (src dst : Nat) (s : State) : Host.Outcome State Fault Refusal :=
  let fl := s.flow src dst .ray
  let k := s.core dst
  match s.holder dst, fl.packets.findIdx? fun p => p.seq == fl.expected && (p.state == .flying || p.state == .early) with
  | some (ctx, x), some j =>
    let size := 2 ^ k.ray.spl
    if 4 ≤ j || !s.routeUp (dieOf src) (dieOf dst) || k.ray.spl = 0 || size ≤ k.ray.spill.length
        || ((k.inbox .ray).length < msgDepth .ray && k.ray.spill.isEmpty) then .next s
    else
      let a := 4096 * k.ray.spb + 128 * ((k.ray.spillHead + k.ray.spill.length) % size)
      match s.pages dst ctx [a] none with
      | .waiting s => .next s
      | .refused _ _ s => .next s
      | .ready =>
        match fl.packets[j]? with
        | none => .next s
        | some p =>
          let s := s.storeAt ⟨ctx, 0⟩ dst a ((spillBytes (x.relative dst) p.msg).take 64) k.cluster.clock
          let s := s.storeAt ⟨ctx, 0⟩ dst (a + 64) ((spillBytes (x.relative dst) p.msg).drop 64) k.cluster.clock
          let s := s.setFlow src dst .ray { fl with
            packets := setAt j (fun p => { p with state := .delivered }) fl.packets, expected := (fl.expected + 1) % 64 }
          .next ((s.modRay dst fun r => { r with spill := r.spill ++ [⟨src, p.msg, none⟩] }).follow dst src)
  | _, _ => .next s

/-- SPILL_RING_FEED: the oldest place of the ring enters the inbox (R355). -/
def execSpillRingFeed (c : Nat) (s : State) : Host.Outcome State Fault Refusal :=
  let k := s.core c
  match k.ray.spill with
  | [] => .next s
  | m :: more =>
    if msgDepth .ray ≤ (k.inbox .ray).length then .next s
    else .next (s.modCore c fun k =>
      let k := k.setInbox .ray (k.inbox .ray ++ [m])
      { k with ray := { k.ray with spill := more, spillHead := (k.ray.spillHead + 1) % 2 ^ k.ray.spl } })

/-- HIT_ARRIVAL: the oldest message of the HIT inbox enters the hit queue of 256 records (R343). -/
def execHitArrival (c : Nat) (s : State) : Host.Outcome State Fault Refusal :=
  match (s.core c).inbox .hit with
  | ⟨_, .hit bytes, _⟩ :: _ =>
    if 256 ≤ (s.core c).hitQueue.length then .next s
    else .next ((s.take c .hit 0).modCore c fun k => { k with hitQueue := k.hitQueue ++ [bytes] })
  | _ => .next s

end Sys2Proof.Machine
end

