-- ==== Sys2Proof/Machine/Schedule.lean ====
section
/-! DEFINITION. One cycle of a core: the packed set of its vector issue and the streams of its two scalar slots (R127, R129,
R136, R320, R322, R376, R377, R400, R451). A stream is ready when its next unit would issue now. -/

namespace Sys2Proof.Machine

/-- The selected path of a group: the first that is ready and not demoted, else the first that is ready (R129, R136). -/
def selectedPath (ready : StreamRef → Bool) (c u : Nat) (r : Resident) : Option Nat :=
  let ps := (List.range r.ctl.paths.length).filter fun p => ready (.group c u p)
  match ps.find? fun p => ((r.ctl.paths[p]?).map (·.demoted)).getD 0 == 0 with
  | some p => some p
  | none => ps.head?

/-- The priority of a group's launch, or 4 when it has aged (R376). -/
def State.priority (s : State) (r : Resident) : Nat :=
  if r.info.aged then 4
  else ((s.launch r.info.ctx r.info.handle).map (·.record.prio)).getD 0

/-- The segments of a unit, as a mask of eight. -/
def Resident.segments (r : Resident) : Nat := (2 ^ (r.info.width / 8) - 1) * 2 ^ r.info.seg

/-- Older: effective order of residence (R376). -/
def insertOld (x : Nat × Resident × Nat) : List (Nat × Resident × Nat) → List (Nat × Resident × Nat)
  | [] => [x]
  | y :: r => if x.2.1.info.order < y.2.1.info.order then x :: y :: r else y :: insertOld x r

/-- The leader: highest effective priority, then oldest (R376); the list is oldest first. -/
def State.leader (s : State) : List (Nat × Resident × Nat) → Option (Nat × Resident × Nat)
  | [] => none
  | x :: r =>
    match s.leader r with
    | none => some x
    | some y => if s.priority x.2.1 < s.priority y.2.1 then some y else some x

/-- The offset at which a unit's path stands. -/
def Resident.pathPc (r : Resident) (p : Nat) : Word := ((r.ctl.paths[p]?).map (·.front.pc)).getD 0

/-- The unit runs its launch's code, not a trap handler's (R393). -/
def Resident.runs (r : Resident) : Bool := r.ctl.trap.isNone

/-- The packed set behind the leader: running groups of its launch at its offset on free segments, oldest first (R127). -/
def packed (lead : Nat × Resident × Nat) : Nat → List (Nat × Resident × Nat) → List (Nat × Resident × Nat)
  | _, [] => []
  | taken, x :: r =>
    if x.1 ≠ lead.1 && x.2.1.runs && lead.2.1.runs && !x.2.1.info.hank && x.2.1.info.handle == lead.2.1.info.handle
        && x.2.1.info.ctx == lead.2.1.info.ctx && x.2.1.pathPc x.2.2 == lead.2.1.pathPc lead.2.2
        && (x.2.1.segments &&& taken) == 0 then
      x :: packed lead (taken ||| x.2.1.segments) r
    else packed lead taken r

/-- The packed set, in ascending order of first segment, which is the order of its memory events (R181). -/
def bySegment (x : Nat × Resident × Nat) : List (Nat × Resident × Nat) → List (Nat × Resident × Nat)
  | [] => [x]
  | y :: r => if x.2.1.info.seg < y.2.1.info.seg then x :: y :: r else y :: bySegment x r

/-- What a cycle is to a resident unit: an issue opportunity when it is ready, which uses up what its stream gives up and its
demoted paths sit out, and ages it; the priority that 4,096 ready cycles earn stays until it issues (R136, R376, R451). -/
def Resident.tick (r : Resident) (isReady leadReady : Bool) : Resident :=
  let r := { r with info := { r.info with able := isReady || leadReady } }
  if isReady then
    { r with
      ctl := { r.ctl with paths := r.ctl.paths.map fun p => { p with demoted := p.demoted - 1 } }
      info := { r.info with ready := r.info.ready + 1, aged := r.info.aged || decide (4096 ≤ r.info.ready + 1), skip := r.info.skip - 1 } }
  else { r with info := { r.info with ready := 0 } }

/-- The lead has been ready for all the cycles that its LBUD gives it (R400). -/
def Lead.spent (l : Lead) : Bool := l.budget != 0 && decide (2 ^ (l.budget + 8) ≤ l.readyFor)

/-- The lead's readiness, counted for LBUD: behind the budget's last cycle its trap is due, whether it blocks or not (R400). -/
def Lead.tick (l : Lead) (isReady : Bool) : Lead :=
  { l with readyFor := if isReady then l.readyFor + 1 else 0
           due := l.due || l.spent
           s := { l.s with front := { l.s.front with skip := if isReady then l.s.front.skip - 1 else l.s.front.skip } } }

/-- A run's cycle is counted while it is live, not paused and HDONE has not issued (R322). -/
def Run.tick (r : Run) (paused : Bool) : Run := { r with count := if paused || r.done then r.count else r.count + 1 }

/-- A run's issue opportunity (R451). -/
def Run.offered (r : Run) (isReady : Bool) : Run :=
  { r with s := { r.s with front := { r.s.front with skip := if isReady then r.s.front.skip - 1 else r.s.front.skip } } }

/-- A bin is drawn once its age has passed 2,048 cycles: a strand filed in the cycle in which it reaches them still enters
(R146). -/
def Bin.tick (b : Bin) (cycle : Nat) : Bin := { b with drawn := b.drawn || decide (b.born + 2048 < cycle) }

/-- The scalar streams in the order of rotation: leads by residence, then handler contexts (R377). -/
def CoreState.scalarOrder (k : CoreState) (c : Nat) : List (StreamRef × Nat) :=
  let leads := (k.units.filter fun (_, r) => r.lead.isSome).foldl (fun l (u, r) => insertOld (u, r, 0) l) []
  leads.map (fun (u, r, _) => (StreamRef.lead c u, ((r.lead.map (·.s.front.skip)).getD 0)))
    ++ k.handlers.runs.map fun (x, r) => (StreamRef.run c x, r.s.front.skip)

/-- Starts a list at its n-th element, going round. -/
def rotate {α : Type} (l : List α) (n : Nat) : List α := l.drop (n % (l.length + 1)) ++ l.take (n % (l.length + 1))

/-- The logical clock rises at least once in 64 cycles (R190). -/
def ClusterPart.aged (p : ClusterPart) (cycle : Nat) : ClusterPart := if cycle % 64 = 63 then { p with clock := p.clock + 1 } else p

/-- A core's cycle begins: its counts rise, and bins grow old (R20, R146, R190, R322). -/
def CoreState.begin (k : CoreState) : CoreState :=
  let paused := k.handlers.highLive
  { k with
    cycle := k.cycle + 1
    cluster := k.cluster.aged k.cycle
    bins := k.bins.map fun (n, b) => (n, b.tick (k.cycle + 1))
    handlers := { k.handlers with runs := k.handlers.runs.map fun (x, r) => (x, r.tick (paused && !r.hi)) } }

/-- The order in which a packed set's groups act: that of their first segments, in which their events follow one another (R181),
or that of their ages, in which takers of one mailbox go (R327). -/
def packedOrder (byAge : Bool) (set : List (Nat × Resident × Nat)) : List (Nat × Resident × Nat) :=
  set.foldl (fun l y => if byAge then insertOld y l else bySegment y l) []

/-- The streams of the two scalar slots in the order in which they act: takers of one mailbox by age, leads by residence (R327), others
as the rotation comes to them. -/
def slotOrder (takes : StreamRef → Bool) (order slots : List (StreamRef × Nat)) : List (StreamRef × Nat) :=
  if slots.all fun x => takes x.1 then order.filter fun x => slots.any fun y => y.1 == x.1 else slots

/-- The choice of the streams that issue in a core's cycle (R127, R376, R377, R451): they become the agenda. `takes` says that a
stream's next word is MTAKE. -/
def State.coreCycle (ready takes : StreamRef → Bool) (s : State) (c : Nat) : State :=
  let k := s.core c
  let offers := k.units.foldl (fun l (u, r) =>
    match selectedPath ready c u r with
    | some p => insertOld (u, r, p) l
    | none => l) []
  let cands := offers.filter fun x => x.2.1.info.skip == 0
  let vector := match s.leader cands with
    | none => []
    | some x => if x.2.1.info.hank then [x]
      else packedOrder (takes (.group c x.1 x.2.2)) (x :: packed x x.2.1.segments cands)
  let order := k.scalarOrder c
  let able := (rotate order k.handlers.slotTurn).filter fun x => ready x.1
  let slots := (able.filter fun x => x.2 == 0).take 2
  let k := { k with
    units := k.units.map fun (u, r) =>
      let r := r.tick (offers.any (·.1 == u)) (able.any (·.1 == .lead c u))
      (u, { r with lead := r.lead.map fun l => l.tick (able.any (·.1 == .lead c u)) })
    handlers := { k.handlers with
      slotTurn := match slots.getLast? with
        | some x => ((order.findIdx? (·.1 == x.1)).getD 0) + 1
        | none => k.handlers.slotTurn
      runs := k.handlers.runs.map fun (x, r) => (x, r.offered (able.any (·.1 == .run c x))) } }
  { s.setCore c k with
    agenda := vector.map (fun x => Turn.stream (.group c x.1 x.2.2)) ++ (slotOrder takes order slots).map (fun x => Turn.stream x.1) ++ s.agenda }

end Sys2Proof.Machine
end

