-- ==== Sys2Proof/Machine/Kernel.lean ====
section
/-! DEFINITION. Launches: the launch record and its checks, the KN family, the choice of a rectangle, the placement of groups,
and the dispatch rings (R122 to R126, R368 to R377, R382 to R385). -/

namespace Sys2Proof.Machine

/-! ### The launch record (R370, R371) -/

/-- A little-endian field of n bytes. -/
def recField (b : List Byte) (off n : Nat) : Nat := natOfBytes ((b.drop off).take n)

/-- The fields of a launch record (R370). -/
def LaunchRecord.parse (b : List Byte) : LaunchRecord :=
  let f (off n : Nat) : Nat := recField b off n
  let pf := f 22 1
  { code := f 0 8, nx := f 8 2 + 1, ny := f 10 2 + 1, nz := f 12 2 + 1, width := 8 * 2 ^ (f 14 1 % 4), regs := f 15 1,
    lsp := f 16 2, lbp := f 18 2, slots := f 20 1, acc := f 21 1, prio := pf % 4, replay := pf.testBit 2,
    reform := pf.testBit 3,
    lead := if f 24 4 = 0xFFFFFFFF then none else some (BitVec.ofNat 32 (f 24 4)),
    rw := f 28 1, rh := f 29 1,
    origin := if f 30 1 = 0xFF ∧ f 31 1 = 0xFF then none else some (f 30 1, f 31 1),
    preds := ((List.range 4).map fun j => BitVec.ofNat 32 (f (32 + 4 * j) 4)).filter (· ≠ 0),
    undo := f 48 8, ulen := f 56 2 }

/-- A field marked zero is not zero, or a field is out of range: reason 1. `replays` says that the feature is accepted (R370,
R432). -/
def zeroFieldsBad (b : List Byte) (replays : Bool) : Bool :=
  let f (off n : Nat) : Nat := recField b off n
  let replay := (f 22 1).testBit 2
  f 0 8 % 4 != 0 || decide (2 ^ 57 ≤ f 0 8) || decide (2 ^ 12 ≤ f 8 2) || decide (2 ^ 10 ≤ f 10 2) || decide (2 ^ 10 ≤ f 12 2)
    || decide (4 ≤ f 14 1) || f 15 1 == 0 || decide (56 < f 15 1) || decide (256 < f 16 2) || decide (64 < f 20 1)
    || decide (4 < f 21 1) || decide (16 ≤ f 22 1) || f 23 1 != 0 || f 58 6 != 0 || (replay && !replays)
    || (!replay && (f 48 8 != 0 || f 56 2 != 0))

/-- The shape fits within 8 x 12. -/
def smallShape (w h : Nat) : Bool := decide (w ≤ 8) && decide (h ≤ 12)

/-- A context rectangle is of the whole-cluster kind, and so has its clusters at multiples of 8 and 12 from its origin
(R388). -/
def CtxRecord.wholeCluster (r : CtxRecord) : Bool := !smallShape r.rw r.rh

/-- A rectangle of the shape at an origin relative to the context rectangle lies in it, quad-aligned, and across no cluster
boundary when the shape fits within 8 x 12 (R371). -/
def CtxRecord.originOk (r : CtxRecord) (w h ox oy : Nat) : Bool :=
  ox % 2 == 0 && oy % 2 == 0 && decide (ox + w ≤ r.rw) && decide (oy + h ≤ r.rh)
    && (!smallShape w h || !r.wholeCluster || (ox / 8 == (ox + w - 1) / 8 && oy / 12 == (oy + h - 1) / 12))

/-- A handle that another context's table holds, and this one's does not. -/
def State.foreignHandle (s : State) (ctx : Nat) (h : BitVec 32) : Bool :=
  (s.launch ctx h).isNone && s.contexts.any fun (n, x) => n != ctx && (x.launch h).isSome

/-- A feature that the host has accepted (R432). -/
def State.feature (s : State) (n : Nat) : Bool := (SMap.word s.host.facc 0).getLsbD n

/-- The reason for which a record is refused: that of the first check that fails (R371). -/
def State.launchRefusal (s : State) (ctx : Nat) (x : Context) (b : List Byte) : Option Nat :=
  let r := LaunchRecord.parse b
  let c := x.record
  if zeroFieldsBad b (s.feature 2) then some 1
  else if 2 ^ 20 < (r.lbp + r.lsp) * 4096 then some 2
  else if r.rw = 0 ∨ r.rh = 0 ∨ r.rw % 2 = 1 ∨ r.rh % 2 = 1 ∨ c.rw < r.rw ∨ c.rh < r.rh
      ∨ ¬(smallShape r.rw r.rh ∨ (r.rw % 8 = 0 ∧ r.rh % 12 = 0)) then some 3
  else if !(match r.origin with | some (ox, oy) => c.originOk r.rw r.rh ox oy | none => true) then some 4
  else if (match r.lead with | some l => l.toNat % 4 != 0 || r.reform | none => false) then some 5
  else if r.replay && (r.undo == 0 || r.ulen == 0) then some 6
  else if r.preds.any fun h => s.foreignHandle ctx h then some 7
  else none

/-! ### The launch table (R372) -/

/-- Neither retired nor failed. -/
def Launch.live (l : Launch) : Bool := l.state != .retired && l.state != .failed

/-- The first index without a live launch, upward from the one after the last assigned. -/
def Context.freeIndex (x : Context) : Option Nat :=
  ((List.range 256).map fun j => (x.lastIndex + 1 + j) % 256).find? fun n =>
    match SMap.find x.launches n with
    | some l => !l.live
    | none => true

/-- The serial after another: 24 bits, never 0. -/
def nextSerial (n : Nat) : Nat := if (n + 1) % 2 ^ 24 = 0 then 1 else (n + 1) % 2 ^ 24

/-- A context accepts a launch at an index, at a logical time: its handle, and the table after it. -/
def Context.acceptLaunch (x : Context) (n clock : Nat) (r : LaunchRecord) : BitVec 32 × Context :=
  let serial := nextSerial x.serial
  let h : BitVec 32 := BitVec.ofNat 32 (256 * serial + n)
  let l : Launch :=
    { handle := h, record := r, state := .queued, reason := 0, replays := 0, lapsed := false, done := 0, order := x.accepted + 1,
      nextGroup := 0, origin := (0, 0), log := [], release := [], linkFailed := false, clock := clock }
  (h, { x with launches := SMap.put x.launches n l, lastIndex := n, serial := serial, accepted := x.accepted + 1 })

def launchCode : LaunchState → Nat
  | .queued => 0 | .waiting => 1 | .placing => 2 | .running => 3 | .draining => 4 | .retired => 5 | .failed => 6 | .replaying => 7

/-- The status word of a handle (R384). -/
def State.launchStatus (s : State) (ctx : Nat) (h : BitVec 32) : Nat :=
  match s.launch ctx h with
  | none => 8
  | some l => launchCode l.state + 256 * l.reason + 2 ^ 16 * l.replays + 2 ^ 18 * l.lapsed.toNat + 2 ^ 32 * l.done

/-! ### The KN family (R382 to R384) -/

/-- What the KN family shares (R382). -/
def kernelAttr : Attr := { h := false, noMod := true, event := true, info := 27 }

/-- The context to which LAUNCH is directed; K as R383 gives it. -/
def Issue.launchTarget (i : Issue) : Nat := if i.k / 2 ^ 16 = 1 then i.k % 2 ^ 16 else i.ctx

/-- LAUNCH: the record is read as one event, once the target's table has room, and accepted or refused (R383). A directed
launch to a context that does not exist creates none, and what it writes is open (log entry 27). -/
def execLaunch (a b : BitVec 6) (g : GuardField) (s : State) : Host.Outcome State Fault Refusal :=
  runUnit { kernelAttr with ximm := true } g (fun i s =>
    if !i.regOk false .pair b || !i.regOk true .pair a then i.illegal 0 s
    else if decide (2 ^ 17 ≤ i.k) || (i.k != 0 && decide (i.k < 2 ^ 16)) then i.illegal 27 s
    else match s.operandsAfter i [(.pair, b)] [a] fun v =>
        if 2 ^ 32 ≤ (nth v 0 (lowestLane i.active)).toNat then some (i.illegal 27 s)
        else if i.k ≠ 0 && !i.priv then some (i.trapBare Cause.priv 0 s) else none with
    | .stop e => e
    | .ok v u =>
      let y := nth v 0 (lowestLane i.active)
      match s.resolve i .unified y.toNat 64 with
        | .error cause => i.trapAt cause y.toNat 0 s
        | .ok (c, off) =>
          let ctx := i.launchTarget
          let t : Target := ⟨lowestLane i.active, c, off, y⟩
          let read (s : State) : Access Nat := match s.loadLanes i 64 [t] with
            | .ready vals s => .ready ((SMap.find vals t.lane).getD 0) s
            | .waiting s => .waiting s
            | .refused r s => .refused { r with mask := i.mask } s
          match (s.context ctx).filter (·.state != .dead) with
          | none => s.accessing read u fun _ u =>
              let (v, u) := u.freeValue
              s.result u i .pair a fun _ => v
          | some x =>
            match x.freeIndex with
            | none => .wait s
            | some n => s.accessing read u fun v u =>
                let bytes := bytesOfNat v 64
                match u.launchRefusal ctx x bytes with
                | some reason => s.result u i .pair a fun _ => BitVec.ofNat 64 (2 ^ 32 * reason)
                | none =>
                  let (h, x) := x.acceptLaunch n (u.core i.core).cluster.clock (LaunchRecord.parse bytes)
                  s.result { u with contexts := SMap.put u.contexts ctx x } i .pair a fun _ => h.setWidth 64) s

/-- Bits 63:32 of a handle operand are not zero (R382, R384). -/
def Issue.handleBad (i : Issue) (h : Dword) (s : State) : Option Eff := if 2 ^ 32 ≤ h.toNat then some (i.illegal 27 s) else none

/-- What follows the retirement of a launch follows every event of it (R384). -/
def State.followLaunch (s : State) (c ctx : Nat) (h : BitVec 32) : State :=
  match s.launch ctx h with
  | some l => if l.state == .retired then s.raiseClock c l.clock else s
  | none => s

def execKwait (a : BitVec 6) (g : GuardField) (s : State) : Host.Outcome State Fault Refusal :=
  twoWideAfter kernelAttr a 60 [a] g (fun _ => false) (fun i x _ s => i.handleBad x s) (fun i x _ s u =>
    let st := s.launchStatus i.ctx (x.setWidth 32)
    if st % 16 = 5 ∨ st % 16 = 6 ∨ st % 16 = 8 then
      s.result (u.followLaunch i.core i.ctx (x.setWidth 32)) i .pair a fun _ => BitVec.ofNat 64 st
    else .wait s) s

def execKstat (a b : BitVec 6) (g : GuardField) (s : State) : Host.Outcome State Fault Refusal :=
  twoWideAfter kernelAttr 60 b [a] g (fun _ => false) (fun i _ y s => i.handleBad y s) (fun i _ y s u =>
    s.result u i .pair a fun _ => BitVec.ofNat 64 (s.launchStatus i.ctx (y.setWidth 32))) s

/-! ### Rectangles (R373, R375) -/

/-- A core of a launch's rectangle. -/
def Launch.holds (l : Launch) (x : Context) (c : Nat) : Bool :=
  decide (x.x + l.origin.1 ≤ coreX c) && decide (coreX c < x.x + l.origin.1 + l.record.rw)
    && decide (x.y + l.origin.2 ≤ coreY c) && decide (coreY c < x.y + l.origin.2 + l.record.rh)

/-- The origins that a rectangle of a launch may take, lowest row first, then lowest column (R375). -/
def Context.origins (x : Context) (r : LaunchRecord) : List (Nat × Nat) :=
  (List.range (x.record.rh / 2 + 1)).flatMap fun j => ((List.range (x.record.rw / 2 + 1)).map fun k => (2 * k, 2 * j)).filter fun o =>
    x.record.originOk r.rw r.rh o.1 o.2

/-- Resident groups on the cores of a rectangle at an origin. -/
def State.groupsAt (s : State) (x : Context) (r : LaunchRecord) (o : Nat × Nat) : Nat :=
  ((List.range (r.rw * r.rh)).map fun i =>
    ((s.core ((x.y + o.2 + i / r.rw) * 48 + (x.x + o.1 + i % r.rw))).units.filter fun u => !u.2.info.hank).length).sum

/-- The origin of a launch that enters placing: its own, or the one whose cores hold the fewest groups (R375). -/
def State.chooseOrigin (s : State) (x : Context) (r : LaunchRecord) : Nat × Nat :=
  match r.origin with
  | some o => o
  | none =>
    ((x.origins r).foldl (fun (best : Option ((Nat × Nat) × Nat)) o =>
      let n := s.groupsAt x r o
      match best with
      | some (p, m) => if n < m then some (o, n) else some (p, m)
      | none => some (o, n)) none).elim (0, 0) (·.1)

/-- A queued or waiting launch that nothing but its turn keeps from its rectangle: every predecessor has retired or is unknown
(R373). -/
def Context.eligible (x : Context) (m : Launch) : Bool :=
  (m.state == .queued || m.state == .waiting) && m.record.preds.all fun p => match x.launch p with
    | some q => q.state == .retired
    | none => true

/-- One launch's groups go before another's: higher priority, or accepted earlier at the same (R374, R375). -/
def Launch.ahead (m l : Launch) : Bool :=
  decide (l.record.prio < m.record.prio) || (m.record.prio == l.record.prio && decide (m.order < l.order))

/-- LAUNCH_PLACING: a queued or waiting launch waits for its predecessors, fails with one, or takes its rectangle in its turn (R373,
R374). -/
def execLaunchPlacing (ctx : Nat) (h : BitVec 32) (s : State) : Host.Outcome State Fault Refusal :=
  match s.context ctx, s.launch ctx h with
  | some x, some l =>
    if l.state != .queued && l.state != .waiting then .next s
    else if x.state == .dead then .next s
    else
      let states := l.record.preds.filterMap fun p => (x.launch p).map (·.state)
      .next (if states.contains .failed then s.modLaunch ctx h fun l => { l with state := .failed, reason := 1 }
        else if states.any (· != .retired) then s.modLaunch ctx h fun l => { l with state := .waiting }
        else if x.placed && x.issues && !(x.launches.any fun m => x.eligible m.2 && m.2.ahead l) then
          s.modLaunch ctx h fun l => { l with state := .placing, origin := s.chooseOrigin x l.record }
        else s)
  | _, _ => .next s

/-! ### Fitting on a core (R125, R126, R264, R375) -/

/-- The lowest base from `b` on at which n registers are free, given the blocks in use; `fuel` bounds the search. -/
def freeBase (used : List (Nat × Nat)) (n : Nat) : Nat → Nat → Option Nat
  | 0, _ => none
  | fuel + 1, b =>
    if 1024 < b + n then none
    else match used.find? fun (lo, size) => decide (lo < b + n) && decide (b < lo + size) with
      | some (lo, size) => freeBase used n fuel (lo + size)
      | none => some b

/-- The segments of a run meet a unit's. -/
def Resident.meets (r : Resident) (seg n : Nat) : Bool :=
  decide (r.info.seg < seg + n) && decide (seg < r.info.seg + r.info.width / 8)

/-- The register base of a block of n registers in the lanes of a run of segments (R126). -/
def CoreState.baseFor (k : CoreState) (seg count n : Nat) : Option Nat :=
  freeBase ((k.units.filter fun u => u.2.meets seg count).map fun u => (u.2.info.base, u.2.info.regs)) n 64 0

/-- The kernel of a launch, by its code (R125). -/
def State.kernelOf (s : State) (r : Resident) : Option Nat := (s.launch r.info.ctx r.info.handle).map (·.record.code)

/-- The run of segments and the register base of a group: the run with the fewest groups of its kernel, the lowest on a tie
(R125, R126). -/
def State.segmentsFor (s : State) (k : CoreState) (r : LaunchRecord) : Option (Nat × Nat) :=
  let n := r.width / 8
  ((List.range (8 / n)).foldl (fun (best : Option (Nat × Nat × Nat)) j =>
    match k.baseFor (n * j) n r.regs with
    | none => best
    | some b =>
      let own := (k.units.filter fun u => !u.2.info.hank && u.2.meets (n * j) n && s.kernelOf u.2 == some r.code).length
      match best with
      | some (m, x) => if own < m then some (own, n * j, b) else some (m, x)
      | none => some (own, n * j, b)) none).map (·.2)

/-- The lowest run of free slots that no resident group holds (R264). -/
def CoreState.slotsFor (k : CoreState) (n : Nat) : Option Nat :=
  let taken (j : Nat) : Bool := (k.tile.slot j).state != .free
    || k.units.any fun u => decide (u.2.slotBase ≤ j) && decide (j < u.2.slotBase + u.2.slotCount)
  if n = 0 then some 0 else (List.range (65 - n)).find? fun b => (List.range n).all fun j => !taken (b + j)

/-- The lowest free accumulators (R264). -/
def CoreState.accsFor (k : CoreState) (n : Nat) : Option (List Nat) :=
  let free := (List.range 4).filter fun a => !k.units.any fun u => u.2.accs.contains a
  if n ≤ free.length then some (free.take n) else none

/-- The lowest free unit number (R126). -/
def CoreState.freeUnit (k : CoreState) : Option Nat := (List.range 16).find? fun u => (SMap.find k.units u).isNone

/-- What a group takes on a core. -/
structure Fit where
  unit : Nat
  seg : Nat
  base : Nat
  slot : Nat
  accs : List Nat
deriving DecidableEq, Repr, Inhabited

/-- A group of a launch fits on a core. -/
def State.fits (s : State) (c : Nat) (r : LaunchRecord) : Option Fit :=
  let k := s.core c
  k.freeUnit.bind fun u => (s.segmentsFor k r).bind fun (seg, base) => (k.slotsFor r.slots).bind fun slot =>
    (k.accsFor r.acc).map fun accs => ⟨u, seg, base, slot, accs⟩

/-! ### Residence (R69, R71, R95, R122 to R126, R264, R280) -/

/-- Lane registers of a block read zero. -/
def clearBlock (lrf : SMap Word) (lane lanes base n : Nat) : SMap Word :=
  lrf.filter fun (key, _) => !(decide (lane ≤ key / 1024) && decide (key / 1024 < lane + lanes) && decide (base ≤ key % 1024)
    && decide (key % 1024 < base + n))

/-- The ggi of group n (R122). -/
def groupIndex (r : LaunchRecord) (n : Nat) : Word :=
  BitVec.ofNat 32 (n % r.nx + 2 ^ 12 * (n / r.nx % r.ny) + 2 ^ 22 * (n / (r.nx * r.ny)))

def Control.start (lanes : LaneMask) (pc : Word) : Control :=
  { paths := [Path.start pc lanes], joins := [], loops := [], mode := 0, seed := 0, scratch := [], traps := .zero, trap := none,
    waiting := [], pending := [], halted := false }

def Lead.start (pc : Word) : Lead :=
  { s := Scalar.start pc, ended := false, traps := .zero, scratch := [], budget := 0, readyFor := 0, due := false }

/-- A group that becomes resident. -/
def Resident.group (ctx : Nat) (l : Launch) (n order : Nat) (f : Fit) : Resident :=
  let r := l.record
  { info := { ctx := ctx, handle := l.handle, ggi := groupIndex r n, width := r.width, regs := r.regs, base := f.base, seg := f.seg,
              hank := false, window := r.window, order := order, ready := 0, aged := false, able := false, skip := 0 }
    lanes := LaneState.start (firstLanes r.width)
    ctl := Control.start (firstLanes r.width) 0
    lead := r.lead.map Lead.start
    queues := [.unmapped, .unmapped, .unmapped, .unmapped]
    engines := [.idle, .idle, .idle, .idle]
    slotBase := f.slot, slotCount := r.slots, accs := f.accs, resvs := [], rgen := 0, batch := 1, lanyard := none, arrival := none,
    waits := [], laneGens := [] }

/-- A unit becomes resident: its registers, slots and accumulators read zero. -/
def State.settle (s : State) (c u : Nat) (r : Resident) : State :=
  s.modCore c fun k => { k with
    units := SMap.put k.units u r
    lrf := clearBlock k.lrf (8 * r.info.seg) r.info.width r.info.base r.info.regs
    tile := { k.tile with acc := k.tile.acc.filter fun x => !r.accs.contains (x.1 / 4096) } }

/-- Groups of a launch's grid. -/
def LaunchRecord.total (r : LaunchRecord) : Nat := r.nx * r.ny * r.nz

/-- The launch has groups to place. -/
def Launch.pending (l : Launch) : Bool := (l.state == .placing || l.state == .running) && decide (l.nextGroup < l.record.total)

/-- Another launch's groups, of higher priority or accepted earlier at the same, go first: they wait for a place, or for their
launch's rectangle (R374, R375). -/
def Context.before (x : Context) (m l : Launch) : Bool := (m.pending || x.eligible m) && m.ahead l

/-- The core that the next group of a launch goes to: of those on which it fits, the one with the fewest groups of the launch,
the lowest on a tie (R375). -/
def State.placeFor (s : State) (x : Context) (l : Launch) : Option (Nat × Fit) :=
  ((x.cores.filter (l.holds x)).foldl (fun (best : Option (Nat × Nat × Fit)) c =>
    match s.fits c l.record with
    | none => best
    | some f =>
      let own := ((s.core c).units.filter fun u => u.2.info.handle == l.handle && !u.2.info.hank).length
      match best with
      | some (m, y) => if own < m then some (own, c, f) else some (m, y)
      | none => some (own, c, f)) none).map (·.2)

/-- GROUP_PLACEMENT: the next pending group of a launch becomes resident where it fits, after the events that preceded its LAUNCH
(R124, R373 to R375, R383). -/
def execGroupPlacement (ctx : Nat) (h : BitVec 32) (s : State) : Host.Outcome State Fault Refusal :=
  match s.context ctx, s.launch ctx h with
  | some x, some l =>
    if !l.pending || !x.issues || x.launches.any fun m => x.before m.2 l then .next s
    else match s.placeFor x l with
      | none => .next s
      | some (c, f) =>
        let order := (s.core c).order + 1
        let s := (s.modCore c fun k => { k with order := order }).settle c f.unit (Resident.group ctx l l.nextGroup order f)
        .next ((s.raiseClock c l.clock).modLaunch ctx h fun l => { l with state := .running, nextGroup := l.nextGroup + 1 })
  | _, _ => .next s

/-! ### Issue (R368, R376, R400) -/

/-- PRIORITY_AGING: a unit ready for 4,096 cycles has effective priority 4 until it issues (R376). -/
def execPriorityAging (c u : Nat) (s : State) : Host.Outcome State Fault Refusal :=
  match s.unit c u with
  | some r => if 4096 ≤ r.info.ready then .next (s.modUnit c u fun r => { r with info := { r.info with aged := true } }) else .next s
  | none => .next s

/-- BUDGET_LEAD: a lead that has stayed ready for its budget traps at its next unit (R400). -/
def execBudgetLead (c u : Nat) (s : State) : Host.Outcome State Fault Refusal :=
  match (s.unit c u).bind (·.lead) with
  | some l => if l.spent then .next (s.modLead c u fun l => { l with due := true }) else .next s
  | none => .next s

/-- DISPATCH_FETCH_RESUME: the dispatch lead of a die whose ring holds its next word asks for it, and is a candidate for the scalar
slots of its core's next cycle (R368, R377). -/
def execDispatchFetchResume (die : Nat) (s : State) : Host.Outcome State Fault Refusal :=
  let c := dispatchCore die
  let next := (s.core c).units.findSome? fun (u, _) => match s.issue (.lead c u) with
    | some i => if s.isDispatchLead i && !i.handler && s.ringHolds i then some (StreamRef.lead c u) else none
    | none => none
  match next with
  | some ref => .next { s with agenda := .poll ref :: s.agenda }
  | none => .next s

end Sys2Proof.Machine
end

