-- ==== Sys2Proof/Machine/Retire.lean ====
section
/-! DEFINITION. How groups, hanks and launches end, bins and hit records, uncorrectable errors and rollbacks (R124, R146, R147,
R149, R163, R343, R373, R378 to R381, R429). -/

namespace Sys2Proof.Machine

/-! ### The end of units (R124, R264, R270, R291) -/

/-- The slots of a unit's run are free, without records. -/
def TilePart.freeRange (t : TilePart) (base n : Nat) : TilePart :=
  (List.range n).foldl (fun t j =>
    let t := t.dropRecord (base + j)
    if (t.slot (base + j)).state == .free then t else t.free (base + j)) t

/-- The bytes that a SPLICE sends, once the group that armed the slot has ended: they come to nothing (R288). -/
def Msg.void (slots : List Nat) : Msg → Msg
  | .splice k bytes => if slots.contains k then .splice 64 [] else .splice k bytes
  | m => m

/-- Exchanges on their way to slots of core c come to nothing. -/
def State.voidSplices (s : State) (c : Nat) (slots : List Nat) : State :=
  if slots.isEmpty then s else
  let s := s.modCore c fun k => k.setInbox .req ((k.inbox .req).map fun x => { x with msg := x.msg.void slots })
  s.modLink fun l => { l with flows := l.flows.map fun f =>
    if f.1 % 6 == (msgIndex .req) && f.1 / 6 % 1152 == c then
      (f.1, { f.2 with packets := f.2.packets.map fun p => { p with msg := p.msg.void slots } }) else f }

/-- The records and programs of a context on a core are discarded (R291). -/
def TilePart.dropContext (t : TilePart) (ctx : Nat) : TilePart :=
  (t.fid.filter fun x => x.2.ctx == ctx).foldl (fun t x => t.dropRecord x.1) t

/-- No group of a launch is resident on the core. -/
def CoreState.launchGone (k : CoreState) (ctx : Nat) (h : BitVec 32) : Bool :=
  !k.units.any fun u => !u.2.info.hank && u.2.info.ctx == ctx && u.2.info.handle == h

/-- A unit retires: it holds nothing any more, and what its engines still held is discarded. With the last group of its launch on
the core, the fid's records of the context there go (DEDUCED, log entry 94). -/
def State.retireUnit (s : State) (c u : Nat) : State :=
  match s.unit c u with
  | none => s
  | some r =>
    let s := (List.range 4).foldl (fun s q =>
      (((r.engines[q]?).map (·.entries)).getD []).foldl (fun s e => s.forgetEntry c u q e) s) s
    let s := (s.dropWatches c (.lanes u)).dropWatches c (.lead u)
    let s := s.voidSplices c (((s.core c).tile.splices.filter fun y => y.unit == u && y.paired).map (·.slot))
    let s := s.modTile c fun t =>
      let t := { t with cmds := t.cmds.filter (·.unit ≠ u), steps := t.steps.filter (·.unit ≠ u), splices := t.splices.filter (·.unit ≠ u) }
      t.freeRange r.slotBase r.slotCount
    let s := s.modCore c fun k => { k with units := SMap.drop k.units u }
    if !r.info.hank && (s.core c).launchGone r.info.ctx r.info.handle then s.modTile c (·.dropContext r.info.ctx) else s

/-- A piece that has started and is still on its way (R245, R253). -/
def Piece.inFlight (p : Piece) : Bool := match p.state with
  | .ready => true
  | .answered => true
  | _ => false

/-- A piece that has started and has not completed, stalled ones among them: HALT lets it complete (R399). -/
def Piece.started (p : Piece) : Bool := p.inFlight || p.state == .stalled

/-- The entries of a unit let it retire: none is left, or, after HALT, every started piece has completed (R124, R399). -/
def Resident.enginesDone (r : Resident) : Bool :=
  r.engines.all fun q => q.entries.isEmpty || (r.ctl.halted && q.entries.all fun e => e.pieces.all fun p => !p.2.started)

/-- Nothing of a unit is left to happen (R124, R281, R282). -/
def State.unitDone (s : State) (c u : Nat) (r : Resident) : Bool :=
  let t := (s.core c).tile
  r.lanes.live == 0 && r.ctl.paths.isEmpty && r.ctl.trap.isNone && r.ctl.waiting.isEmpty
    && (match r.lead with | some l => l.ended && l.s.out.all (·.unperformed == 0) | none => true)
    && r.lanes.out.all (·.unperformed == 0)
    && r.enginesDone && !t.cmds.any (·.unit == u) && !t.steps.any (·.unit == u) && !t.splices.any (·.unit == u)

/-- GROUP_RETIREMENT: a unit of which nothing is left retires; with the last of its grid, the launch drains (R124, R373). -/
def execGroupRetirement (c u : Nat) (s : State) : Host.Outcome State Fault Refusal :=
  match s.unit c u with
  | none => .next s
  | some r =>
    if !s.unitDone c u r || !((s.context r.info.ctx).map (·.issues)).getD false
        || !((s.context r.info.ctx).map (·.launchRuns r.info.handle)).getD false then .next s
    else
      let s := s.retireUnit c u
      if r.info.hank then .next s
      else .next (s.modLaunch r.info.ctx r.info.handle fun l =>
        let l := { l with done := l.done + 1 }
        if l.state == .running && l.done == l.record.total then { l with state := .draining } else l)

/-! ### Bins, hanks and hit records (R146, R147, R149, R343) -/

/-- BIN_AGE_EXPIRY: a filling bin 2,048 cycles old is drawn (R146). -/
def execBinAgeExpiry (c b : Nat) (s : State) : Host.Outcome State Fault Refusal :=
  let k := s.core c
  match SMap.find k.bins b with
  | some x => if !x.drawn && decide (x.born + 2048 ≤ k.cycle) then
      .next (s.setCore c { k with bins := SMap.put k.bins b { x with drawn := true } }) else .next s
  | none => .next s

/-- A hank of a bin's strands (R71, R122, R147, R148, R376). -/
def Resident.hankOf (ctx : Nat) (l : Launch) (x : Bin) (base : Nat) : Resident :=
  let n := x.strands.length
  { info := { ctx := ctx, handle := x.launch, ggi := 0, width := 64, regs := l.record.regs, base := base, seg := 0, hank := true,
              window := l.record.window, order := x.order, ready := 0, aged := false, able := false, skip := 0 }
    lanes := { LaneState.start (firstLanes n) with
      preds := x.strands.zipIdx.foldl (fun m (y, j) => SMap.setWord m j y.preds) []
      ggis := x.strands.zipIdx.map fun (y, j) => (j, y.ggi) }
    ctl := Control.start (firstLanes n) x.offset
    lead := none
    queues := [.unmapped, .unmapped, .unmapped, .unmapped]
    engines := [.idle, .idle, .idle, .idle]
    slotBase := 0, slotCount := 0, accs := [], resvs := [], rgen := 0, batch := 1, lanyard := none, arrival := none,
    waits := [], laneGens := [] }

/-- HANK_PLACEMENT: a drawn bin whose registers are free becomes a hank (R126, R146, R147). -/
def execHankPlacement (c b : Nat) (s : State) : Host.Outcome State Fault Refusal :=
  let k := s.core c
  match SMap.find k.bins b, s.holder c with
  | some x, some (ctx, y) =>
    match y.launch x.launch, k.freeUnit with
    | some l, some u =>
      match k.baseFor 0 8 l.record.regs with
      | none => .next s
      | some base =>
        if !x.drawn || !y.issues || !y.launchRuns x.launch then .next s
        else
          let r := Resident.hankOf ctx l x base
          let s := (s.modCore c fun k => { k with bins := SMap.drop k.bins b }).settle c u r
          .next (x.strands.zipIdx.foldl (fun s (y, j) =>
            y.regs.zipIdx.foldl (fun s (v, g) => if g < r.info.regs then s.setLane c r j g v else s) s) s)
    | _, _ => .next s
  | _, _ => .next s

/-- A hit record as a strand (R149). -/
def hitStrand (bytes : List Byte) : Strand :=
  { regs := (List.range 8).map fun j => BitVec.ofNat 32 (recField bytes (4 * j) 4), preds := 0, ggi := 0xFFFFFFFF }

/-- What becomes of the record at the head of a hit queue (R343). -/
inductive HitFate where
  | stays
  /-- Removed, with bits 15:0 of doubleword 0 of the report. -/
  | removed (code : Nat)
  | files (launch : BitVec 32) (entry : Word)
deriving DecidableEq, Repr, Inhabited

/-- The fate of a record under the shading launch that SHL names (R343; log entry 28). -/
def Context.hitFate (x : Context) (shl : BitVec 32) (bytes : List Byte) : HitFate :=
  if shl = 0 then .stays else
  match x.launch shl with
  | none => .removed (0x15 + 256 * 2)
  | some l => match l.state with
    | .queued | .waiting | .placing | .replaying => .stays
    | .retired | .failed => .removed (0x15 + 256 * 2)
    | .running | .draining =>
      if !l.record.reform then .removed (0x15 + 256)
      else if recField bytes 0 4 % 4 ≠ 0 then .removed 0x03
      else .files shl (BitVec.ofNat 32 (recField bytes 0 4))

/-- HIT_RECORD_FILING: the head record is filed, or removed and reported, or stays (R149, R343, R450). -/
def execHitRecordFiling (c : Nat) (s : State) : Host.Outcome State Fault Refusal :=
  match (s.core c).hitQueue, s.holder c with
  | bytes :: more, some (ctx, x) =>
    if !x.issues then .next s else
    match x.hitFate ((s.core c).ray.rcfg2.setWidth 32) bytes with
    | .stays => .next s
    | .removed code => .next ((s.modCore c fun k => { k with hitQueue := more }).faultReport ctx c
        [BitVec.ofNat 64 (code + 65536), BitVec.ofNat 64 (recField bytes 0 8)])
    | .files h entry =>
      match s.fileStrand c h entry (hitStrand bytes) with
      | some s => .next (s.modCore c fun k => { k with hitQueue := more })
      | none => .next s
  | _, _ => .next s

/-! ### The end of launches (R315, R373, R384) -/

/-- The bindings of a launch become unbound on every core of its context (R315). -/
def State.unbind (s : State) (x : Context) (h : BitVec 32) : State :=
  x.cores.foldl (fun s c => s.modHandlers c fun p => { p with bindings := p.bindings.filter fun b => b.2.launch ≠ h }) s

/-- A strand of a launch is in a bin or a hank. -/
def State.strandsOf (s : State) (x : Context) (h : BitVec 32) : Bool :=
  x.cores.any fun c => (s.core c).bins.any (fun b => b.2.launch == h) || (s.core c).units.any fun u => u.2.info.handle == h

/-- Far stows that a launch has released and another package has not acknowledged. -/
def State.releasing (s : State) (a : Agent) : Bool :=
  s.link.fabric.any fun f => f.2.replay.any fun p => match p.2 with
    | .release b _ => b == a
    | _ => false

/-- The latest logical time of a context's cores. -/
def State.latest (s : State) (x : Context) : Nat := x.cores.foldl (fun t c => max t (s.core c).cluster.clock) 0

/-- LAUNCH_RETIREMENT: a draining launch without strands releases its far stows, and retires once they are out (R373, R378,
R384). -/
def execLaunchRetirement (ctx : Nat) (h : BitVec 32) (s : State) : Host.Outcome State Fault Refusal :=
  match s.context ctx, s.launch ctx h with
  | some x, some l =>
    if l.state != .draining || s.strandsOf x h then .next s
    else if !l.release.isEmpty then .next (s.releaseFar ctx h)
    else if s.releasing ⟨ctx, h⟩ then .next s
    else .next ((s.unbind x h).modLaunch ctx h fun l => { l with state := .retired, log := [], clock := s.latest x })
  | _, _ => .next s

/-- Everything that a launch has on the cores of its context goes: groups, hanks, strands, bindings, and the entries that its
runs placed (R124, R288, R315, R379). -/
def State.dismiss (s : State) (ctx : Nat) (x : Context) (h : BitVec 32) : State :=
  let s := x.cores.foldl (fun s c =>
    let mine := (s.core c).units.filter fun u => u.2.info.handle == h && u.2.info.ctx == ctx
    let s := mine.foldl (fun s u => s.retireUnit c u.1) s
    let s := (List.range 4).foldl (fun s q =>
      let gone := (s.queue c 16 q).entries.filter (·.launch == h)
      let s := gone.foldl (fun s e => s.forgetEntry c 16 q e) s
      s.modQueue c 16 q fun y => { y with
        entries := y.entries.filter (·.launch ≠ h), done := y.done + BitVec.ofNat 32 gone.length }) s
    s.modCore c fun k => { k with bins := k.bins.filter fun b => b.2.launch ≠ h }) s
  s.unbind x h

/-- The far stows that a launch holds are discarded, and remembered no more (R379). -/
def State.discardFar (s : State) (ctx : Nat) (h : BitVec 32) : State :=
  match s.launch ctx h with
  | none => s
  | some l => (l.release.foldl (fun s x => s.forgetFar x.1 x.2.length) s).modLaunch ctx h fun l => { l with release := [] }

/-- A launch fails: nothing of it has a further effect (R124, R373, R381). -/
def State.failLaunch (s : State) (ctx : Nat) (x : Context) (h : BitVec 32) (reason : Nat) : State :=
  ((s.dismiss ctx x h).discardFar ctx h).modLaunch ctx h fun l => { l with state := .failed, reason := reason, log := [] }

/-! ### Rollback (R379, R381, R385) -/

/-- A line of a piece still travels, unless it has read an uncorrectable error. -/
def State.pieceMoves (s : State) (p : Piece) : Bool :=
  p.inFlight && match p.place with
    | some (.hbm pa) => p.lines.any fun x => x.2 != .done && x.2 != .lost && !s.l2.poisoned.contains ((pa / 4096 * 4096 + 64 * x.1) / 64)
    | _ => p.sent && p.state != .answered

/-- A queue lets a rollback of a launch go on: no piece of it is on its way. -/
def State.queueQuiet (s : State) (h : BitVec 32) (q : EngineQueue) : Bool :=
  q.entries.all fun e => e.launch ≠ h || e.pieces.all fun p => !s.pieceMoves p.2

/-- A stream of a unit awaits no acknowledgement. -/
def Resident.quiet (r : Resident) : Bool :=
  r.lanes.out.all (·.unacked == 0) && ((r.lead.map (·.s.out)).getD []).all (·.unacked == 0) && r.ctl.pending.all fun p => !p.blocks

/-- A packet between cores of a context was lost with a failed link. -/
def State.lostBetween (s : State) (x : Context) : Bool :=
  x.cores.any fun a => s.link.flows.any fun f => f.1 / 6 / 1152 == a && f.2.packets.any (·.state == .lost)

/-- A flow goes on behind its lost packets. -/
def Flow.mended (f : Flow) : Flow :=
  let left := f.packets.filter (·.state != .lost)
  if left.length = f.packets.length then f
  else { f with packets := left, expected := ((left.find? (·.state != .delivered)).map (·.seq)).getD f.next }

/-- A fill or a write-back that a failed link has lost begins anew (R416). -/
def CoreState.mendFrames (k : CoreState) (ctx : Nat) : CoreState :=
  { k with frames := (k.frames.filter fun f => f.2.ctx ≠ ctx || !f.2.lost || f.2.state != .filling).map fun f =>
      (f.1, if f.2.ctx = ctx && f.2.lost then { f.2 with state := .dirty, place := none, lost := false } else f.2) }

/-- The fills and write-backs of a context's local pages that a failed link has lost begin anew, once the launch that it hit has
been rolled back or has failed (R381, R416; log entry 34). -/
def State.mendPages (s : State) (ctx : Nat) : State := { s with cores := s.cores.map fun k => (k.1, k.2.mendFrames ctx) }

/-- The flows of a context's cores go on behind the packets that a failed link has lost, once the launch that it hit has been
rolled back or has failed (R381, R416; log entry 34). -/
def State.mendFlows (s : State) (x : Context) : State :=
  s.modLink fun l => { l with flows := l.flows.map fun f => if x.cores.contains (f.1 / 6 / 1152) then (f.1, f.2.mended) else f }

/-- The first two steps of a rollback: streams at a boundary, runs ended, pieces settled (R379). -/
def State.rollbackQuiet (s : State) (x : Context) (h : BitVec 32) : Bool :=
  x.cores.all fun c =>
    let k := s.core c
    (k.units.all fun u => u.2.info.handle ≠ h || ((u.2.quiet || s.lostBetween x) && u.2.engines.all (s.queueQuiet h)))
      && !(k.handlers.runs.any fun r => r.2.launch == h) && k.handlers.queues.all (s.queueQuiet h)

/-- Restores the newest pre-images of a log while their pages and lines are there (R379, R427, R428). -/
def State.restoreLog (s : State) (ctx : Nat) (x : Context) (h : BitVec 32) : Nat → State
  | 0 => s
  | n + 1 =>
    match (s.launch ctx h).map (·.log) with
    | some ((word, image) :: more) =>
      let pop (s : State) : State := s.modLaunch ctx h fun l => { l with log := more }
      if word < 2 ^ 63 then
        let die := dieOf (x.cores.headD 0)
        if !s.walkAnswers die ctx word || !((s.hbmOf ctx word 1).all fun pa => s.lineAnswers die (pa / 64)) then s
        else
          (pop (match s.hbmOf ctx word 1 with
            | some pa => (s.walkRead ctx word).deviceWrite pa image
            | none => s)).restoreLog ctx x h n
      else match x.coreAt (BitVec.ofNat 16 (word / 2 ^ 32)) with
        | none => (pop s).restoreLog ctx x h n
        | some c =>
          let a := word % 2 ^ 20
          match s.pages c ctx [a] none with
          | .ready => (pop (s.storeAt ⟨ctx, 0⟩ c a image (s.core c).cluster.clock)).restoreLog ctx x h n
          | .refused _ _ s => s
          | .waiting s => s
    | _ => s

/-- Withdraws a launch's arrivals from the generations under way (R211, R379). -/
def Barrier.withdraw (b : Barrier) (ctx : Nat) (h : BitVec 32) : Barrier :=
  { b with parties := b.parties.filter fun p => p.ctx ≠ ctx || p.launch ≠ h }

def State.withdraw (s : State) (ctx : Nat) (x : Context) (h : BitVec 32) : State :=
  let s := { s with contexts := s.contexts.map fun z =>
    (z.1, { z.2 with barriers := z.2.barriers.map fun b => (b.1, b.2.withdraw ctx h) }) }
  x.cores.foldl (fun s c => s.modCore c fun k => { k with barriers := k.barriers.map fun b => (b.1, b.2.withdraw ctx h) }) s

/-- The two cores on either side of a die-edge link (R414, R416). -/
def edgeCores (l : Nat) : Nat × Nat :=
  if l < 24 then (48 * l + 23, 48 * l + 24) else (48 * 11 + (l - 24), 48 * 12 + (l - 24))

/-- A rectangle of a shape at an origin has cores on both sides of a link. -/
def Context.crosses (x : Context) (w h : Nat) (o : Nat × Nat) (link : Nat) : Bool :=
  let inside (c : Nat) : Bool := decide (x.x + o.1 ≤ coreX c) && decide (coreX c < x.x + o.1 + w) && decide (x.y + o.2 ≤ coreY c)
    && decide (coreY c < x.y + o.2 + h)
  inside (edgeCores link).1 && inside (edgeCores link).2

/-- A rectangle that crosses no failed link is free for a replay (R373, R381; log entry 29). -/
def State.originFree (s : State) (x : Context) (r : LaunchRecord) (o : Nat × Nat) : Bool :=
  (List.range 72).all fun l => s.edge l != .failed || !x.crosses r.rw r.rh o l

/-- Where a launch is placed again (R375, R381). -/
def State.replayOrigin (s : State) (x : Context) (l : Launch) : Option (Nat × Nat) :=
  let free := (x.origins l.record).filter (s.originFree x l.record)
  if l.linkFailed then free.head?
  else match l.record.origin with
    | some o => if s.originFree x l.record o then some o else none
    | none =>
      (free.foldl (fun (best : Option ((Nat × Nat) × Nat)) o =>
        let n := s.groupsAt x l.record o
        match best with
        | some (p, m) => if n < m then some (o, n) else some (p, m)
        | none => some (o, n)) none).map (·.1)

/-- ROLLBACK_COMPLETE: once all is quiet, the queued entries and the release buffer are discarded, the log is applied newest
first, arrivals are withdrawn, and the launch is placed again or fails (R373, R379, R381). -/
def execRollbackComplete (ctx : Nat) (h : BitVec 32) (s : State) : Host.Outcome State Fault Refusal :=
  match s.context ctx, s.launch ctx h with
  | some x, some l =>
    if l.state != .replaying || !s.rollbackQuiet x h then .next s
    else
      let clear (c u : Nat) (s : State) : State := (List.range 4).foldl (fun s q =>
        ((s.queue c u q).entries.filter (·.launch == h)).foldl (fun s e =>
          (s.forgetEntry c u q e).modQueue c u q fun y => { y with entries := y.entries.erase e, done := y.done + 1 }) s) s
      let s := x.cores.foldl (fun s c =>
        clear c 16 (((s.core c).units.filter fun u => u.2.info.handle == h).foldl (fun s u => clear c u.1 s) s)) s
      let s := (if l.linkFailed then (s.mendFlows x).mendPages ctx else s).discardFar ctx h
      let s := s.restoreLog ctx x h l.log.length
      if !(((s.launch ctx h).map (·.log.isEmpty)).getD true) then .next s
      else
        let s := ((s.withdraw ctx x h).dismiss ctx x h).modLaunch ctx h fun l => { l with nextGroup := 0, done := 0 }
        .next (if 3 ≤ l.replays then s.modLaunch ctx h fun l => { l with state := .failed, reason := 3 }
          else match s.replayOrigin x l with
            | none => s.modLaunch ctx h fun l => { l with state := .failed, reason := if l.linkFailed then 2 else 5 }
            | some o => s.modLaunch ctx h fun l => { l with state := .placing, replays := l.replays + 1, origin := o, linkFailed := false })
  | _, _ => .next s

/-! ### Uncorrectable errors (R223, R250, R379, R380, R429) -/

/-- A piece that waits for a line of device memory: its queue, and its first virtual address. -/
structure PoisonedPiece where
  core : Nat
  unit : Nat
  q : Nat
  entry : Entry
  va : Nat
deriving DecidableEq, Repr, Inhabited

/-- The piece of a queue's head entry that has read a line; a stow reads one of which it needs bytes (R378). -/
def State.pieceReading (s : State) (line c u q : Nat) : Option PoisonedPiece :=
  (s.working c u q).bind fun e =>
    (e.pieces.find? fun p => p.2.state == .ready && match p.2.place with
      | some (.hbm pa) => pa / 4096 == line / 64 && SMap.find p.2.lines (line % 64) == some .missed
      | _ => false).bind fun p => (e.op.blocks[p.1]?).map fun b => ⟨c, u, q, e, e.op.firstVa b⟩

/-- Pieces of every queue of a core that have read a line. -/
def State.piecesReading (s : State) (line c : Nat) : List PoisonedPiece :=
  (16 :: (s.core c).units.map (·.1)).flatMap fun u => (List.range 4).filterMap fun q => s.pieceReading line c u q

/-- The fills of a core that have read a line: frame numbers. -/
def CoreState.fillsReading (k : CoreState) (line : Nat) : List Nat :=
  (k.frames.filter fun f => f.2.state == .filling && f.2.refused.isNone && match f.2.place with
    | some (.hbm pa) => pa / 4096 == line / 64
    | _ => false).map (·.1)

/-- The treelet fills of a core that have read a line. -/
def CoreState.treeletsReading (k : CoreState) (line : Nat) : Bool :=
  k.ray.frames.any fun f => f.2.use == .filling && f.2.pages.any fun p => match p.2 with
    | .hbm pa => pa / 4096 == line / 64
    | _ => false

/-- A stream whose next word lies in a line of device memory: its virtual address. -/
def State.fetchReading (s : State) (line : Nat) (i : Issue) : Option Nat :=
  (s.codeAddress i).bind fun va => match (s.station (stationOf i.core)).hit i.ctx va 4 with
    | some (.hbm pa) => if pa / 64 = line then some va else none
    | _ => none

/-- The fetches of a core that have read a line. -/
def State.fetchesReading (s : State) (line c : Nat) : List (Issue × Nat) :=
  ((s.core c).streams c).filterMap fun ref => (s.issue ref).bind fun i => (s.fetchReading line i).map fun va => (i, va)

/-- The agent of a stream of a core. -/
def State.streamAgent (s : State) (c : Nat) (who : Issuer) : Agent :=
  match who with
  | .lanes u | .path u _ _ => ((s.unit c u).map fun r => ⟨r.info.ctx, r.info.handle⟩).getD ⟨0, 0⟩
  | .lead u => ((s.unit c u).map fun r => ⟨r.info.ctx, r.info.handle⟩).getD ⟨0, 0⟩
  | .run k => ((s.run c k).map fun r => ⟨((s.holder c).map (·.1)).getD 0, r.launch⟩).getD ⟨0, 0⟩
  | .queue d u q => ⟨s.queueCtx d u, ((s.queue d u q).entries.head?.map (·.launch)).getD 0⟩
  | .remote _ _ ctx launch => ⟨ctx, launch⟩
  | .gone | .reader .. => ⟨0, 0⟩

/-- The error reaches the accesses that wait on a fill, or a write-back that has no translation: launches roll back, the others
trap (R223, R380). -/
def State.poisonFill (s : State) (c i : Nat) : State :=
  match SMap.find (s.core c).frames i with
  | none => s
  | some f =>
    let back := f.waiters.filter fun w => s.absorbs (s.streamAgent c w)
    let s := back.foldl (fun s w => s.beginRollback (s.streamAgent c w).ctx (s.streamAgent c w).launch false) s
    let rest := f.waiters.filter fun w => !back.contains w
    if rest.isEmpty && !back.isEmpty then s.modCore c fun k => { k with frames := SMap.drop k.frames i }
    else s.modCore c fun k => { k with frames := SMap.put k.frames i { f.refuse .uncorrectable 0 with waiters := rest } }

/-- The error reaches a piece: its launch rolls back, or its entry is refused (R250, R380). -/
def State.poisonPiece (s : State) (p : PoisonedPiece) : State :=
  let a : Agent := ⟨s.queueCtx p.core p.unit, p.entry.launch⟩
  if s.absorbs a then s.beginRollback a.ctx a.launch false
  else s.refuseEntry p.core p.unit p.q Cause.eccUncorr 0 0x20 p.va

/-- The error reaches a fetch (R380). -/
def State.poisonFetch (s : State) (x : Issue × Nat) : State :=
  let a := x.1.agent
  if s.absorbs a then s.beginRollback a.ctx a.launch false
  else s.modCore x.1.core fun k => { k with
    fetchRefused := (x.1.ref, x.2, Cause.eccUncorr) :: k.fetchRefused.filter (·.1 != x.1.ref) }

/-- A request whose walk is to read a line. -/
def State.walkReading (s : State) (line : Nat) (y : Stalled) : Bool :=
  y.state != .recorded && (s.walkLines y.ctx y.va).contains line

/-- The error reaches a request whose walk has read the line: what asked takes it, and asks no more (R380, R429; log entry 40). -/
def State.poisonWalk (s : State) (y : Stalled) : State :=
  let s := s.mapStations fun t => { t with stalled := t.stalled.filter (· != y) }
  match y.who with
  | .piece c u q _ seq => match (s.queue c u q).entries with
    | e :: _ => if e.seq = seq then s.poisonPiece ⟨c, u, q, e, y.va⟩ else s
    | [] => s
  | .page c f => s.poisonFill c f
  | .treelet c f _ => s.modTFrame c f fun t => { t with refused := some Cause.eccUncorr }
  | .fetch ref => match s.issue ref with
    | some i => s.poisonFetch (i, y.va)
    | none => s
  | .save ctx => s.saveFault ctx y.core

/-- UNCORRECTABLE_ERROR: a read of a line from HBM4 by a piece, a fill, a fetch or a walk finds an uncorrectable error: the line is
poisoned, HECC.UE counts, and the scheduler acts on what read it (R379, R380, R429). A stack that issues no activate reads
nothing (R427, R428). -/
def execUncorrectableError (pa : Nat) (s : State) : Host.Outcome State Fault Refusal :=
  let line := pa / 64
  let cores := s.cores.map (·.1)
  let pieces := cores.flatMap (s.piecesReading line)
  let fills := cores.flatMap fun c => ((s.core c).fillsReading line).map fun f => (c, f)
  let fetches := cores.flatMap (s.fetchesReading line)
  let treelets := cores.any fun c => (s.core c).treeletsReading line
  let walks := s.stations.flatMap fun t => t.2.stalled.filter (s.walkReading line)
  if (pieces.isEmpty && fills.isEmpty && fetches.isEmpty && !treelets && walks.isEmpty) || (s.cached line && !s.l2.poisoned.contains line)
      || (!s.cached line && !s.lineFetches line) then .next s
  else
    let s := s.modL2 fun l => { l with poisoned := if l.poisoned.contains line then l.poisoned else line :: l.poisoned }
    let s := s.modHost fun h => { h with ue := bumpCount h.ue }
    let s := fills.foldl (fun s f => s.poisonFill f.1 f.2) s
    let s := pieces.foldl State.poisonPiece s
    let s := fetches.foldl State.poisonFetch s
    .next (walks.foldl State.poisonWalk s)

end Sys2Proof.Machine
end

