-- ==== Sys2Proof/Machine/Image.lean ====
section
/-! DEFINITION. What a context image holds: the cores and packets of a context, cut from the package, and moved to the same shape
elsewhere (R218, R220, R222, R254, R288, R291, R324, R357, R389, R402, R403). -/

namespace Sys2Proof.Machine

/-! ### Relocation (R9, R389) -/

def Asker.moved (f : Nat → Nat) (a : Asker) : Asker := { a with core := f a.core }

/-- A message whose cores are renamed. -/
def Msg.moved (f : Nat → Nat) : Msg → Msg
  | .post m v a => .post m v (a.moved f)
  | .postAnswer ok m v a => .postAnswer ok m v (a.moved f)
  | .store w t a => .store w t (a.moved f)
  | .atomics ops reply t a => .atomics ops reply t (a.moved f)
  | .ack t olds a => .ack t olds (a.moved f)
  | .elements p op o l t a => .elements p op o l t (a.moved f)
  | .elementsDone p r l t a => .elementsDone p r l t (a.moved f)
  | .watched home line b w r => .watched (f home) line b w r
  | .weight off v a => .weight off v (a.moved f)
  | .lookup n c => .lookup n (f c)
  | .lookupReply n o => .lookupReply n (o.map fun x => (f x.1, x.2))
  | .ownerUpdate n c fr => .ownerUpdate n (f c) fr
  | .frameRequest n home e c t => .frameRequest n (f home) e c t
  | .frameGrant n c fr t => .frameGrant n (f c) fr t
  | .evicting n c fr => .evicting n (f c) fr
  | .evicted n c fr => .evicted n (f c) fr
  | .pinRequest n c fr a => .pinRequest n (f c) fr (a.moved f)
  | m => m

def OutMsg.moved (f : Nat → Nat) (o : OutMsg) : OutMsg := { o with dst := f o.dst, msg := o.msg.moved f }
def InMsg.moved (f : Nat → Nat) (m : InMsg) : InMsg := { m with src := f m.src, msg := m.msg.moved f }

def Flow.moved (f : Nat → Nat) (x : Flow) : Flow := { x with packets := x.packets.map fun p => { p with msg := p.msg.moved f } }

def Barrier.moved (f : Nat → Nat) (b : Barrier) : Barrier := { b with parties := b.parties.map fun p => { p with core := p.core.map f } }

/-- A frame of the directory: its fill asks for its translations again (R254, R357). -/
def TFrame.moved (f : Nat → Nat) (t : TFrame) : TFrame :=
  { t with forPin := t.forPin.map (·.moved f), evictors := t.evictors.map (·.moved f), pages := [], answered := [] }

def RayPart.moved (f : Nat → Nat) (r : RayPart) : RayPart :=
  { r with
    entries := r.entries.map fun e => (e.1, { e.2 with owners := e.2.owners.map (fun o => (f o.1, o.2)), leaving := e.2.leaving.map fun o => (f o.1, o.2) })
    frames := r.frames.map fun t => (t.1, t.2.moved f)
    owners := []
    spill := r.spill.map (·.moved f)
    forwards := r.forwards.map fun x => (x.1, (f x.2.1.1, x.2.1.2), x.2.2) }

/-- The cluster cache starts empty; leases and watches stay with their lines (R194, R403). -/
def ClusterPart.moved (f : Nat → Nat) (p : ClusterPart) : ClusterPart :=
  { p with
    cache := [], asked := [], readers := []
    homes := p.homes.map fun h => (h.1, { h.2 with owner := h.2.owner.map f, watchers := h.2.watchers.map f, overflow := h.2.overflow.map f })
    watches := p.watches.map fun w => { w with home := f w.home } }

def movedStream (f : Nat → Nat) : StreamRef → StreamRef
  | .group c u p => .group (f c) u p
  | .lead c u => .lead (f c) u
  | .run c k => .run (f c) k

def Walker.moved (f : Nat → Nat) : Walker → Walker
  | .piece c u q p seq => .piece (f c) u q p seq
  | .page c n => .page (f c) n
  | .treelet c n p => .treelet (f c) n p
  | .fetch ref => .fetch (movedStream f ref)
  | .save ctx => .save ctx

def Stalled.moved (f : Nat → Nat) (y : Stalled) : Stalled := { y with who := y.who.moved f, core := f y.core }

/-- A core of an image, renamed. -/
def CoreState.moved (f : Nat → Nat) (k : CoreState) : CoreState :=
  { k with
    handlers := { k.handlers with posts := k.handlers.posts.map (fun p => (p.1.moved f, p.2)), releases := k.handlers.releases.map (·.moved f) }
    cluster := k.cluster.moved f
    ray := k.ray.moved f
    inboxes := k.inboxes.map fun b => (b.1, b.2.map (·.moved f))
    barriers := k.barriers.map fun b => (b.1, b.2.moved f) }

/-! ### Cutting a core out (R220, R253, R288, R291, R324) -/

/-- A piece in an image: performed, stalled, or to be started again (R244, R254). -/
def Piece.kept (p : Piece) : Piece :=
  match p.state with
  | .performed => p
  | .stalled => { Piece.fresh with state := .stalled }
  | _ => Piece.fresh

def EngineQueue.kept (q : EngineQueue) : EngineQueue :=
  { q with entries := q.entries.map fun e => { e with pieces := e.pieces.map fun p => (p.1, p.2.kept) } }

/-- A stream at the boundary before the unit whose hint words it has latched (R40, R401). -/
def Front.rewound (f : Front) : Front := { f with pc := f.start, hints := Hints.none }

/-- A path in an image: its spin counter starts at zero after a restore (R40, R124, R136). -/
def Path.kept (p : Path) : Path := { p with front := p.front.rewound, spin := 0, demoted := 0 }

/-- A group or hank in an image (R124, R254, R401). -/
def Resident.kept (r : Resident) : Resident :=
  { r with
    engines := r.engines.map (·.kept)
    ctl := { r.ctl with
      paths := r.ctl.paths.map (·.kept)
      trap := r.ctl.trap.map fun t => { t with paths := t.paths.map (·.kept), front := t.front.rewound } }
    lead := r.lead.map fun l => { l with s := { l.s with front := l.s.front.rewound } } }

/-- What the image holds of a core: fid records are discarded, and pieces restart (R254, R291). -/
def CoreState.imaged (k : CoreState) : CoreState :=
  { k with
    store := [], frames := [], evc := [], dq := [], fetchRefused := []
    units := k.units.map fun u => (u.1, u.2.kept)
    handlers := { k.handlers with queues := k.handlers.queues.map (·.kept) }
    tile := { k.tile with fid := [], requests := [], compiling := false } }

/-- A page left by its context: unpinned, nothing waits for it (R220, R222). -/
def Frame.left (f : Frame) : Frame :=
  { f with
    pins := 0, waiters := []
    state := if f.pins ≠ 0 && f.modified then .dirty else f.state
    modified := false }

/-- A slot of a core that its context has left is free, as after RELEASE (R270). -/
def Slot.vacated (x : Slot) : Slot := if x.state == .free then x else ⟨.free, x.gen + 1, 0, 0⟩

/-- A core that its context has left keeps what is the core's own: local store, counters, clocks, dispatch registers (R76, R222,
R390). The counts of its handler queues start at 0 again (DESIGN CHOICE, log entry 108). -/
def CoreState.vacated (k : CoreState) (ctx : Nat) : CoreState :=
  { CoreState.reset with
    store := k.store
    frames := (k.frames.filter fun f => f.2.ctx ≠ ctx || f.2.refused.isNone).map fun f => (f.1, if f.2.ctx = ctx then f.2.left else f.2)
    evc := k.evc, dq := k.dq, cycle := k.cycle, order := k.order, nextId := k.nextId
    cluster := { ClusterPart.reset with clock := k.cluster.clock }
    tile := { TilePart.reset with slots := k.tile.slots.map fun t => (t.1, t.2.vacated) } }

/-- The image of a core, on the core that receives it. -/
def CoreState.restored (k img : CoreState) : CoreState :=
  { img with
    store := k.store, frames := k.frames, evc := k.evc, dq := k.dq
    order := max k.order img.order, nextId := max k.nextId img.nextId
    cluster := { img.cluster with clock := max k.cluster.clock img.cluster.clock } }

/-- The pin counts of a context's pages on a core. -/
def CoreState.pinCounts (k : CoreState) (ctx : Nat) : SMap Nat :=
  (k.frames.filter fun f => f.2.ctx == ctx && f.2.pins ≠ 0).foldl (fun m f => SMap.put m f.2.page f.2.pins) []

def allClasses : List MsgClass := [.req, .rsp, .ray, .hit, .page, .ctl]

/-- The flows between the cores of a context that are not idle. -/
def State.flowsOf (s : State) (x : Context) : List (Nat × Nat × MsgClass × Flow) :=
  x.cores.flatMap fun a => x.cores.flatMap fun b => allClasses.filterMap fun cls =>
    (SMap.find s.link.flows (flowKey a b cls)).map fun f => (a, b, cls, f)

def State.dropFlows (s : State) (x : Context) : State :=
  s.modLink fun l => { l with flows := x.cores.foldl (fun m a => x.cores.foldl (fun m b =>
    allClasses.foldl (fun m cls => SMap.drop m (flowKey a b cls)) m) m) l.flows }

/-- A local page's fill or write-back. -/
def Walker.isPage : Walker → Bool
  | .page .. => true
  | _ => false

/-- The stations forget the requests of a context. Where it is saved, the fills and write-backs of its local pages go on, and so do
the fault records that wait for room (R229, R240, R254); where it is destroyed, nothing does (R390). -/
def State.forgetStalled (s : State) (ctx : Nat) (saved : Bool) : State :=
  s.mapStations fun t => { t with
    stalled := t.stalled.filter fun y => y.ctx ≠ ctx || (saved && y.who.isPage)
    held := t.held.filter fun y => y.ctx ≠ ctx || saved }

/-- The requests of a context that stand under fault records, its local pages' apart (R254). -/
def State.stalledOf (s : State) (ctx : Nat) : List Stalled :=
  s.stations.flatMap fun t => t.2.stalled.filter fun y => y.ctx == ctx && y.state != .walking && !y.who.isPage

/-- A context leaves its cores. -/
def State.vacate (s : State) (ctx : Nat) (x : Context) : State :=
  let s := x.cores.foldl (fun s c => s.modCore c (·.vacated ctx)) s
  (s.dropFlows x).forgetStalled ctx true

/-! ### The save area (R402) -/

/-- Where an address of a context's save area lies: as a station of its cores holds it, or as its tables stand. -/
def State.savePlace (s : State) (ctx : Nat) (x : Context) (va : Nat) : Option Place :=
  match ((s.station (stationOf (x.cores.headD 0))).hit ctx va 1).filter s.mapped with
  | some p => some p
  | none => if 2 ^ 57 ≤ va then none else
    match s.walk ctx va 1 with
    | .ok t => some (t.place! va)
    | .error _ => none

/-- Writes bytes from a virtual address that is a multiple of 64, block by block, where the context's tables map it. -/
def State.writeVirtual (s : State) (ctx : Nat) (x : Context) (va : Nat) (bs : List Byte) : Nat → State
  | 0 => s
  | n + 1 =>
    if bs.isEmpty then s
    else (match s.savePlace ctx x va with
      | some (.hbm pa) => s.deviceWrite pa (bs.take 64)
      | some (.host a) => (s.rememberFar (.host a) (bs.take 64)).countOutside (.host a) [0]
      | some (.package pkg pa) => (s.rememberFar (.package pkg pa) (bs.take 64)).sendFabric pkg (.release ⟨ctx, 0⟩ pa)
      | none => s).writeVirtual ctx x (va + 64) (bs.drop 64) n

/-- The header's defined bytes; those at 132 to 135 are the device's own. -/
def Context.header (x : Context) (fault : Bool) (own : List Byte) : List Byte :=
  x.bytes ++ [5, BitVec.ofNat 8 fault.toNat, BitVec.ofNat 8 x.x, BitVec.ofNat 8 x.y] ++ own
    ++ bytesOfNat (x.cause + 2 ^ 16 * x.fcore.toNat) 8

/-- A word map as bytes, from key 0 up. -/
def wordBytes (m : SMap Word) (n : Nat) : List Byte := (List.range n).flatMap fun k => bytesOfNat (SMap.word m k).toNat 4

/-- Writes the save area: the header, and of each core the lane register file, the operand memory and the accumulators. Every
other byte is the device's own: what it holds is open (R402; log entry 33). -/
def State.writeSave (s : State) (ctx : Nat) (x : Context) (fault : Bool) : State :=
  let (own, s) := s.foreignBytes 4
  let (rest, s) := s.foreignBytes (65536 - 144)
  let s := s.writeVirtual ctx x x.record.save (x.header fault own ++ rest) 1024
  x.cores.zipIdx.foldl (fun s (c, i) =>
    let base := x.record.save + 65536 + 0x150000 * i
    let k := s.core c
    let s := s.writeVirtual ctx x base (wordBytes k.lrf 65536) 4096
    let s := s.writeVirtual ctx x (base + 0x40000) (Memory.readBytes k.tile.opmem 0 524288) 8192
    let s := s.writeVirtual ctx x (base + 0xC0000) (wordBytes k.tile.acc 16384) 1024
    let (tables, s) := s.foreignBytes 524288
    s.writeVirtual ctx x (base + 0xD0000) tables 8192) s

/-- The 64 KiB pages of a context's save area. -/
def Context.savePages (x : Context) : List Nat :=
  (List.range (1 + 21 * (x.record.rw * x.record.rh))).map fun j => x.record.save + 65536 * j

/-- The image is taken, the save area written, and the cores are released (R401, R402). -/
def State.capture (s : State) (ctx : Nat) (x : Context) (fault : Bool) : State :=
  let img : Image :=
    { cores := x.cores.foldl (fun m c => SMap.put m c (s.core c).imaged) []
      pins := x.cores.foldl (fun m c => SMap.put m c ((s.core c).pinCounts ctx)) []
      flows := s.flowsOf x, stalled := s.stalledOf ctx, x := x.x, y := x.y, fault := fault }
  ((s.writeSave ctx x fault).vacate ctx x).modContext ctx fun x => { x with
    state := .saved, placed := false, closing := false, image := some img }

/-! ### Reading an image back (R222, R389, R403) -/

/-- Where a core of an image goes. -/
def Context.movedCore (x : Context) (g : Image) (c : Nat) : Nat := (x.y + (coreY c - g.y)) * 48 + (x.x + (coreX c - g.x))

/-- The barriers from `.quad` up, on the instances that hold the same cores (R208; log entry 32). A `.die` instance that the move
splits goes to the die of its first core, and of two that merge one stands (DESIGN CHOICE, log entry 32). -/
def Context.movedBarriers (x : Context) (g : Image) : SMap Barrier :=
  let f := x.movedCore g
  x.barriers.foldl (fun m (key, b) =>
    let scope := key / 65536
    match g.cores.find? fun c => barInstance c.1 0 scope == key / 16 % 4096 with
    | some (c, _) => SMap.put m (barKey scope (barInstance (f c) 0 scope) (key % 16)) (b.moved f)
    | none => m) []

/-- The recorded pins of a context, as its new cores have them: core, pages and counts. -/
def Context.pinsDue (x : Context) : List (Nat × SMap Nat) :=
  match x.image with
  | none => []
  | some g => g.pins.map fun p => (x.movedCore g p.1, p.2)

/-- The pins of a core fit within the 224 frames of R221. -/
def State.pinsFit (s : State) (d : Nat × SMap Nat) : Bool := decide ((s.core d.1).pinned + d.2.length ≤ 224)

/-- Takes the recorded pins of a core. -/
def CoreState.takePins (k : CoreState) (ctx : Nat) (due : SMap Nat) : CoreState :=
  due.foldl (fun k (page, n) => (List.range n).foldl (fun k _ => k.modFrame ctx page Frame.pin) k) k

/-- A request of an image that stood under a fault record stalls again, its record outstanding, until a TSINV covers it (R244,
R254). -/
def State.restall (s : State) (y : Stalled) : State :=
  s.modStation (stationOf y.core) fun t => { t with stalled := t.stalled ++ [{ y with state := .recorded, since := s.tick }] }

/-- A treelet fill that was under way asks for its translations again (R357). -/
def State.resumeFill (s : State) (ctx c f : Nat) (t : TFrame) : State :=
  if t.use == .filling && t.held && t.refused.isNone then s.askTreelet ctx c f t.tid t.landed else s

/-- Loads an image: cores, packets, stalled requests, barriers, and the treelet fills that were under way (R254, R357, R403). -/
def State.loadImage (s : State) (ctx : Nat) (x : Context) (g : Image) : State :=
  let f := x.movedCore g
  let s := g.cores.foldl (fun s (c, k) => s.modCore (f c) fun own => own.restored (k.moved f)) s
  let s := (g.stalled.map (·.moved f)).foldl State.restall s
  let s := g.flows.foldl (fun s (a, b, cls, fl) => s.setFlow (f a) (f b) cls (fl.moved f)) s
  let s := s.modContext ctx fun y => { y with barriers := x.movedBarriers g, image := none }
  x.cores.foldl (fun s c => (s.core c).ray.frames.foldl (fun s (n, t) => s.resumeFill ctx c n t) s) s

end Sys2Proof.Machine
end

