-- ==== Sys2Proof/Machine/System.lean ====
section
/-! DEFINITION. TRAP, RTE and HALT, and the system registers (R231, R233, R235, R344, R369, R398 to R400, R404 to R407, R419,
R432). -/

namespace Sys2Proof.Machine

/-- What the SY family shares (R405). -/
def systemAttr : Attr := { p := true, ximm := true, noMod := true, info := 28 }

/-! ### TRAP, RTE, HALT (R398, R399, R406) -/

/-- TRAP: legal in every kind of code (R405, R406). -/
def execTrap (g : GuardField) (s : State) : Host.Outcome State Fault Refusal :=
  runUnit { systemAttr with p := false } g (fun i s =>
    if 2 ^ 16 ≤ i.k then i.illegal 28 s else i.trapAt Cause.trapSw 0 i.k s) s

/-- The stream runs as the handler of its own trap: the trap registers that RTE uses. -/
def State.handled (s : State) (i : Issue) : Option TrapRegs :=
  if !i.handler then none else
  match i.kind, s.unit i.core i.unit with
  | .group, some r => some r.ctl.traps
  | .lead, some r => r.lead.map (·.traps)
  | _, _ => none

/-- RTE: the records are reloaded and the trapped stream resumes (R398, R449). -/
def execRte (g : GuardField) (s : State) : Host.Outcome State Fault Refusal :=
  runUnit systemAttr g (fun i s =>
    match s.handled i, s.context i.ctx with
    | some t, some x =>
      if 1 < i.k || t.tpc = 0xFFFFFFFF then i.illegal 28 s
      else
        match s.pages i.core i.ctx (spillPages x.record.tsa i.unit (i.kind == .lead) i.lanes) (some i.waiter) with
        | .refused a cause s => i.trapAt cause a 0 s
        | .waiting s => .wait s
        | .ready =>
          let s := if i.kind == .lead then s.returnLead i (i.k == 1) else s.returnLanes i (i.k == 1)
          .moved (match i.kind with
            | .group => s.modUnit i.core i.unit fun r => { r with info := { r.info with ready := 0, aged := false } }
            | _ => s)
    | _, _ => i.illegal 28 s) s

/-- HALT mode 0: the group ends with its lead and every lane; its unstarted entries are discarded without bumps and its
unpaired SPLICEs are disarmed (R399). -/
def State.haltGroup (s : State) (c u : Nat) : State :=
  match s.unit c u with
  | none => s
  | some r =>
    let s := (List.range 4).foldl (fun s q =>
      let gone := (s.queue c u q).entries.filter fun e => !e.pieces.any fun p => p.2.started
      let s := gone.foldl (fun s e => s.forgetEntry c u q e) s
      s.modQueue c u q fun y => { y with
        entries := y.entries.filter fun e => !gone.contains e, done := y.done + BitVec.ofNat 32 gone.length }) s
    let s := s.modTile c fun t => { t with splices := t.splices.filter fun y => y.unit ≠ u || y.paired }
    let s := s.modCtl c u fun k => { k with paths := [], joins := [], loops := [], trap := none, waiting := [], halted := true }
    ((s.endLanes c u r.lanes.live).endLead c u).advance c u 64

/-- The mode that HALT reads, A.even in group code (R399). -/
def Issue.haltMode (i : Issue) (v : List (Nat → Dword)) : Nat :=
  let x := nth v 0 (lowestLane i.active)
  if i.kind == .group then x.toNat % 2 ^ 32 else x.toNat

/-- Stores of a unit's lanes or lead that are not yet performed: they precede its arrivals (R180, R188). -/
def State.unitUnperformed (s : State) (c u : Nat) : Bool :=
  (s.outOf c (.lanes u) ++ s.outOf c (.lead u)).any (·.unperformed != 0)

def execHalt (a : RegField) (g : GuardField) (s : State) : Host.Outcome State Fault Refusal :=
  runUnit systemAttr g (fun i s =>
    if !i.regOk false .pair a then i.illegal 0 s
    else if i.k ≠ 0 then i.illegal 28 s
    else match s.operandsAfter i [(.pair, a)] [] fun v =>
        if isQueue a || i.haltMode v = 1 || (i.haltMode v = 0 && i.handler) then none else some (i.illegal 28 s) with
      | .stop e => e
      | .ok v u =>
        if i.haltMode v ≠ 1 && !(i.haltMode v = 0 && i.handler) then i.illegal 28 s
        else if i.haltMode v = 1 then .moved (u.contextFault i.ctx Cause.haltFault i.core)
        else if s.unitUnperformed i.core i.unit then .wait s
        else .moved (u.haltGroup i.core i.unit)) s

/-! ### Domain registers (R231, R235) -/

/-- A register of an interleave domain: j 0 to 11. -/
def Domain.reg (m : Domain) (j : Nat) : Nat :=
  if j = 0 then m.base else if j = 1 then m.lim
  else if j = 2 then m.gen.toNat + 2 ^ 32 * m.log2n + 2 ^ 36 * m.en.toNat
  else if j = 3 then m.mask
  else m.slices.toNat / 2 ^ (64 * (j - 4)) % 2 ^ 64

/-- A domain after a write of register j of its staged set. -/
def Domain.write (m : Domain) (j v : Nat) : Domain :=
  if j = 0 then { m with base := v / 2 ^ 21 % 2 ^ 19 * 2 ^ 21 }
  else if j = 1 then { m with lim := v / 2 ^ 21 % 2 ^ 20 * 2 ^ 21 }
  else if j = 2 then { m with log2n := v / 2 ^ 32 % 16, en := v.testBit 36 }
  else if j = 3 then { m with mask := v / 64 % 2 ^ 34 * 64 }
  else
    let lo := 64 * (j - 4)
    let old := m.slices.toNat
    { m with slices := BitVec.ofNat 512 (old - old / 2 ^ lo % 2 ^ 64 * 2 ^ lo + v % 2 ^ 64 * 2 ^ lo) }

/-! ### Reading a register (R404) -/

/-- The trap registers of the stream that a unit names (R404); a handler run has none (log entry 31). -/
def State.trapRegs (s : State) (i : Issue) : TrapRegs :=
  match i.kind, s.unit i.core i.unit with
  | .group, some r => r.ctl.traps
  | .lead, some r => (r.lead.map (·.traps)).getD .zero
  | _, _ => .zero

/-- TMODE: the MODE of the issuing stream, or of the trapped one (R396, R404). -/
def State.trappedMode (s : State) (i : Issue) : Dword :=
  match i.kind, s.unit i.core i.unit with
  | .run, _ => 0
  | _, some r => match r.ctl.trap with
    | some t => if i.handler then t.mode else s.modeOf i
    | none => s.modeOf i
  | _, none => 0

/-- TSCR0 to TSCR3 of the issuing group or lead. -/
def State.scratchOf (s : State) (i : Issue) (n : Nat) : Dword :=
  match i.kind, s.unit i.core i.unit with
  | .group, some r => SMap.word r.ctl.scratch n
  | .lead, some r => (r.lead.map fun l => SMap.word l.scratch n).getD 0
  | _, _ => 0

/-- Where a unit's lead stands. -/
def Resident.leadFront (r : Resident) : Front :=
  match r.lead with
  | some l => l.s.front
  | none => Front.at 0

/-- DQHEAD: the offset of the oldest word that the dispatch lead has not retired (R369). -/
def State.dispatchHead (s : State) (c : Nat) : Dword :=
  match (s.core c).units.find? fun u => u.2.lead.isSome && ((s.context u.2.info.ctx).map (·.isDispatch)).getD false with
  | some (_, r) =>
    let f := match r.ctl.trap with
      | some t => if t.lead then t.front else r.leadFront
      | none => r.leadFront
    (f.pc - BitVec.ofNat 32 (4 * f.hints.count)).setWidth 64
  | none => 0

/-- A register of bank 0; none where the number does not exist on the core. -/
def State.readBank0 (s : State) (i : Issue) (n : Nat) : Option Dword :=
  let k := s.core i.core
  let t := s.trapRegs i
  match s.context i.ctx with
  | none => none
  | some x =>
    if n = 0 then some (t.tpc.setWidth 64)
    else if n = 1 then some t.tcause
    else if n = 2 then some t.tmask
    else if n = 3 then some t.taddr
    else if n = 4 then some t.tinfo
    else if n = 5 then some (BitVec.ofNat 64 (x.record.tvb / 4096 % 2 ^ 45 * 4096))
    else if n = 6 then some (s.trappedMode i)
    else if n = 7 then some (if i.kind == .lead then BitVec.ofNat 64 (((s.unit i.core i.unit).bind (·.lead)).map (·.budget) |>.getD 0) else 0)
    else if 8 ≤ n ∧ n ≤ 0xB then some (s.scratchOf i (n - 8))
    else if 0x10 ≤ n ∧ n ≤ 0x17 then some ((SMap.word k.evc (n - 0x10)).setWidth 64)
    else if n = 0x20 then some (BitVec.ofNat 64 (i.ctx % 2 ^ 16))
    else if n = 0x21 then some (BitVec.ofNat 64 (x.x + 2 ^ 8 * x.y + 2 ^ 16 * x.record.rw + 2 ^ 24 * x.record.rh))
    else if n = 0x22 then some (BitVec.ofNat 64 (coreX i.core + 2 ^ 8 * coreY i.core))
    else if n = 0x23 then some k.podset
    else if n = 0xA00 then some k.ray.rcfg0
    else if n = 0xA01 then some k.ray.rcfg1
    else if n = 0xA02 then some k.ray.rcfg2
    else if 0xB00 ≤ n ∧ n ≤ 0xB02 ∧ isDispatchCore i.core then some ((SMap.find k.dq (n - 0xB00)).getD 0)
    else if n = 0xB03 ∧ isDispatchCore i.core then some (s.dispatchHead i.core)
    else none

/-- A fabric port (R419). -/
def State.port (s : State) (p : Nat) : Port := (SMap.find s.link.ports p).getD Port.reset

def linkCode : LinkState → Nat
  | .reset => 0 | .training => 1 | .up => 2 | .retraining => 3 | .failed => 4 | .disabled => 5

/-- A register of bank 1 (R404). -/
def State.readBank1 (s : State) (n : Nat) : Option Dword :=
  if 0x400 ≤ n ∧ n < 0x600 then
    let d := (n - 0x400) / 32
    let j := (n - 0x400) % 32
    if j < 12 then some (BitVec.ofNat 64 ((s.domain d).reg j))
    else if 16 ≤ j ∧ j < 28 then some (BitVec.ofNat 64 ((s.stagedDomain d).reg (j - 16)))
    else none
  else if n = 0x600 then some 0
  else if n = 0x601 then some s.l2Status
  else if 0x800 ≤ n ∧ n < 0x1000 then
    let m := (s.station ((n - 0x800) / 32)).copy ((n - 0x800) % 32 / 2)
    some (BitVec.ofNat 64 (if n % 2 = 0 then m.mask else m.gen.toNat))
  else if 0x1000 ≤ n ∧ n < 0x1040 then
    let p := s.port (n - 0x1000)
    some (BitVec.ofNat 64 ((p.en && s.feature 0).toNat + 2 * linkCode p.state + 256 * min 255 p.retrainings))
  else if 0x2000 ≤ n ∧ n < 0x2200 then some (SMap.word s.link.fps (n - 0x2000))
  else if n = 0x3000 then some (Config.pkgId.setWidth 64)
  else none

/-- The register that K names (R404). -/
def State.readSystem (s : State) (i : Issue) : Option Dword :=
  if i.k < 2 ^ 16 then s.readBank0 i i.k else if i.k < 2 ^ 17 then s.readBank1 (i.k - 2 ^ 16) else none

/-- K names no register on the issuing core (R404). -/
def Issue.noRegister (i : Issue) (s : State) : Option Eff := if (s.readSystem i).isNone then some (i.illegal 28 s) else none

def execSysr (a : RegField) (g : GuardField) (s : State) : Host.Outcome State Fault Refusal :=
  twoWideAfter systemAttr 60 60 [a] g (fun _ => false) (fun i _ _ s => i.noRegister s) (fun i _ _ s u =>
    match s.readSystem i with
    | some v => s.result u i .pair a fun _ => v
    | none => i.illegal 28 s) s

/-! ### Writing a register (R6, R404, R407) -/

/-- RCFG0 as a write stores it (R344, R432). -/
def State.rcfg0Stored (s : State) (v : Nat) : Dword :=
  let f (lo n : Nat) : Nat := v / 2 ^ lo % 2 ^ n
  BitVec.ofNat 64 ((if s.feature 3 then f 0 1 else 0) + 2 * min 12 (f 1 4) + 2 ^ 8 * f 8 4 + 2 ^ 16 * f 16 8
    + 2 ^ 24 * max 8 (min 24 (f 24 5)) + 2 ^ 32 * f 32 8 + 2 ^ 40 * min 11 (f 40 4))

/-- The sixteen lowest set bits of a port set (R419). -/
def lowestPorts (v : Dword) : Dword := ((lanesOf v).take 16).foldl (fun m l => m ||| laneBit l) 0

/-- A written FPCTL.EN takes effect on its port: it goes down, or trains again (R415). -/
def State.applyFpctl (s : State) (p : Nat) : State :=
  let q := s.port p
  if !q.written then s
  else
    let state : LinkState :=
      if q.en then (if q.state == .disabled then .training else q.state)
      else if q.state == .up || q.state == .failed then .disabled else q.state
    let s := s.modLink fun l => { l with ports := SMap.put l.ports p { q with written := false, state := state } }
    if state == q.state then s else s.hostEvent 1

/-- FPCTL.EN is written, or 0 stored while the fabric is not accepted; the effect of an earlier write precedes (R415, R419, R432). -/
def State.writeFpctl (s : State) (p : Nat) (en : Bool) : State :=
  let s := s.applyFpctl p
  s.modLink fun l => { l with ports := SMap.put l.ports p { s.port p with en := en && s.feature 0, written := true } }

/-- A write of bank 0; none where the number does not exist on the core. -/
def State.writeBank0 (s : State) (i : Issue) (n : Nat) (v : Dword) : Option State :=
  if n = 0 then
    some (match i.kind with
      | .group => s.modCtl i.core i.unit fun k => { k with traps := { k.traps with tpc := v.setWidth 32 &&& 0xFFFFFFFC } }
      | .lead => s.modLead i.core i.unit fun l => { l with traps := { l.traps with tpc := v.setWidth 32 &&& 0xFFFFFFFC } }
      | .run => s)
  else if n = 6 then
    some (if i.kind == .run then s
      else if i.handler then s.modCtl i.core i.unit fun k => { k with trap := k.trap.map fun t => { t with mode := storedMode v } }
      else if i.kind == .group then s.modCtl i.core i.unit fun k => { k with mode := storedMode v }
      else s.modScalar i fun c => { c with mode := storedMode v })
  else if n = 7 then
    some (if i.kind == .lead then s.modLead i.core i.unit fun l => { l with budget := min 16 (v.toNat % 256) } else s)
  else if 8 ≤ n ∧ n ≤ 0xB then
    some (match i.kind with
      | .group => s.modCtl i.core i.unit fun k => { k with scratch := SMap.setWord k.scratch (n - 8) v }
      | .lead => s.modLead i.core i.unit fun l => { l with scratch := SMap.setWord l.scratch (n - 8) v }
      | .run => s)
  else if 0x10 ≤ n ∧ n ≤ 0x17 then some (s.modCore i.core fun k => { k with evc := SMap.setWord k.evc (n - 0x10) (v.setWidth 32) })
  else if n = 0x23 then
    some (s.modCore i.core fun k => { k with
      podset := BitVec.ofNat 64 (v.toNat % 2 ^ 25 + (if s.feature 1 then v.toNat / 2 ^ 25 % 2 else 0) * 2 ^ 25) })
  else if n = 0xA00 then some (s.modRay i.core fun r => { r with rcfg0 := s.rcfg0Stored v.toNat })
  else if n = 0xA01 then some (s.modRay i.core fun r => { r with rcfg1 := BitVec.ofNat 64 (v.toNat / 2 ^ 16 % 2 ^ 41 * 2 ^ 16) })
  else if n = 0xA02 then some (s.modRay i.core fun r => { r with rcfg2 := v &&& 0xFFFFFFFF })
  else if n = 0xB00 ∧ isDispatchCore i.core then
    some (s.modCore i.core fun k => { k with dq := SMap.put k.dq 0 (BitVec.ofNat 64 (v.toNat / 4096 % 2 ^ 45 * 4096)) })
  else if n = 0xB01 ∧ isDispatchCore i.core then
    some (s.modCore i.core fun k => { k with dq := SMap.put k.dq 1 (BitVec.ofNat 64 (max 12 (min 24 (v.toNat % 32)))) })
  else if n = 0xB02 ∧ isDispatchCore i.core then
    some (s.modCore i.core fun k => { k with dq := SMap.put k.dq 2 (BitVec.ofNat 64 (v.toNat / 4 % 2 ^ 18 * 4)) })
  else if (s.readBank0 i n).isSome then some s
  else none

/-- A write of bank 1, other than L2COMMIT. -/
def State.writeBank1 (s : State) (n : Nat) (v : Dword) : Option State :=
  if 0x400 ≤ n ∧ n < 0x600 ∧ 16 ≤ (n - 0x400) % 32 ∧ (n - 0x400) % 32 < 28 then
    let d := (n - 0x400) / 32
    some (s.modL2 fun l => { l with staged := SMap.put l.staged d ((s.stagedDomain d).write ((n - 0x400) % 32 - 16) v.toNat) })
  else if 0x1000 ≤ n ∧ n < 0x1040 then some (s.writeFpctl (n - 0x1000) (v.getLsbD 0))
  else if 0x2000 ≤ n ∧ n < 0x2200 then some (s.modLink fun l => { l with fps := SMap.setWord l.fps (n - 0x2000) (lowestPorts v) })
  else if (s.readBank1 n).isSome then some s
  else none

/-- SYSW to L2COMMIT waits before issue while a commit runs; then its unit waits for the commit (R233, R439). -/
def writeCommit (i : Issue) (v : Dword) (s u : State) : Eff :=
  if s.l2.commit.isSome then .wait s
  else
    let (who, u) := u.awaiting i
    .done (u.modL2 fun l => { l with commit := some ⟨v.setWidth 16, .requested, l.staged, [], who⟩ })

def execSysw (a : RegField) (g : GuardField) (s : State) : Host.Outcome State Fault Refusal :=
  twoWideAfter systemAttr a 60 [] g (fun _ => false) (fun i _ _ s => i.noRegister s) (fun i v _ s u =>
    if i.k = 2 ^ 16 + 0x600 then writeCommit i v s u
    else match (if i.k < 2 ^ 16 then u.writeBank0 i i.k v else u.writeBank1 (i.k - 2 ^ 16) v) with
      | some u => .done u
      | none => i.illegal 28 s) s

end Sys2Proof.Machine
end

