-- ==== Sys2Proof/Machine/Context.lean ====
section
/-! DEFINITION. The life of a context: CSAVE, and the ends of saving, restoring and freeing (R386 to R391, R401 to R403, R408). -/

namespace Sys2Proof.Machine

/-! ### The context record (R386, R387) -/

/-- The fields of a context record (R386). -/
def CtxRecord.parse (b : List Byte) : CtxRecord :=
  let f (off n : Nat) : Nat := recField b off n
  { priv := (f 2 1).testBit 0, rw := f 4 1, rh := f 5 1, troot := f 8 8, lsvb := f 16 8, fqb := f 24 8, fqn := f 32 1,
    fhc := BitVec.ofNat 16 (f 36 2), fhid := f 38 1 % 64, tsa := f 39 1, tvb := f 40 8, save := f 48 8, saveLen := f 56 8 }

/-- A shape of one of the two kinds (R388). -/
def shapeOk (w h : Nat) : Bool :=
  decide (0 < w) && decide (0 < h) && w % 2 == 0 && h % 2 == 0 && (smallShape w h || (w % 8 == 0 && h % 12 == 0))

/-- A record is malformed (R387). -/
def malformed (b : List Byte) : Bool :=
  let f (off n : Nat) : Nat := recField b off n
  let r := CtxRecord.parse b
  decide (2 ≤ f 2 1) || f 3 1 != 0 || f 6 2 != 0 || f 33 3 != 0 || f 64 32 != 0 || f 96 32 != 0
    || decide (2 ^ 57 ≤ r.lsvb) || decide (2 ^ 57 ≤ r.tvb) || decide (2 ^ 57 ≤ r.save)
    || decide (r.fqn < 4) || decide (12 < r.fqn)
    || decide (hbmTop < r.troot + 4096) || decide (hbmTop < r.fqb + 64 + 32 * 2 ^ r.fqn)
    || !shapeOk r.rw r.rh
    || decide (r.rw ≤ r.fhc.toNat % 256) || decide (r.rh ≤ r.fhc.toNat / 256)
    || decide (2 ^ 20 < r.tsa * 4096 + 36864)
    || decide (r.saveLen < 65536 + 0x150000 * (r.rw * r.rh))

/-- The lines that reading a record at a virtual address of a context reads: the walk's, and its own. -/
def State.recordLines (s : State) (ctx va : Nat) : List Nat :=
  s.walkLines ctx va ++ match s.hbmOf ctx va 0 with
    | some pa => linesOf pa 128
    | none => []

/-- The record at a virtual address of a context: none where its tables do not map it to this package's memory, or a line on the way
to it or of it holds an uncorrectable error (log entry 33). -/
def State.readRecord (s : State) (ctx va : Nat) : Option (List Byte) :=
  if (s.recordLines ctx va).any s.l2.poisoned.contains then none
  else (s.hbmOf ctx va 0).map fun pa => s.deviceRead pa 128

/-- A placement of a record's rectangle (R388). -/
def CtxRecord.placeOk (r : CtxRecord) (x y : Nat) : Bool :=
  decide (x + r.rw ≤ 48) && decide (y + r.rh ≤ 24)
    && (if r.wholeCluster then x % 8 == 0 && y % 12 == 0
        else x % 2 == 0 && y % 2 == 0 && x / 8 == (x + r.rw - 1) / 8 && y / 12 == (y + r.rh - 1) / 12)

/-! ### CSAVE (R408) -/

/-- The shape of CSAVE: identifier and B in, a status code out. -/
def csaveUnit (op : Nat) (a b : RegField) (g : GuardField) (bad : Nat → Bool)
    (f : Issue → Nat → Nat → State → State → Option (Nat × State)) (s : State) : Host.Outcome State Fault Refusal :=
  twoWideAfter systemAttr a b [a] g (fun i => decide (i.k ≠ op))
    (fun i x y s => if 2 ^ 16 ≤ x.toNat || bad y.toNat then some (i.illegal 28 s) else none) (fun i x y s u =>
    match f i x.toNat y.toNat s u with
      | some (v, u) => s.result u i .pair a fun _ => BitVec.ofNat 64 v
      | none => .wait s) s

/-- A context that has just been created (R390). -/
def Context.created (bytes : List Byte) : Context :=
  { record := CtxRecord.parse bytes, bytes := bytes, state := .created, x := 0, y := 0, placed := false, cause := 0, fcore := 0,
    midSave := false, closing := false, launches := [], lastIndex := 255, serial := 0, accepted := 0, barriers := [], image := none }

def execCsaveCreate (a b : RegField) (g : GuardField) (s : State) : Host.Outcome State Fault Refusal :=
  csaveUnit 0 a b g (fun y => y % 128 != 0) (fun i id y s u =>
    if id = 0 || (s.context id).isSome then some (1, u)
    else if !(s.recordLines i.ctx y).all (s.lineAnswers (dieOf i.core)) then none
    else
      let u := (s.recordLines i.ctx y).foldl (·.signalRead ·) u
      some (match s.readRecord i.ctx y with
        | none => (5, u)
        | some bytes => if malformed bytes then (5, u)
            else (0, { u with contexts := SMap.put u.contexts id (Context.created bytes) }))) s

/-- The frames that a context left elsewhere hold its pages for cores of its new rectangle (R219, R222; log entry 30). -/
def State.renameFrames (s : State) (ctx : Nat) (x : Context) (ox oy : Nat) : State :=
  { s with cores := s.cores.map fun (c, k) =>
      (c, { k with frames := k.frames.map fun (n, f) =>
        if f.ctx ≠ ctx then (n, f)
        else
          let rel := f.old.getD (BitVec.ofNat 16 (coreX c - ox + 256 * (coreY c - oy)))
          (n, { f with old := if x.coreAt rel = some c then none else some rel }) }) }

/-- A context is given a rectangle. -/
def State.place (s : State) (ctx : Nat) (x : Context) (px py : Nat) : State :=
  let y := { x with x := px, y := py, placed := true, state := .restoring }
  let s := { s with contexts := SMap.put s.contexts ctx y }
  match x.image with
  | some g => s.renameFrames ctx y g.x g.y
  | none => s

/-- A core of a rectangle is held. -/
def State.rectangleHeld (s : State) (r : CtxRecord) (px py : Nat) : Bool :=
  (List.range (r.rw * r.rh)).any fun i => (s.holder ((py + i / r.rw) * 48 + (px + i % r.rw))).isSome

/-- The context may be placed: created, or saved without FAULT. -/
def Context.placeable (x : Context) : Bool :=
  x.state == .created || (x.state == .saved && !((x.image.map (·.fault)).getD false))

def execCsavePlace (a b : RegField) (g : GuardField) (s : State) : Host.Outcome State Fault Refusal :=
  csaveUnit 1 a b g (fun y => decide (2 ^ 16 ≤ y)) (fun _ id y s u =>
    some (match s.context id with
      | none => (1, u)
      | some x =>
        if !x.placeable then (2, u)
        else if !x.record.placeOk (y % 256) (y / 256) then (4, u)
        else if s.rectangleHeld x.record (y % 256) (y / 256) then (3, u)
        else (0, u.place id x (y % 256) (y / 256)))) s

/-- No piece of a queue is on its way (R253). -/
def EngineQueue.settled (q : EngineQueue) : Bool := q.entries.all fun e => e.pieces.all fun p => !p.2.inFlight

/-- What a save waits for in the engines of a core (R253, R288). -/
def CoreState.enginesSettled (k : CoreState) : Bool :=
  (k.units.all fun u => u.2.engines.all (·.settled)) && k.handlers.queues.all (·.settled) && k.tile.cmds.isEmpty
    && k.tile.steps.isEmpty && k.tile.splices.all fun y => !y.paired

/-- Save of a context: one that runs starts to stop; one that has faulted waits for its work to settle (R390, R401). -/
def execCsaveSave (a b : RegField) (g : GuardField) (s : State) : Host.Outcome State Fault Refusal :=
  csaveUnit 2 a b g (fun y => y != 0) (fun i id _ s u =>
    match s.context id with
    | none => some (1, u)
    | some x =>
      if id = i.ctx then some (2, u)
      else if x.issues then some (0, u.modContext id fun x => { x with state := .preempting })
      else if x.state == .faulted && !x.midSave && !x.closing then some (0, u.modContext id fun x => { x with closing := true })
      else some (2, u)) s

/-- A core without the frames of a context. -/
def CoreState.withoutFrames (k : CoreState) (ctx : Nat) : CoreState := { k with frames := k.frames.filter fun f => f.2.ctx ≠ ctx }

/-- A launch of a context that is destroyed (R384). -/
def Launch.orphaned (l : Launch) : Launch :=
  if l.live then { l with state := .failed, reason := 4, log := [], release := [] } else l

/-- A context is destroyed: its launches fail, its cores, frames, messages and requests are given up (R220, R384, R390). -/
def State.destroy (s : State) (ctx : Nat) (x : Context) : State :=
  let s := s.vacate ctx x
  let s : State := { s with cores := s.cores.map fun k => (k.1, k.2.withoutFrames ctx) }
  (s.forgetStalled ctx false).modContext ctx fun x => { x with
    state := .dead, placed := false, closing := false, image := none
    launches := x.launches.map fun l => (l.1, l.2.orphaned) }

def execCsaveDestroy (a b : RegField) (g : GuardField) (s : State) : Host.Outcome State Fault Refusal :=
  csaveUnit 3 a b g (fun y => y != 0) (fun i id _ s u =>
    some (match s.context id with
      | none => (1, u)
      | some x => if x.state == .dead || id = i.ctx then (2, u) else (0, u.destroy id x))) s

/-- Something keeps a context running: a launch, a stream, a live run, or a message that could start one (R390). -/
def State.active (s : State) (x : Context) : Bool :=
  (x.launches.any fun l => l.2.live) || x.cores.any fun c =>
    let k := s.core c
    !k.units.isEmpty || !k.handlers.runs.isEmpty
      || dispatchOrder.any fun cls => match k.nextHandler cls with
        | some m => (k.handlers.binding m.2.1).state == .bound
        | none => false

/-- ST of the status word. -/
def State.stateCode (s : State) (x : Context) : Nat :=
  match x.state with
  | .created => 1
  | .resident | .running => if s.active x then 3 else 2
  | .preempting => 4
  | .saved => 5
  | .restoring => 6
  | .faulted => 7
  | .dead => 8

/-- The status word (R408). -/
def State.contextStatus (s : State) (id : Nat) : Nat :=
  match s.context id with
  | none => 0xFFFF0000
  | some x => s.stateCode x + 2 ^ 8 * x.cause + 2 ^ 16 * (if x.placed then x.x else 0xFF) + 2 ^ 24 * (if x.placed then x.y else 0xFF)
      + 2 ^ 32 * x.fcore.toNat

def execCsaveStatus (a b : RegField) (g : GuardField) (s : State) : Host.Outcome State Fault Refusal :=
  csaveUnit 4 a b g (fun y => y != 0) (fun _ id _ s u => some (s.contextStatus id, u)) s

/-! ### The ends of saving, restoring and freeing (R390, R401, R403) -/

/-- The messages of a run that has issued HDONE become pending releases, once its stores are performed (R184, R324). -/
def State.endDoneRuns (s : State) (c : Nat) : State :=
  ((s.core c).handlers.runs.filter fun r => r.2.done && r.2.due.isNone && r.2.s.out.all (·.unperformed == 0)).foldl (fun s r =>
    (s.modHandlers c fun h => { h with releases := h.releases ++ r.2.sendBuffer }).finishRun c r.1) s

/-- An element message or its reply is on its way among cores (R311). -/
def State.elementsMoving (s : State) (x : Context) : Bool :=
  let element (m : Msg) : Bool := match m with
    | .elements .. => true
    | .elementsDone .. => true
    | _ => false
  (s.flowsOf x).any (fun f => f.2.2.2.packets.any fun p => element p.msg)
    || x.cores.any fun c => (s.core c).inboxes.any fun b => b.2.any fun m => element m.msg

/-- A unit of a context waits for the L2 or the stations (R236). -/
def State.systemWaits (s : State) (ctx : Nat) : Bool :=
  s.l2.maintenance.any (·.who.agent.ctx == ctx) || s.l2.shootdowns.any (·.who.agent.ctx == ctx)
    || s.l2.commit.any (·.who.agent.ctx == ctx)

/-- The context can be written: runs ended, engines settled, elements acknowledged, no rollback under way; a page's fill goes on
in its frame (R240, R311, R324, R379, R401). -/
def State.saveReady (s : State) (ctx : Nat) (x : Context) : Bool :=
  (x.cores.all fun c => (s.core c).handlers.runs.isEmpty && (s.core c).enginesSettled)
    && !s.elementsMoving x && !s.systemWaits ctx && !x.launches.any fun l => l.2.state == .replaying

/-- A context that has faulted can be written: its work has settled (R390). -/
def State.faultedReady (s : State) (ctx : Nat) (x : Context) : Bool :=
  (x.cores.all fun c => (s.core c).enginesSettled) && !s.elementsMoving x && !s.systemWaits ctx

/-- CONTEXT_SAVED: once everything has settled and the save area is mapped, the image is written and the cores are released
(R390, R391, R401, R402). -/
def execContextSaved (ctx : Nat) (s : State) : Host.Outcome State Fault Refusal :=
  match s.context ctx with
  | none => .next s
  | some x =>
    let faulted := x.state == .faulted && x.closing
    if x.state != .preempting && !faulted then .next s
    else
      let s := if faulted then s else x.cores.foldl (fun s c => s.endDoneRuns c) s
      if !(if faulted then s.faultedReady ctx x else s.saveReady ctx x) then .next s
      else match x.savePages.find? fun va => (s.savePlace ctx x va).isNone with
        | none => .next (s.capture ctx x faulted)
        | some va =>
          let (q, s) := s.freeValue
          .next (s.translate ((x.cores.head?).getD 0) ctx va 1 (q.toNat % 256) (.save ctx)).2

/-- CONTEXT_RESTORED: every recorded pin is taken, then the image is loaded and the context is resident (R222, R390, R403). -/
def execContextRestored (ctx : Nat) (s : State) : Host.Outcome State Fault Refusal :=
  match s.context ctx with
  | none => .next s
  | some x =>
    if x.state != .restoring then .next s
    else
      let due := x.pinsDue
      if !due.all s.pinsFit then .next s
      else
        let wanted (d : Nat × SMap Nat) : List Nat := d.2.map fun p => 4096 * p.1
        match due.find? fun d => match s.pages d.1 ctx (wanted d) none with
          | .ready => false
          | _ => true with
        | some d => match s.pages d.1 ctx (wanted d) none with
          | .waiting s => .next s
          | .refused _ _ s => .next s
          | .ready => .next s
        | none =>
          let s := due.foldl (fun s d => s.modCore d.1 fun k => k.takePins ctx d.2) s
          let s := match x.image with
            | some g => s.loadImage ctx x g
            | none => s
          .next (s.modContext ctx fun x => { x with state := .resident })

/-- CONTEXT_FREED: the identifier of a dead context is reusable (R390). -/
def execContextFreed (ctx : Nat) (s : State) : Host.Outcome State Fault Refusal :=
  match s.context ctx with
  | some x => if x.state == .dead then .next { s with contexts := SMap.drop s.contexts ctx } else .next s
  | none => .next s

end Sys2Proof.Machine
end

