-- ==== Sys2Proof/Machine/Tile.lean ====
section
/-! DEFINITION. The tile: the TL and MM families, and the events of the tile engine, the matrix engine and the exchange of tiles
(R263 to R289). -/

namespace Sys2Proof.Machine

def tileAttr : Attr := { h := false, noMod := true }
/-- One that starts the matrix engine, by a command message (R12, R135). -/
def stepAttr : Attr := { tileAttr with spin := true }
/-- One whose accesses to memory follow the stream's older events (R272, R185). -/
def tileCopyAttr : Attr := { h := false, noMod := true, ximm := true, event := true, spin := true }

/-- A slot's wait: some slot of the list is neither empty nor ready, or is read (R270, R271). -/
def State.slotsWritable (s : State) (c : Nat) (l : List Nat) : Bool := l.all fun k => ((s.core c).tile.slot k).writable

/-- The physical accumulator that a group names, when it has declared it (R264, R287). -/
def State.accOf (s : State) (i : Issue) (a : BitVec 2) : Option Nat := (s.unit i.core i.unit).bind fun r => r.accs[a.toNat]?

/-- The checks of a unit that names slots: held by the issuing group (R287). -/
def State.tileChecks (s : State) (i : Issue) (slots : List Nat) (ok : Resident → Eff) : Eff :=
  match s.unit i.core i.unit with
  | none => .wait s
  | some r =>
    if i.hank then i.slotState 0 0 s
    else match slots.find? fun k => (r.reservation k).isNone with
      | some k => i.slotState 1 k s
      | none => ok r

/-! ### CLAIM, RELEASE, TSTAT (R265 to R269, R284 to R286) -/

/-- The fields of a descriptor as a reservation of a run. -/
def describe (d : Dword) (first rgen : Nat) : Reservation :=
  let v := d.toNat
  { first := first, count := v / 64 % 64 + 1, rgen := rgen, fmt := v / 4096 % 8, bl := v.testBit 15, scales := v.testBit 16,
    soff := v / 2 ^ 17 % 2 ^ 19, ooff := v / 2 ^ 36 % 2 ^ 19, ocap := v / 2 ^ 55 % 512 }

/-- The bytes of the scale region (R266). -/
def Reservation.scaleBytes (v : Reservation) : Nat := if v.scales then v.count * 64 * (128 / v.block) else 0

/-- The conditions of R265. -/
def consistent (d : Dword) : Bool :=
  let v := describe d 0 0
  let size := 8192 * v.count
  d.toNat % 64 == 0 && decide (v.fmt < 4) && v.soff % 64 == 0 && v.ooff % 8 == 0
    && (v.fmt == 0 || (!v.bl && !v.scales && v.ocap == 0))
    && (v.scales || v.soff == 0) && (v.ocap != 0 || v.ooff == 0)
    && decide (v.soff + v.scaleBytes ≤ size) && decide (v.ooff + 8 * v.ocap ≤ size)
    && (v.scaleBytes == 0 || v.ocap == 0 || decide (v.soff + v.scaleBytes ≤ v.ooff) || decide (v.ooff + 8 * v.ocap ≤ v.soff))

/-- The lowest run of free slots of a group's allocation (R269). -/
def TilePart.freeRun (t : TilePart) (base total count : Nat) : Option Nat :=
  ((List.range (total + 1 - count)).find? fun j =>
    (List.range count).all fun k => (t.slot (base + j + k)).state == .free).map (base + ·)

/-- CLAIM's initialisation of a run (R269). -/
def TilePart.claim (t : TilePart) (v : Reservation) : TilePart :=
  let t := (List.range v.count).foldl (fun t j =>
    ((t.staleRecord (v.first + j)).zero (v.first + j)).modSlot (v.first + j) fun x => { x with state := .empty, gen := x.gen + 1 }) t
  let t := t.putBytes v.first v.soff (List.replicate v.scaleBytes 0x7F)
  (List.range v.ocap).foldl (fun t n => t.putBytes v.first (v.ooff + 8 * n) (List.replicate 4 0xFF)) t

def execClaim (a b : RegField) (g : GuardField) (s : State) : Host.Outcome State Fault Refusal :=
  twoWide tileAttr 60 b [a] g (fun _ => false) (fun i _ d s u =>
    s.tileChecks i [] fun r =>
      if !consistent d then i.slotState 6 0 s
      else
        let want := describe d 0 ((r.rgen + 1) % 2 ^ 20)
        match (s.core i.core).tile.freeRun r.slotBase r.slotCount want.count with
        | none => s.result u i .pair a fun _ => BitVec.allOnes 64
        | some first =>
          let v := { want with first := first }
          let u := u.modTile i.core (·.claim v)
          let u := u.modUnit i.core i.unit fun r => { r with resvs := r.resvs ++ [v], rgen := r.rgen + 1 }
          s.result u i .pair a fun _ => BitVec.ofNat 64 (first + 64 * (v.count - 1) + 4096 * v.rgen)) s

/-- A handle names a live reservation (R269). -/
def Resident.named (r : Resident) (h : Dword) : Option Reservation :=
  r.resvs.find? fun v => v.first + 64 * (v.count - 1) + 4096 * v.rgen == h.toNat

def execRelease (a : RegField) (g : GuardField) (s : State) : Host.Outcome State Fault Refusal :=
  twoWideAfter tileAttr a 60 [] g (fun _ => false) (fun i h _ s => if h.toNat / 2 ^ 32 ≠ 0 then some (i.illegal 21 s) else none)
    (fun i h _ s u =>
    s.tileChecks i [] fun r =>
      match r.named h with
      | none => i.slotState 7 0 s
      | some v =>
        let t := (s.core i.core).tile
        match t.splices.find? fun x => x.unit == i.unit && v.holds x.slot with
        | some x => i.slotState 10 x.slot s
        | none =>
          let busy (k : Nat) : Bool :=
            let x := t.slot k
            x.state == .filling || x.state == .draining || x.readers != 0 || x.claims != 0
          if (List.range v.count).any fun j => busy (v.first + j) then .wait s
          else
            let u := u.modTile i.core fun t => (List.range v.count).foldl (fun t j => t.free (v.first + j)) t
            .done (u.modUnit i.core i.unit fun r => { r with resvs := r.resvs.erase v })) s

def slotCode : SlotState → Nat
  | .free => 0 | .empty => 1 | .filling => 2 | .ready => 3 | .draining => 4

/-- The status word of a slot (R284). -/
def slotStatus (x : Slot) (v : Option Reservation) : Nat :=
  slotCode x.state + match v with
    | none => 0
    | some v => 8 + 16 * v.fmt + 256 * v.first + 2 ^ 14 * (v.count - 1) + 2 ^ 20 * x.readers + 2 ^ 32 * x.gen.toNat

def execTstat (a k : RegField) (g : GuardField) (s : State) : Host.Outcome State Fault Refusal :=
  twoWide tileAttr 60 60 [a] g (fun _ => false) (fun i _ _ s u =>
    s.tileChecks i [] fun r =>
      s.result u i .pair a fun _ => BitVec.ofNat 64 (slotStatus ((s.core i.core).tile.slot k.toNat) (r.reservation k.toNat))) s

/-! ### TFILL and TDRAIN (R272) -/

/-- The operands of TFILL or TDRAIN break R272. -/
def tileOperandsBad (k : Nat) (x y : Dword) : Bool :=
  let pitch := x.toNat / 2 ^ 32
  y.toNat / 4096 != 0 || decide (64 < y.toNat % 64 + (y.toNat / 64 % 64 + 1)) || decide (2 ^ 18 ≤ k)
    || (pitch != 0 && (pitch % 64 != 0 || decide (pitch < 128)))

/-- The shape of TFILL and TDRAIN. -/
def tileCopy (fill : Bool) (a b : RegField) (g : GuardField) (s : State) : Host.Outcome State Fault Refusal :=
  twoWideAfter tileCopyAttr a b [] g (fun _ => false)
    (fun i x y s => if tileOperandsBad i.k x y then some (i.illegal 21 s) else none) (fun i x y s u =>
    let pitch := x.toNat / 2 ^ 32
    let slot := y.toNat % 64
    let count := y.toNat / 64 % 64 + 1
    let slots := (List.range count).map (slot + ·)
    s.tileChecks i slots fun _ =>
      let t := (s.core i.core).tile
      let p := if pitch = 0 then 128 else pitch
      let addr := x.toNat % 2 ^ 32
      match (if fill then none else slots.find? fun k => (t.slot k).state == .empty) with
      | some k => i.slotState 2 k s
      | none =>
        match firstFailing [s.spanAt i addr ((64 * count - 1) * p + 128) 64, s.nearAt i i.k] with
        | some (cause, addr) => i.trapAt cause addr 0 s
        | none =>
          let able := if fill then s.slotsWritable i.core slots else slots.all fun k => (t.slot k).state == .ready
          if !able || decide (8 ≤ t.cmds.length) || !s.ownRoom i.core then .wait s
          else
            let cmd : TileCmd := ⟨fill, i.unit, i.kind == .lead, BitVec.ofNat 32 addr, p, slot, count, 4 * i.k, i.launch, false⟩
            let u := u.modTile i.core fun t =>
              let t := slots.foldl (fun t k => if fill then t.beginWrite k
                else t.modSlot k fun x => { x with state := .draining, readers := x.readers + 1 }) t
              { t with cmds := t.cmds ++ [cmd] }
            .done (u.command i.core (.tile i.unit))) s

def execTfill (a b : RegField) (g : GuardField) (s : State) : Host.Outcome State Fault Refusal := tileCopy true a b g s
def execTdrain (a b : RegField) (g : GuardField) (s : State) : Host.Outcome State Fault Refusal := tileCopy false a b g s

/-- The rows of a tile command: local address at its core, and place in operand memory. -/
def TileCmd.rows (x : TileCmd) (off : Nat) : List (Nat × Nat) :=
  (List.range (64 * x.count)).map fun k => (off + k * x.pitch, 8192 * x.slot + 128 * k)

/-- A page of a tile command has been refused, or read an uncorrectable error: its launch rolls back, or its stream takes the trap;
the command stays, and asks for the page again (R223, R379, R380; log entry 39). -/
def State.refuseTile (s : State) (c : Nat) (g : Agent) (x : TileCmd) (cause addr : Nat) : State :=
  if cause = Cause.eccUncorr && s.absorbs g then s.beginRollback g.ctx g.launch false
  else s.leaveTrap c x.unit x.lead ⟨cause, 0, BitVec.ofNat 64 addr, 0⟩

/-- A tile command whose pages are there: its home and offset, or the state that waits for them. -/
def State.tileReady (s : State) (c : Nat) (x : TileCmd) : Except State (Nat × Nat × Agent) :=
  let ctx := ((s.unit c x.unit).map (·.info.ctx)).getD 0
  let g : Agent := ⟨ctx, x.launch⟩
  let who : Issuer := .remote c x.slot ctx x.launch
  match s.locateFrom ctx c .unified x.addr.toNat with
  | none => .error s
  | some (home, off) =>
    match s.pages home ctx ((x.rows off).flatMap fun r => pagesOf r.1 128) (some who) with
    | .ready => match s.pages c ctx [x.near] (some who) with
      | .ready => .ok (home, off, g)
      | .waiting s => .error s
      | .refused a cause s => .error (s.refuseTile c g x cause a)
    | .waiting s => .error s
    | .refused a cause s => .error (s.refuseTile c g x cause (if home = c then a else x.addr.toNat + (a - off)))

/-- A tile command has completed: its slots are ready, then its counter is bumped. -/
def State.endTileCmd (s : State) (g : Agent) (c n : Nat) (x : TileCmd) : State :=
  let s := s.modTile c fun t =>
    let t := { t with cmds := dropAt n t.cmds }
    (List.range x.count).foldl (fun t j => if x.fill then t.endWrite (x.slot + j)
      else t.modSlot (x.slot + j) fun y => { y with state := .ready, readers := y.readers - 1 }) t
  s.bump g c c x.near 1

/-- TFILL_COMPLETE: the rows of the n-th command are read and written, its slots become ready (R272). -/
def execTfillComplete (c n : Nat) (s : State) : Host.Outcome State Fault Refusal :=
  match (s.core c).tile.cmds[n]? with
  | none => .next s
  | some x =>
    if !x.fill || !x.commanded then .next s else
    match s.tileReady c x with
    | .error s => .next s
    | .ok (home, off, g) =>
      let s := (x.rows off).foldl (fun s r =>
        let (bs, s) := s.engineLoad g c home r.1 128
        s.modTile c fun t => { t with opmem := Memory.writeBytes t.opmem r.2 bs }) s
      .next (s.endTileCmd g c n x)

/-- TDRAIN_COMPLETE: the rows of the n-th command are written, its slots return to ready (R272). -/
def execTdrainComplete (c n : Nat) (s : State) : Host.Outcome State Fault Refusal :=
  match (s.core c).tile.cmds[n]? with
  | none => .next s
  | some x =>
    if x.fill || !x.commanded then .next s else
    match s.tileReady c x with
    | .error s => .next s
    | .ok (home, off, g) =>
      let s := (x.rows off).foldl (fun s r =>
        s.engineStore g c home r.1 (Memory.readBytes (s.core c).tile.opmem r.2 128) 4) s
      .next (s.endTileCmd g c n x)

/-! ### CVTOM (R273) -/

/-- What CVTOM carries from element to element: operand memory, the generator, and the events so far. -/
structure Convert where
  tile : TilePart
  gen : Word
  ev : Ev

/-- The first EMPTY entry of a reservation's list. -/
def TilePart.emptyEntry (t : TilePart) (v : Reservation) : Option Nat :=
  (List.range v.ocap).find? fun n => (natOfBytes (t.bytes v.first (v.ooff + 8 * n) 4)).testBit 31

/-- Element col of row `row` of slot j of a run becomes Bend8 (R273). FTZ flushes the register's value, before it is scaled, and never
the scaled value (R64; DESIGN CHOICE, log entry 92). An outlier steps the generator as any other element that Bend8 cannot represent
(R68; DEDUCED, log entry 17). -/
def bendElement (i : Issue) (m : Dword) (v : Reservation) (j row col : Nat) (x : Nat) (z : Convert) : Convert :=
  let put (z : Convert) (byte : Nat) : Convert :=
    { z with tile := z.tile.putBytes v.first (8192 * j + 128 * row + col) [BitVec.ofNat 8 byte] }
  let scale := if v.scales then natOfBytes (z.tile.bytes v.first (v.scaleAt j row (col / v.block)) 1) else 127
  let sat := i.convSat m convBend
  if scale = 255 then put { z with ev := z.ev.add { nr := 1 } } 128
  else
    let y : FVal := match f32.decode (ftz m) x with
      | .fin r => .fin (r * pow2 (127 - scale))
      | w => w
    let outlying : Bool := match y with
      | .fin r => decide (32 < (if r < 0 then -r else r))
      | _ => false
    if outlying && sat == 2 then
      let z := { z with ev := z.ev.add { outlier := 1 }, gen := spendGen (i.convRound m convBend) z.gen }
      match z.tile.emptyEntry v with
      | some n =>
        let index := col + 128 * row + 2 ^ 13 * j
        let z := put z 0
        { z with tile := z.tile.putBytes v.first (v.ooff + 8 * n) (bytesOfNat index 4 ++ bytesOfNat x 4) }
      | none => put z (2 + (if y.negative then 128 else 0))
    else
      let (r, _) := bendOf m (i.convRound m convBend) sat z.gen y
      put { z with ev := z.ev.add r.ev, gen := r.gen } r.bits

/-- Element col of a row, under the slot's format (R273). -/
def convertElement (i : Issue) (m : Dword) (v : Reservation) (j row col : Nat) (x : Nat) (z : Convert) : Convert :=
  let size := fmtSize v.fmt
  let put (z : Convert) (bits : Nat) : Convert :=
    { z with tile := z.tile.putBytes v.first (8192 * j + 128 * row + size * col) (bytesOfNat bits size) }
  let half (f : Fmt) (c : ConvField) : Convert :=
    let r := convertBits f32 f (ftz m) (i.convRound m c) (i.convSat m c) z.gen x
    put { z with ev := z.ev.add r.ev, gen := r.gen } r.bits
  match v.fmt with
  | 0 => bendElement i m v j row col x z
  | 1 => half f16 convHalf
  | 2 => half b16 convBf
  | _ => put z x

/-- The saturation override is one that the slot's format lists (R273). -/
def Issue.satListed (i : Issue) (fmt : Nat) : Bool :=
  match i.front.hints.mod with
  | some h => !modSatOn h || decide (modSat h < (if fmt = 1 ∨ fmt = 2 then 2 else 3))
  | none => true

/-- A run of n lane registers lies below the declared count and names no special register (R283). -/
def Issue.laneRun (i : Issue) (a : RegField) (n : Nat) : Bool := decide (a.toNat < 56) && decide (a.toNat + n ≤ i.regs)

/-- The lanes of a CVTOM, in order: operand memory after them, and each lane's events and generator. -/
def State.convertLanes (s : State) (i : Issue) (r : Resident) (v : Reservation) (j c a : Nat) :
    List Nat → TilePart → TilePart × List (Nat × Ev × Word)
  | [], t => (t, [])
  | l :: more, t =>
    let m := s.modeOf i
    let z := (List.range 8).foldl (fun z e =>
      convertElement i m v j l (8 * c + e) (s.lane i.core r l (a + e)).toNat z) ⟨t, s.gen i l, {}⟩
    let (t, evs) := s.convertLanes i r v j c a more z.tile
    (t, (l, z.ev, z.gen) :: evs)

/-- A slot that holds entries of the outlier list which a conversion has filled has readers: its write may not begin yet (R271). -/
def Reservation.listWritten (v : Reservation) (before after : TilePart) : Bool :=
  (List.range v.ocap).any fun n =>
    let o := v.ooff + 8 * n
    before.bytes v.first o 8 != after.bytes v.first o 8 && (before.slot (v.first + o / 8192)).readers != 0

def execCvtom (a k : RegField) (c : BitVec 4) (g : GuardField) (s : State) : Host.Outcome State Fault Refusal :=
  runUnit { l := false, h := false, round := 6, sat := 4, info := 21 } g (fun i s =>
    if !i.laneRun a 8 then i.illegal 0 s
    else if !i.satListed 0 then i.illegal 21 s
    else if i.hank then i.slotState 0 0 s
    else match s.unit i.core i.unit with
      | none => .wait s
      | some r =>
        match r.reservation k.toNat with
        | none => i.slotState 1 k.toNat s
        | some v =>
          if !i.satListed v.fmt then i.illegal 21 s
          else if fmtRow v.fmt ≤ 8 * c.toNat then i.slotState 4 k.toNat s
          else if s.tokenPending i ((List.range 8).map (a.toNat + ·)) || !s.slotsWritable i.core [k.toNat] then .wait s
          else
            let (t, outs) := s.convertLanes i r v (k.toNat - v.first) c.toNat a.toNat (lanesOf i.active) (s.core i.core).tile
            if v.listWritten (s.core i.core).tile t then .wait s
            else s.withEvents s i (outs.map fun x => (x.1, x.2.1)) fun s =>
              let s := outs.foldl (fun s x => s.setGen i x.1 x.2.2) s
              .done (s.modTile i.core fun _ => (t.beginWrite k.toNat).endWrite k.toNat)) s

/-! ### Accumulators (R274, R275) -/

/-- The key of an element of a physical accumulator. -/
def accKey (acc row col : Nat) : Nat := (acc * 64 + row) * 64 + col

/-- The checks of an accumulator instruction: declared, and targeted by no step (R274, R287). -/
def State.accChecks (s : State) (i : Issue) (c : BitVec 2) (ok : Resident → Nat → Eff) : Eff :=
  s.tileChecks i [] fun r =>
    match r.accs[c.toNat]? with
    | none => i.slotState 5 0 s
    | some acc =>
      match (s.core i.core).tile.steps.find? fun x => x.acc == acc with
      | some x => i.trapAt Cause.accInflight 0 (c.toNat + 2 ^ 32 * x.batch.toNat) s
      | none => ok r acc

def execAccz (c : BitVec 2) (g : GuardField) (s : State) : Host.Outcome State Fault Refusal :=
  runUnit tileAttr g (fun i s => s.accChecks i c fun _ acc =>
    .done (s.modTile i.core fun t => { t with acc := t.acc.filter fun x => x.1 / 4096 ≠ acc })) s

def execAccrd (a : RegField) (h : BitVec 3) (c : BitVec 2) (g : GuardField) (s : State) : Host.Outcome State Fault Refusal :=
  runUnit { tileAttr with l := false } g (fun i s =>
    if !i.laneRun a 8 then i.illegal 0 s
    else s.accChecks i c fun _ acc =>
      let t := (s.core i.core).tile
      .done ((List.range 8).foldl (fun s e =>
        s.writeLanes i .word (a + BitVec.ofNat 6 e) i.active fun l => (SMap.word t.acc (accKey acc l (8 * h.toNat + e))).setWidth 64) s)) s

def execAccwr (a : RegField) (h : BitVec 3) (c : BitVec 2) (g : GuardField) (s : State) : Host.Outcome State Fault Refusal :=
  runUnit { tileAttr with l := false } g (fun i s =>
    if !i.laneRun a 8 then i.illegal 0 s
    else s.accChecks i c fun r acc =>
      if s.tokenPending i ((List.range 8).map (a.toNat + ·)) then .wait s
      else .done (s.modTile i.core fun t => { t with
        acc := (lanesOf i.active).foldl (fun m l => (List.range 8).foldl (fun m e =>
          SMap.setWord m (accKey acc l (8 * h.toNat + e)) (s.lane i.core r l (a.toNat + e))) m) t.acc })) s

/-! ### The matrix step (R276 to R279) -/

/-- The fields of a step descriptor. -/
structure StepDesc where
  aslot : Nat
  bslot : Nat
  aoff : Nat
  boff : Nat
  k : Nat
deriving DecidableEq, Repr, Inhabited

def stepDesc (d : Dword) : StepDesc :=
  let v := d.toNat
  ⟨v % 64, v / 64 % 64, v / 4096 % 128, v / 2 ^ 19 % 128, 8 * (v / 2 ^ 26 % 16 + 1)⟩

/-- The limits of R276, or of R278 for a structured step. -/
def StepDesc.fits (d : StepDesc) (fmt : Nat) (q : Option Nat) : Bool :=
  let row := fmtRow fmt
  d.aoff % 8 == 0 && d.boff % 8 == 0 && (match q with
    | none => decide (d.k ≤ row) && decide (d.aoff + d.k ≤ row) && decide (d.boff + d.k ≤ row)
    | some q => d.k == 32 && decide (q ≤ row / 32 - 1) && decide (d.aoff + 16 * q + 16 ≤ row) && decide (d.boff + 32 * q + 32 ≤ row))

/-- The distinct slots that a step names. -/
def StepDesc.slots (d : StepDesc) : List Nat := if d.aslot = d.bslot then [d.aslot] else [d.aslot, d.bslot]

/-- The engine can accept one more step (R279). -/
def State.stepRoom (s : State) (c : Nat) : Bool := decide ((s.core c).tile.steps.length < 32) && s.ownRoom c

/-- A step is accepted: it joins the open batch and reads its slots (R270, R279, R280). -/
def State.acceptStep (s : State) (i : Issue) (r : Resident) (d : StepDesc) (acc : Nat) (transposed : Bool) (mask : LaneMask)
    (structured : Option (Nat × List Word)) (prog : Option (Nat × List MicroOp)) : State :=
  let step : MatrixStep := { unit := i.unit, batch := r.batch, acc := acc, transposed := transposed, mask := mask, aslot := d.aslot,
                             bslot := d.bslot, aoff := d.aoff, boff := d.boff, k := d.k, structured := structured, prog := prog,
                             commanded := false, started := false }
  let s := s.modTile i.core fun t =>
    let t := d.slots.foldl (fun t k => t.modSlot k fun x => { x with readers := x.readers + 1 }) t
    { t with steps := t.steps ++ [step] }
  s.command i.core (.step i.unit)

/-- Bits 63:30 of a step descriptor are not zero (R276, R283). -/
def Issue.stepBad (i : Issue) (a : Dword) (s : State) : Option Eff := if a.toNat / 2 ^ 30 ≠ 0 then some (i.illegal 21 s) else none

/-- The checks of a step (R276, R287); `ok` gets the group, the fields and the accumulator. -/
def State.stepNamed (s : State) (i : Issue) (a : Dword) (c : BitVec 2) (q : Option Nat) (ok : Resident → StepDesc → Nat → Eff) : Eff :=
  let d := stepDesc a
  s.tileChecks i d.slots fun r =>
    let t := (s.core i.core).tile
    match d.slots.find? fun k => (t.slot k).state == .empty with
    | some k => i.slotState 2 k s
    | none =>
      let fa := ((r.reservation d.aslot).map (·.fmt)).getD 0
      let fb := ((r.reservation d.bslot).map (·.fmt)).getD 0
      if fa ≠ fb then i.slotState 3 d.aslot s
      else if !d.fits fa q then i.slotState 4 d.aslot s
      else match r.accs[c.toNat]? with
        | none => i.slotState 5 0 s
        | some acc => ok r d acc

/-- Every slot of a step is ready (R270). -/
def State.stepReady (s : State) (c : Nat) (d : StepDesc) : Bool := d.slots.all fun k => ((s.core c).tile.slot k).state == .ready

/-- The checks of a step, then its acceptance once its slots are ready. -/
def State.stepChecks (s : State) (i : Issue) (a : Dword) (c : BitVec 2) (q : Option Nat) (ok : Resident → StepDesc → Nat → Eff) : Eff :=
  s.stepNamed i a c q fun r d acc => if s.stepReady i.core d then ok r d acc else .wait s

/-- MMA and MMAT (R277). -/
def denseStep (transposed : Bool) (a b : RegField) (c : BitVec 2) (g : GuardField) (s : State) : Host.Outcome State Fault Refusal :=
  twoWideAfter stepAttr a b [] g (fun i => i.kind == .group && b != 60) (fun i x _ s => i.stepBad x s) (fun i x y s u =>
    s.stepChecks i x c none fun r d acc =>
      if !s.stepRoom i.core then .wait s
      else .done (u.acceptStep i r d acc transposed (if i.kind == .group then i.active else y) none none)) s

def execMma (a b : RegField) (c : BitVec 2) (g : GuardField) (s : State) : Host.Outcome State Fault Refusal := denseStep false a b c g s
def execMmat (a b : RegField) (c : BitVec 2) (g : GuardField) (s : State) : Host.Outcome State Fault Refusal := denseStep true a b c g s

/-- MMSS (R278): the metadata words of the active lanes. -/
def execMmss (a b : RegField) (q : BitVec 2) (c : BitVec 2) (g : GuardField) (s : State) : Host.Outcome State Fault Refusal :=
  twoWideAfter { stepAttr with l := false } a 60 [] g (fun i => !i.laneRun b 1) (fun i x _ s => i.stepBad x s) (fun i x _ s u =>
    s.stepChecks i x c (some q.toNat) fun r d acc =>
      if s.tokenPending i [b.toNat] || !s.stepRoom i.core then .wait s
      else .done (u.acceptStep i r d acc false i.active
        (some (q.toNat, (List.range 64).map fun l => if i.active.getLsbD l then s.lane i.core r l b.toNat else 0)) none)) s

/-! ### Batches (R280, R281) -/

/-- The batches of a unit's uncompleted steps. -/
def State.stepBatches (s : State) (c u : Nat) : List Word := ((s.core c).tile.steps.filter (·.unit == u)).map (·.batch)

def execCommit (a : RegField) (g : GuardField) (s : State) : Host.Outcome State Fault Refusal :=
  twoWide tileAttr 60 60 [a] g (fun _ => false) (fun i _ _ s u =>
    s.tileChecks i [] fun r =>
      let waiting := match s.stepBatches i.core i.unit with
        | b :: _ => decide (4 < (r.batch + 1 - b).toNat)
        | [] => false
      if waiting then .wait s
      else
        let u := u.modUnit i.core i.unit fun r => { r with batch := r.batch + 1 }
        s.result u i .pair a fun _ => r.batch.setWidth 64) s

def execWaitb (a : RegField) (g : GuardField) (s : State) : Host.Outcome State Fault Refusal :=
  twoWide tileAttr a 60 [] g (fun _ => false) (fun i x _ s u =>
    s.tileChecks i [] fun r =>
      let n : Word := x.setWidth 32
      if 0 < (n - (r.batch - 1)).toInt then i.slotState 8 0 s
      else if (s.stepBatches i.core i.unit).any fun b => decide (0 ≤ (n - b).toInt) then .wait s
      else .done u) s

/-! ### SPLICE (R282) -/

/-- The partner core of an exchange: relative coordinates turned (R282). -/
def Context.partner (x : Context) (c m : Nat) : Option Nat :=
  let rx := coreX c - x.x
  let ry := coreY c - x.y
  let (px, py) := if m = 0 then (ry, rx) else if m = 1 then (x.record.rw - 1 - rx, ry) else (rx, x.record.rh - 1 - ry)
  x.coreAt (BitVec.ofNat 16 (px + 256 * py))

def execSplice (k : RegField) (m : BitVec 2) (g : GuardField) (s : State) : Host.Outcome State Fault Refusal :=
  runUnit { tileAttr with ximm := true, spin := true } g (fun i s =>
    if m = 3 || decide (256 ≤ i.k) then i.illegal 21 s
    else s.tileChecks i [k.toNat] fun _ =>
      match s.context i.ctx with
      | none => .wait s
      | some x =>
        let t := (s.core i.core).tile
        if (m = 0 && x.record.rw != x.record.rh)
            || (t.splices.any fun y => y.launch == i.launch && y.m == m.toNat && y.tag == i.k) then i.slotState 9 k.toNat s
        else if !s.slotsWritable i.core [k.toNat] || decide (4 ≤ t.splices.length) then .wait s
        else if x.partner i.core m.toNat = some i.core then .done (s.modTile i.core fun t => (t.beginWrite k.toNat).endWrite k.toNat)
        else .done (s.modTile i.core fun t =>
          let t := t.beginWrite k.toNat
          { t with splices := t.splices ++ [⟨i.unit, k.toNat, m.toNat, i.k, i.launch, false⟩] })) s

/-- The armed SPLICE of the partner core (R282). -/
def State.splicePartner (s : State) (c : Nat) (y : Splice) : Option (Nat × Nat × Splice) :=
  (s.holder c).bind fun (_, x) => (x.partner c y.m).bind fun d =>
    ((s.core d).tile.splices.findIdx? fun z => !z.paired && z.launch == y.launch && z.m == y.m && z.tag == y.tag).bind fun n =>
      ((s.core d).tile.splices[n]?).map fun z => (d, n, z)

/-- SPLICE_PAIRING: the n-th armed SPLICE of a core pairs, and both cores send the bytes of their slots (R282). -/
def execSplicePairing (c n : Nat) (s : State) : Host.Outcome State Fault Refusal :=
  match (s.core c).tile.splices[n]? with
  | none => .next s
  | some y =>
    match s.splicePartner c y with
    | none => .next s
    | some (d, k, z) =>
      if y.paired || !s.room c d .req || !s.room d c .req then .next s
      else
        let pair (s : State) (c n : Nat) : State :=
          s.modTile c fun t => { t with splices := setAt n (fun y => { y with paired := true }) t.splices }
        let s := pair (pair s c n) d k
        let s := s.send c d .req (.splice z.slot ((s.core c).tile.bytes y.slot 0 8192))
        .next (s.send d c .req (.splice y.slot ((s.core d).tile.bytes z.slot 0 8192)))

/-- SPLICE_EXCHANGE_COMPLETE: a slot receives its partner's bytes; those of an exchange that has been given up are discarded (R282,
R288). -/
def execSpliceExchangeComplete (c n : Nat) (s : State) : Host.Outcome State Fault Refusal :=
  match s.message c .req n with
  | none => .next s
  | some m => match m.msg with
    | .splice slot bytes =>
      let s := s.take c .req n
      if !((s.core c).tile.splices.any fun y => y.paired && y.slot == slot) then .next s else
      .next (s.modTile c fun t =>
        let t := (t.putBytes slot 0 bytes).endWrite slot
        { t with splices := t.splices.filter fun y => !(y.paired && y.slot == slot) })
    | _ => .next s

/-! ### The product (R79, R268, R277, R278, R296) -/

/-- A value of an operand slot: none stands for NaN or NaR. -/
abbrev TileVal := Option FVal

def tileAdd (a b : TileVal) : TileVal := a.bind fun x => b.bind fun y => x.add 0 y
def tileMul (a b : TileVal) : TileVal := a.bind fun x => b.bind fun y => x.mul y

/-- A decoded value, or none for a NaN. -/
def tileVal (v : FVal) : TileVal := if v.isNan then none else some v

/-- The stored bits of an element. -/
def TilePart.stored (t : TilePart) (v : Reservation) (j row e : Nat) : Nat :=
  natOfBytes (t.bytes v.first (8192 * j + 128 * row + fmtSize v.fmt * e) (fmtSize v.fmt))

/-- The scale byte of an element (R266). -/
def TilePart.scale (t : TilePart) (v : Reservation) (j row e : Nat) : Nat :=
  if v.scales then natOfBytes (t.bytes v.first (v.scaleAt j row (e / v.block)) 1) else 127

/-- The live outlier entries of an element, in list order (R267). -/
def TilePart.outliers (t : TilePart) (v : Reservation) (j row e : Nat) : List Nat :=
  (List.range v.ocap).filterMap fun n =>
    let w := natOfBytes (t.bytes v.first (v.ooff + 8 * n) 4)
    if w = e + 128 * row + 2 ^ 13 * j then some (natOfBytes (t.bytes v.first (v.ooff + 8 * n + 4) 4)) else none

/-- The effective value of an element (R268). -/
def TilePart.val (t : TilePart) (v : Reservation) (j row e : Nat) : TileVal :=
  let bits := t.stored v j row e
  let base : TileVal := match v.fmt with
    | 0 =>
      let sc := t.scale v j row e
      if sc = 255 then none
      else (bendValue bits).map fun x => if x = 0 then .zero false else .fin (x * pow2 ((sc : Int) - 127))
    | 1 => tileVal (f16.decode false bits)
    | 2 => tileVal (b16.decode false bits)
    | _ => tileVal (f32.decode false bits)
  (t.outliers v j row e).foldl (fun a w => tileAdd a (tileVal (f32.decode false w))) base

/-- The element is a zero encoding in a block that is no NaR block (R292). -/
def TilePart.skipped (t : TilePart) (v : Reservation) (j row e : Nat) : Bool :=
  let bits := t.stored v j row e
  match v.fmt with
  | 0 => bits == 0 && t.scale v j row e != 255
  | 1 => bits % 2 ^ 15 == 0
  | 2 => bits % 2 ^ 15 == 0
  | _ => bits % 2 ^ 31 == 0

/-- One chunk added to an accumulator element: RN32(c + S) (R79). A sum of no terms changes no finite c. -/
def addChunk (c : Word) (terms : List TileVal) : Word :=
  let total := terms.foldl tileAdd (some (.zero true))
  match tileAdd (tileVal (f32.decode false c.toNat)) total with
  | none => BitVec.ofNat 32 f32.nanBits
  | some v => BitVec.ofNat 32 (f32.encode false 0 0 0 v).bits

/-- The operands of a step, with the reservations that held its slots. -/
structure Operand where
  tile : TilePart
  a : Reservation
  b : Reservation
  step : MatrixStep

def Operand.aval (o : Operand) (row e : Nat) : TileVal := o.tile.val o.a (o.step.aslot - o.a.first) row e
def Operand.bval (o : Operand) (row e : Nat) : TileVal := o.tile.val o.b (o.step.bslot - o.b.first) row e

/-- The depths of chunk n of a step of depth k. -/
def chunkDepths (g k n : Nat) : List Nat := (List.range g).filterMap fun j => if n * g + j < k then some (n * g + j) else none

def chunkCount (g k : Nat) : Nat := (k + g - 1) / g

/-- The terms of chunk n of P(i, j), dense (R277). -/
def Operand.dense (o : Operand) (n i j : Nat) : List TileVal :=
  (chunkDepths (fmtChunk o.a.fmt) o.step.k n).map fun d => tileMul (o.aval i (o.step.aoff + d)) (o.bval j (o.step.boff + d))

/-- The terms of chunk n of P(i, j) of a structured step (R278). -/
def Operand.sparse24 (o : Operand) (q : Nat) (words : List Word) (n i j : Nat) : List TileVal :=
  let w := ((words[i]?).getD 0).toNat
  let place (t : Nat) : Nat := 4 * (t / 2) + w / 4 ^ t % 4
  (chunkDepths (fmtChunk o.a.fmt) 32 n).map fun d =>
    let alog := ((List.range 16).filter fun t => place t == d).foldl (fun v t => tileAdd v (o.aval i (o.step.aoff + 16 * q + t))) (some (.zero true))
    let alog := if ((List.range 16).any fun t => place t == d) then alog else some (.zero false)
    tileMul alog (o.bval j (o.step.boff + 32 * q + d))

/-- A depth of A lies in chunk n of the step: its place in the step (R296). -/
def Operand.inChunk (o : Operand) (n col : Nat) : Bool :=
  decide (o.step.aoff ≤ col) && decide (col < o.step.aoff + o.step.k) && (col - o.step.aoff) / fmtChunk o.a.fmt == n

/-- The depths at which a row of A has an outlier term in chunk n (R296). -/
def Operand.outlierDepths (o : Operand) (n i : Nat) : List Nat :=
  (chunkDepths (fmtChunk o.a.fmt) o.step.k n).filter fun d =>
    let j := o.step.aslot - o.a.first
    o.tile.skipped o.a j i (o.step.aoff + d) && !(o.tile.outliers o.a j i (o.step.aoff + d)).isEmpty

/-- The terms of chunk n of P(i, j) that a program gives; none for a chunk that is not added (R296). -/
def Operand.program (o : Operand) (ops : List MicroOp) (n i j : Nat) : Option (List TileVal) :=
  let cols := (ops.flatMap (·.columns)).filter fun x => o.inChunk n x.1
  let mine := (cols.filter fun x => x.2.getLsbD i).map fun x => x.1 - o.step.aoff
  let terms := (mine ++ o.outlierDepths n i).map fun d => tileMul (o.aval i (o.step.aoff + d)) (o.bval j (o.step.boff + d))
  if cols.isEmpty && (List.range 64).all fun r => (o.outlierDepths n r).isEmpty then none else some terms

/-- The chunks of P(i, j), in increasing depth order; none for a chunk that is not added. -/
def Operand.chunks (o : Operand) (i j : Nat) : List (Option (List TileVal)) :=
  match o.step.structured with
  | some (q, words) => (List.range (chunkCount (fmtChunk o.a.fmt) 32)).map fun n => some (o.sparse24 q words n i j)
  | none => (List.range (chunkCount (fmtChunk o.a.fmt) o.step.k)).map fun n =>
    match o.step.prog with
    | some (_, ops) => o.program ops n i j
    | none => some (o.dense n i j)

/-- The accumulator element after the step: P(i, j) added at (row, col). -/
def Operand.element (o : Operand) (acc : SMap Word) (row col : Nat) : Word :=
  let (i, j) := if o.step.transposed then (col, row) else (row, col)
  (o.chunks i j).foldl (fun c t => match t with
    | some terms => addChunk c terms
    | none => c) (SMap.word acc (accKey o.step.acc row col))

/-- The accumulators after a step (R277). -/
def Operand.apply (o : Operand) : SMap Word :=
  (lanesOf o.step.mask).foldl (fun m row => (List.range 64).foldl (fun m col =>
    SMap.setWord m (accKey o.step.acc row col) (o.element o.tile.acc row col)) m) o.tile.acc

/-- MATRIX_STEP_START: the engine begins the next accepted step (R279). -/
def execMatrixStepStart (c : Nat) (s : State) : Host.Outcome State Fault Refusal :=
  match (s.core c).tile.steps with
  | x :: _ => if x.commanded && !x.started then
      .next (s.modTile c fun t => { t with steps := setAt 0 (fun x => { x with started := true }) t.steps }) else .next s
  | [] => .next s

/-- MATRIX_STEP_COMPLETE: the step writes its rows and releases its readers (R279). -/
def execMatrixStepComplete (c : Nat) (s : State) : Host.Outcome State Fault Refusal :=
  match (s.core c).tile.steps with
  | [] => .next s
  | x :: more =>
    if !x.started then .next s else
    let t := (s.core c).tile
    let acc := match (s.unit c x.unit).bind fun r => (r.reservation x.aslot).bind fun a => (r.reservation x.bslot).map fun b => (a, b) with
      | some (a, b) => (Operand.mk t a b x).apply
      | none => t.acc
    let d : StepDesc := ⟨x.aslot, x.bslot, x.aoff, x.boff, x.k⟩
    .next (s.modTile c fun t =>
      let t := d.slots.foldl (fun t k => t.modSlot k fun y => { y with readers := y.readers - 1 }) t
      { t with steps := more, acc := acc })

end Sys2Proof.Machine
end

