-- ==== Sys2Proof/Machine/Fid.lean ====
section
/-! DEFINITION. The fid: MMAS, PSTAT and PINV, and the compilation of patterns (R290 to R301). -/

namespace Sys2Proof.Machine

/-! ### Requests (R291, R295) -/

/-- Asks for the compilation of a slot's current identity; another context's record gives way. -/
def TilePart.request (t : TilePart) (ctx k : Nat) : TilePart :=
  let t := t.dropRequest k
  { t with
    fid := SMap.put t.fid k { FidRecord.reset with state := .compiling, ctx := ctx, gen := (t.slot k).gen }
    requests := t.requests ++ [(k, false)] }

/-- The state of a slot's current identity, as a context sees it (R290). -/
def TilePart.identity (t : TilePart) (ctx k : Nat) : FidRecord :=
  let r := t.record ctx k
  if r.gen = (t.slot k).gen || r.state == .stale then r else FidRecord.reset

/-- MMAS (R296): `f` is 0 for WAIT, 1 for GO. Its request for a compilation is a command message, sent once the A slot is ready
(R12, R444). -/
def execMmas (a b : RegField) (t f : BitVec 1) (c : BitVec 2) (g : GuardField) (s : State) : Host.Outcome State Fault Refusal :=
  twoWideAfter stepAttr a b [] g (fun i => i.kind == .group && b != 60) (fun i x _ s => i.stepBad x s) (fun i x y s u =>
    s.stepNamed i x c none fun r d acc =>
      let tile := (s.core i.core).tile
      let id := tile.identity i.ctx d.aslot
      let wants := id.state == .absent || id.state == .stale
      let asks := wants && decide (tile.requests.length < 8)
      let ask (s : State) : State :=
        if asks then (s.modTile i.core (·.request i.ctx d.aslot)).command i.core (.compile d.aslot) else s
      if (tile.slot d.aslot).state != .ready || (asks && !s.ownRoom i.core) then .wait s
      else if (f = 0 && (wants || id.state == .compiling)) || !s.stepReady i.core d || !(ask s).stepRoom i.core then .wait (ask s)
      else
        let prog := if id.state == .valid then some (id.made, id.prog) else none
        let u := (ask u).modCore i.core fun k => { k with
          order := k.order + 1
          tile := { k.tile with fid := SMap.alter k.tile.fid d.aslot fun r => if prog.isSome then { r with used := k.order + 1 } else r } }
        .done (u.acceptStep i r d acc (t == 1) (if i.kind == .group then i.active else y) none prog)) s

def fidCode : FidState → Nat
  | .absent => 0 | .compiling => 1 | .valid => 2 | .stale => 3 | .refused => 4

/-- The status word of a record (R300). -/
def FidRecord.status (r : FidRecord) (held : Bool) : Nat :=
  if !held then 0
  else fidCode r.state + 8 + (if r.state == .absent || r.state == .compiling then 0
    else 16 * r.nops + 2 ^ 16 * r.columns + 2 ^ 32 * r.gen.toNat)

def execPstat (a k : RegField) (g : GuardField) (s : State) : Host.Outcome State Fault Refusal :=
  twoWide tileAttr 60 60 [a] g (fun _ => false) (fun i _ _ s u =>
    s.tileChecks i [] fun r =>
      s.result u i .pair a fun _ =>
        BitVec.ofNat 64 (((s.core i.core).tile.record i.ctx k.toNat).status (r.reservation k.toNat).isSome)) s

def execPinv (k : RegField) (g : GuardField) (s : State) : Host.Outcome State Fault Refusal :=
  runUnit tileAttr g (fun i s => s.tileChecks i [k.toNat] fun _ =>
    let t := (s.core i.core).tile
    .done (if (t.record i.ctx k.toNat).state == .absent then s else s.modTile i.core (·.dropRecord k.toNat))) s

/-! ### Compilation (R292 to R295) -/

/-- The row set of a depth column (R292). -/
def TilePart.rowSet (t : TilePart) (v : Reservation) (j d : Nat) : LaneMask := maskOf fun row => !t.skipped v j row d

/-- Puts a column into the first op of its chunk with room and disjoint rows, or into a new one (R293). -/
def packColumn (chunk d : Nat) (rows : LaneMask) : List MicroOp → List MicroOp
  | [] => [⟨[(d, rows)], chunk⟩]
  | o :: more =>
    if o.chunk = chunk && decide (o.columns.length < 4) && o.columns.all fun x => x.2 &&& rows == 0 then
      { o with columns := o.columns ++ [(d, rows)] } :: more
    else o :: packColumn chunk d rows more

/-- The micro-ops of a slot, and its count of non-zero columns (R293). -/
def TilePart.pack (t : TilePart) (v : Reservation) (j : Nat) : List MicroOp × Nat :=
  (List.range (fmtRow v.fmt)).foldl (fun (ops, n) d =>
    let rows := t.rowSet v j d
    if rows = 0 then (ops, n) else (packColumn (d / fmtChunk v.fmt) d rows ops, n + 1)) ([], 0)

/-- A program is that of a valid record. -/
def TilePart.holdsProgram (t : TilePart) (made : Nat) : Bool := t.fid.any fun x => x.2.state == .valid && x.2.made == made

/-- Units of the store that accepted steps keep for programs whose record is no longer valid (R295, R301). -/
def TilePart.kept (t : TilePart) : Nat :=
  (t.steps.filterMap (·.prog)).foldl (fun (acc : List Nat × Nat) x =>
    if t.holdsProgram x.1 || acc.1.contains x.1 then acc else (x.1 :: acc.1, acc.2 + x.2.length + 1)) ([], 0) |>.2

/-- Units of the store that valid programs take. -/
def TilePart.stored' (t : TilePart) : Nat :=
  ((t.fid.filter fun x => x.2.state == .valid).map fun x => x.2.prog.length + 1).sum

/-- The least recently used valid program that no accepted step uses. -/
def TilePart.evictable (t : TilePart) : Option Nat :=
  (t.fid.foldl (fun (best : Option (Nat × Nat)) x =>
    let inUse := t.steps.any fun y => y.prog.any (·.1 == x.2.made)
    if x.2.state != .valid || inUse then best
    else match best with
      | none => some (x.1, x.2.used)
      | some (k, u) => if x.2.used < u then some (x.1, x.2.used) else some (k, u)) none).map (·.1)

/-- Makes room for n units by eviction; none when it cannot (R295). -/
def TilePart.makeRoom (t : TilePart) (n : Nat) : Nat → Option TilePart
  | 0 => none
  | fuel + 1 =>
    if t.stored' + t.kept + n ≤ 1638 then some t
    else match t.evictable with
      | some k => (t.dropRecord k).makeRoom n fuel
      | none => none

/-- FID_COMPILE_START: the fid starts the next queued identity, whose command message has been taken (R12, R295). -/
def execFidCompileStart (c : Nat) (s : State) : Host.Outcome State Fault Refusal :=
  let t := (s.core c).tile
  if t.compiling || !((t.requests.head?.map (·.2)).getD false) then .next s
  else .next (s.modTile c fun t => { t with compiling := true })

/-- The reservation that holds a slot on a core. -/
def CoreState.reservation (k : CoreState) (slot : Nat) : Option Reservation := k.units.findSome? fun x => x.2.reservation slot

/-- FID_COMPILE_COMPLETE: packing ends; the record becomes valid once the store has room, or refused (R291, R293, R295). -/
def execFidCompileComplete (c : Nat) (s : State) : Host.Outcome State Fault Refusal :=
  let t := (s.core c).tile
  match t.requests with
  | [] => .next s
  | (k, _) :: more =>
    match SMap.find t.fid k, (s.core c).reservation k with
    | some r, some v =>
      if !t.compiling || r.state != .compiling then .next s else
      let (ops, columns) := t.pack v (k - v.first)
      let done (t : TilePart) (r : FidRecord) : State :=
        s.modTile c fun _ => { t with fid := SMap.put t.fid k r, requests := more, compiling := false }
      if 3 * fmtRow v.fmt < 4 * ops.length then .next (done t { r with state := .refused, nops := ops.length, columns := columns })
      else match t.makeRoom (ops.length + 1) 65 with
        | none => .next s
        | some t =>
          let n := (s.core c).order + 1
          .next ((done t { r with state := .valid, nops := ops.length, columns := columns, prog := ops, made := n, used := n }).modCore c
            fun k => { k with order := n })
    | _, _ => .next s

end Sys2Proof.Machine
end

