-- ==== Sys2Proof/Machine/Float.lean ====
section
/-! DEFINITION. The floating-point families FA, FS, DA, HA, CV, CW and the compares FCMP and DCMP (R81 to R94, R113). -/

namespace Sys2Proof.Machine

/-- An arithmetic instruction of two operands in a format of one register. -/
def fpBinary (f : Fmt) (c : Cls) (d a b : RegField) (g : GuardField) (op : Fmt → Bool → Nat → Nat → Nat → FRes) (s : State) :
    Host.Outcome State Fault Refusal :=
  fpUnit { round := 4 } g (c, d) (fun _ => [(c, a), (c, b)]) (fun x v =>
    (op f (ftz x.mode) (x.i.arith x.mode) (v 0).toNat (v 1).toNat).out x) s

/-- A fused operation (R82). -/
def fpFused (f : Fmt) (c : Cls) (sub : Bool) (d a b : RegField) (g : GuardField) (s : State) :
    Host.Outcome State Fault Refusal :=
  fpUnit { round := 4, c := true } g (c, d) (fun i => [(c, a), (c, b), (c, i.cField d)]) (fun x v =>
    (f.fmaBits (ftz x.mode) (x.i.arith x.mode) sub (v 0).toNat (v 1).toNat (v 2).toNat).out x) s

/-- FMIN, FMAX, DMIN, DMAX (R84). -/
def fpMinMax (f : Fmt) (c : Cls) (isMax : Bool) (d a b : RegField) (g : GuardField) (s : State) :
    Host.Outcome State Fault Refusal :=
  fpUnit {} g (c, d) (fun _ => [(c, a), (c, b)]) (fun x v =>
    (f.minMax (ftz x.mode) isMax (v 0).toNat (v 1).toNat).out x) s

/-- FABSN and DABSN (R85). -/
def fpSign (f : Fmt) (c : Cls) (d a op : RegField) (g : GuardField) (s : State) : Host.Outcome State Fault Refusal :=
  runUnit {} g (fun i s =>
    if 2 < op.toNat then i.illegal 0 s
    else s.lanewise i (c, d) [(c, a)] fun v => BitVec.ofNat 64 (f.signOp op.toNat (v 0).toNat)) s

/-- An FS instruction that rounds to nearest (R86). -/
def fpFunction (h : FFun) (d a : RegField) (g : GuardField) (s : State) : Host.Outcome State Fault Refusal :=
  fpUnit {} g (.word, d) (fun _ => [(.word, a)]) (fun x v => (f32.funBits h (ftz x.mode) 0 (v 0).toNat).out x) s

/-- An instruction of one operand that rounds under ARND (R86). -/
def fpRounded (f : Fmt) (c : Cls) (h : FFun) (d a : RegField) (g : GuardField) (s : State) :
    Host.Outcome State Fault Refusal :=
  fpUnit { round := 4 } g (c, d) (fun _ => [(c, a)]) (fun x v =>
    (f.funBits h (ftz x.mode) (x.i.arith x.mode) (v 0).toNat).out x) s

/-! ### FA (R82 to R85) -/

def execFadd (d a b : RegField) (g : GuardField) (s : State) : Host.Outcome State Fault Refusal :=
  fpBinary f32 .word d a b g Fmt.addBits s
def execFsub (d a b : RegField) (g : GuardField) (s : State) : Host.Outcome State Fault Refusal :=
  fpBinary f32 .word d a b g Fmt.subBits s
def execFmul (d a b : RegField) (g : GuardField) (s : State) : Host.Outcome State Fault Refusal :=
  fpBinary f32 .word d a b g Fmt.mulBits s
def execFfma (d a b : RegField) (g : GuardField) (s : State) : Host.Outcome State Fault Refusal :=
  fpFused f32 .word false d a b g s
def execFfms (d a b : RegField) (g : GuardField) (s : State) : Host.Outcome State Fault Refusal :=
  fpFused f32 .word true d a b g s
def execFmin (d a b : RegField) (g : GuardField) (s : State) : Host.Outcome State Fault Refusal :=
  fpMinMax f32 .word false d a b g s
def execFmax (d a b : RegField) (g : GuardField) (s : State) : Host.Outcome State Fault Refusal :=
  fpMinMax f32 .word true d a b g s
def execFabsn (d a o : RegField) (g : GuardField) (s : State) : Host.Outcome State Fault Refusal := fpSign f32 .word d a o g s

/-! ### FS (R86, R87) -/

def execFrcp (d a : RegField) (g : GuardField) (s : State) : Host.Outcome State Fault Refusal := fpFunction .rcp d a g s
def execFrsq (d a : RegField) (g : GuardField) (s : State) : Host.Outcome State Fault Refusal := fpFunction .rsq d a g s
def execFsqrt (d a : RegField) (g : GuardField) (s : State) : Host.Outcome State Fault Refusal :=
  fpRounded f32 .word .sqrt d a g s
def execFex2 (d a : RegField) (g : GuardField) (s : State) : Host.Outcome State Fault Refusal := fpFunction .ex2 d a g s
def execFlg2 (d a : RegField) (g : GuardField) (s : State) : Host.Outcome State Fault Refusal := fpFunction .lg2 d a g s
def execFsin (d a : RegField) (g : GuardField) (s : State) : Host.Outcome State Fault Refusal := fpFunction .sin d a g s
def execFcos (d a : RegField) (g : GuardField) (s : State) : Host.Outcome State Fault Refusal := fpFunction .cos d a g s
def execFrint (d a : RegField) (g : GuardField) (s : State) : Host.Outcome State Fault Refusal :=
  fpRounded f32 .word .rint d a g s

/-! ### DA (R88) -/

def execDadd (d a b : RegField) (g : GuardField) (s : State) : Host.Outcome State Fault Refusal :=
  fpBinary f64 .pair d a b g Fmt.addBits s
def execDsub (d a b : RegField) (g : GuardField) (s : State) : Host.Outcome State Fault Refusal :=
  fpBinary f64 .pair d a b g Fmt.subBits s
def execDmul (d a b : RegField) (g : GuardField) (s : State) : Host.Outcome State Fault Refusal :=
  fpBinary f64 .pair d a b g Fmt.mulBits s
def execDfma (d a b : RegField) (g : GuardField) (s : State) : Host.Outcome State Fault Refusal :=
  fpFused f64 .pair false d a b g s
def execDmin (d a b : RegField) (g : GuardField) (s : State) : Host.Outcome State Fault Refusal :=
  fpMinMax f64 .pair false d a b g s
def execDmax (d a b : RegField) (g : GuardField) (s : State) : Host.Outcome State Fault Refusal :=
  fpMinMax f64 .pair true d a b g s
def execDabsn (d a o : RegField) (g : GuardField) (s : State) : Host.Outcome State Fault Refusal := fpSign f64 .pair d a o g s
def execDsqrt (d a : RegField) (g : GuardField) (s : State) : Host.Outcome State Fault Refusal :=
  fpRounded f64 .pair .sqrt d a g s

/-! ### HA (R89) -/

/-- Element e of a packed register. -/
def element (v : Dword) (e : Nat) : Nat := v.toNat / 65536 ^ e % 65536

/-- Two elements, packed: element 0 first (R59). -/
def packTwo (r0 r1 : FRes) : FRes := ⟨r0.bits + 65536 * r1.bits, r0.ev.add r1.ev, r1.gen⟩

/-- A packed instruction: element 0, then element 1. -/
def packed2 (t : Attr) (d a b : RegField) (g : GuardField) (op : FpIn → Nat → Nat → FRes) (s : State) :
    Host.Outcome State Fault Refusal :=
  fpUnit t g (.word, d) (fun _ => [(.word, a), (.word, b)]) (fun x v =>
    (packTwo (op x (element (v 0) 0) (element (v 1) 0)) (op x (element (v 0) 1) (element (v 1) 1))).out x) s

def packedFused (f : Fmt) (d a b : RegField) (g : GuardField) (s : State) : Host.Outcome State Fault Refusal :=
  fpUnit { round := 4, c := true } g (.word, d) (fun i => [(.word, a), (.word, b), (.word, i.cField d)]) (fun x v =>
    let op (e : Nat) := f.fmaBits (ftz x.mode) (x.i.arith x.mode) false (element (v 0) e) (element (v 1) e) (element (v 2) e)
    (packTwo (op 0) (op 1)).out x) s

def execHadd2 (d a b : RegField) (g : GuardField) (s : State) : Host.Outcome State Fault Refusal :=
  packed2 { round := 4 } d a b g (fun x p q => f16.addBits (ftz x.mode) (x.i.arith x.mode) p q) s
def execHmul2 (d a b : RegField) (g : GuardField) (s : State) : Host.Outcome State Fault Refusal :=
  packed2 { round := 4 } d a b g (fun x p q => f16.mulBits (ftz x.mode) (x.i.arith x.mode) p q) s
def execHfma2 (d a b : RegField) (g : GuardField) (s : State) : Host.Outcome State Fault Refusal := packedFused f16 d a b g s
def execHmax2 (d a b : RegField) (g : GuardField) (s : State) : Host.Outcome State Fault Refusal :=
  packed2 {} d a b g (fun x p q => f16.minMax (ftz x.mode) true p q) s
def execBadd2 (d a b : RegField) (g : GuardField) (s : State) : Host.Outcome State Fault Refusal :=
  packed2 { round := 4 } d a b g (fun x p q => b16.addBits (ftz x.mode) (x.i.arith x.mode) p q) s
def execBmul2 (d a b : RegField) (g : GuardField) (s : State) : Host.Outcome State Fault Refusal :=
  packed2 { round := 4 } d a b g (fun x p q => b16.mulBits (ftz x.mode) (x.i.arith x.mode) p q) s
def execBfma2 (d a b : RegField) (g : GuardField) (s : State) : Host.Outcome State Fault Refusal := packedFused b16 d a b g s
def execBmax2 (d a b : RegField) (g : GuardField) (s : State) : Host.Outcome State Fault Refusal :=
  packed2 {} d a b g (fun x p q => b16.minMax (ftz x.mode) true p q) s

/-! ### CV and CW (R90 to R94) -/

/-- A conversion to an integer of the stream's width (R91). -/
def toInteger (f : Fmt) (c : Cls) (signed : Bool) (d a : RegField) (g : GuardField) (s : State) :
    Host.Outcome State Fault Refusal :=
  fpUnit { round := 6, sat := 2 } g (.nat, d) (fun _ => [(c, a)]) (fun x v =>
    (f.toInt x.i.w signed (ftz x.mode) (x.i.convRound x.mode convInt) (x.i.convSat x.mode convInt) x.gen (v 0).toNat).drawn) s

/-- A conversion from an integer of the stream's width (R92). -/
def ofInteger (f : Fmt) (c : Cls) (signed : Bool) (d a : RegField) (g : GuardField) (s : State) :
    Host.Outcome State Fault Refusal :=
  fpUnit { round := 6 } g (c, d) (fun _ => [(.nat, a)]) (fun x v =>
    let n := (v 0).toNat % 2 ^ x.i.w
    let k : Int := if signed && decide (2 ^ (x.i.w - 1) ≤ n) then (n : Int) - 2 ^ x.i.w else n
    (f.ofInt (ftz x.mode) (x.i.arith x.mode) x.gen k).drawn) s

def execF2i (d a : RegField) (g : GuardField) (s : State) : Host.Outcome State Fault Refusal := toInteger f32 .word true d a g s
def execI2f (d a : RegField) (g : GuardField) (s : State) : Host.Outcome State Fault Refusal := ofInteger f32 .word true d a g s
def execF2n (d a : RegField) (g : GuardField) (s : State) : Host.Outcome State Fault Refusal := toInteger f32 .word false d a g s
def execN2f (d a : RegField) (g : GuardField) (s : State) : Host.Outcome State Fault Refusal := ofInteger f32 .word false d a g s

def execF2d (d a : RegField) (g : GuardField) (s : State) : Host.Outcome State Fault Refusal :=
  fpUnit {} g (.pair, d) (fun _ => [(.word, a)]) (fun x v => (convertBits f32 f64 (ftz x.mode) 0 0 0 (v 0).toNat).out x) s

def execD2f (d a : RegField) (g : GuardField) (s : State) : Host.Outcome State Fault Refusal :=
  fpUnit { round := 6, sat := 2 } g (.word, d) (fun _ => [(.pair, a)]) (fun x v =>
    (convertBits f64 f32 (ftz x.mode) (x.i.convRound x.mode convSingle) (x.i.convSat x.mode convSingle) x.gen
      (v 0).toNat).drawn) s

/-- F2H2 and F2B2: A, then B (R92). -/
def toPacked (f : Fmt) (c : ConvField) (d a b : RegField) (g : GuardField) (s : State) : Host.Outcome State Fault Refusal :=
  fpUnit { round := 6, sat := 2 } g (.word, d) (fun _ => [(.word, a), (.word, b)]) (fun x v =>
    let one (gen : Word) (k : Nat) :=
      convertBits f32 f (ftz x.mode) (x.i.convRound x.mode c) (x.i.convSat x.mode c) gen (v k).toNat
    let r0 := one x.gen 0
    (packTwo r0 (one r0.gen 1)).drawn) s

def execF2h2 (d a b : RegField) (g : GuardField) (s : State) : Host.Outcome State Fault Refusal := toPacked f16 convHalf d a b g s
def execF2b2 (d a b : RegField) (g : GuardField) (s : State) : Host.Outcome State Fault Refusal := toPacked b16 convBf d a b g s

/-- Two values in the halves of a pair. -/
def pairOf (r0 r1 : FRes) : FRes := ⟨r0.bits + 2 ^ 32 * r1.bits, r0.ev.add r1.ev, r1.gen⟩

/-- H2F and B2F (R92). -/
def unpack2 (f : Fmt) (d a : RegField) (g : GuardField) (s : State) : Host.Outcome State Fault Refusal :=
  fpUnit {} g (.pair, d) (fun _ => [(.word, a)]) (fun x v =>
    let one (e : Nat) := convertBits f f32 (ftz x.mode) 0 0 0 (element (v 0) e)
    (pairOf (one 0) (one 1)).out x) s

def execH2f (d a : RegField) (g : GuardField) (s : State) : Host.Outcome State Fault Refusal := unpack2 f16 d a g s
def execB2f (d a : RegField) (g : GuardField) (s : State) : Host.Outcome State Fault Refusal := unpack2 b16 d a g s

def execD2i (d a : RegField) (g : GuardField) (s : State) : Host.Outcome State Fault Refusal := toInteger f64 .pair true d a g s
def execI2d (d a : RegField) (g : GuardField) (s : State) : Host.Outcome State Fault Refusal := ofInteger f64 .pair true d a g s

/-- F2K (R93): the four halves, in byte order. -/
def f2kLane (x : FpIn) (v : Nat → Dword) : FpOut :=
  let code := x.i.convRound x.mode convBend
  let sat := x.i.convSat x.mode convBend
  let half (k : Nat) : Nat := (v (k / 2)).toNat / 2 ^ (32 * (k % 2)) % 2 ^ 32
  let r := (List.range 4).foldl (fun (r : FRes) k =>
    let b := (bendOf x.mode code sat r.gen (f32.decode (ftz x.mode) (half k))).1
    ⟨r.bits + b.bits * 256 ^ k, r.ev.add b.ev, b.gen⟩) ⟨0, {}, x.gen⟩
  r.drawn

def execF2k (d a b : RegField) (g : GuardField) (s : State) : Host.Outcome State Fault Refusal :=
  runUnit { round := 6, sat := 3 } g (fun i s => s.fpCompute i 0 (.word, d) [(.pair, a), (.pair, b)] f2kLane) s

/-- K2F (R94). -/
def execK2f (d a h : RegField) (g : GuardField) (s : State) : Host.Outcome State Fault Refusal :=
  runUnit {} g (fun i s =>
    if 1 < h.toNat then i.illegal 0 s
    else s.lanewise i (.pair, d) [(.word, a)] fun v =>
      let byte (k : Nat) := (v 0).toNat / 256 ^ (2 * h.toNat + k) % 256
      BitVec.ofNat 64 (bendBits f32 (byte 0) + 2 ^ 32 * bendBits f32 (byte 1))) s

/-! ### Compares (R113) -/

/-- FCMP and DCMP: the predicate in each active lane, and invalid. -/
def fpCompare (f : Fmt) (c : Cls) (cond : Nat) (p a b : RegField) (g : GuardField) (s : State) :
    Host.Outcome State Fault Refusal :=
  runUnit {} g (fun i s =>
    if !i.predOk p || !i.regOk false c a || !i.regOk false c b then i.illegal 0 s
    else match s.operands i [(c, a), (c, b)] [] with
      | .stop e => e
      | .ok vals t =>
        let at' (l : Nat) := f.compare (ftz (s.modeOf i)) cond (nth vals 0 l).toNat (nth vals 1 l).toNat
        s.withEvents t i ((lanesOf i.active).map fun l => (l, Ev.invalid (at' l).2)) fun t =>
          .done (t.writePreds i p.toNat fun l => (at' l).1)) s

def execFcmpEq (p a b : RegField) (g : GuardField) (s : State) : Host.Outcome State Fault Refusal := fpCompare f32 .word 0 p a b g s
def execFcmpNe (p a b : RegField) (g : GuardField) (s : State) : Host.Outcome State Fault Refusal := fpCompare f32 .word 1 p a b g s
def execFcmpLt (p a b : RegField) (g : GuardField) (s : State) : Host.Outcome State Fault Refusal := fpCompare f32 .word 2 p a b g s
def execFcmpLe (p a b : RegField) (g : GuardField) (s : State) : Host.Outcome State Fault Refusal := fpCompare f32 .word 3 p a b g s
def execFcmpGt (p a b : RegField) (g : GuardField) (s : State) : Host.Outcome State Fault Refusal := fpCompare f32 .word 4 p a b g s
def execFcmpGe (p a b : RegField) (g : GuardField) (s : State) : Host.Outcome State Fault Refusal := fpCompare f32 .word 5 p a b g s
def execFcmpUn (p a b : RegField) (g : GuardField) (s : State) : Host.Outcome State Fault Refusal := fpCompare f32 .word 6 p a b g s
def execFcmpOrd (p a b : RegField) (g : GuardField) (s : State) : Host.Outcome State Fault Refusal := fpCompare f32 .word 7 p a b g s
def execDcmpEq (p a b : RegField) (g : GuardField) (s : State) : Host.Outcome State Fault Refusal := fpCompare f64 .pair 0 p a b g s
def execDcmpNe (p a b : RegField) (g : GuardField) (s : State) : Host.Outcome State Fault Refusal := fpCompare f64 .pair 1 p a b g s
def execDcmpLt (p a b : RegField) (g : GuardField) (s : State) : Host.Outcome State Fault Refusal := fpCompare f64 .pair 2 p a b g s
def execDcmpLe (p a b : RegField) (g : GuardField) (s : State) : Host.Outcome State Fault Refusal := fpCompare f64 .pair 3 p a b g s
def execDcmpGt (p a b : RegField) (g : GuardField) (s : State) : Host.Outcome State Fault Refusal := fpCompare f64 .pair 4 p a b g s
def execDcmpGe (p a b : RegField) (g : GuardField) (s : State) : Host.Outcome State Fault Refusal := fpCompare f64 .pair 5 p a b g s
def execDcmpUn (p a b : RegField) (g : GuardField) (s : State) : Host.Outcome State Fault Refusal := fpCompare f64 .pair 6 p a b g s
def execDcmpOrd (p a b : RegField) (g : GuardField) (s : State) : Host.Outcome State Fault Refusal := fpCompare f64 .pair 7 p a b g s

end Sys2Proof.Machine
end

