-- ==== Sys2Proof/Machine/Hint.lean ====
section
/-! DEFINITION. The hint words (R35 to R40). -/

namespace Sys2Proof.Machine

/-- R36: XIMM carries the high bits of an immediate. -/
def execXimmHint (x : BitVec 23) (s : State) : Host.Outcome State Fault Refusal :=
  runHint (fun h => h.ximm.isSome) (fun h => { h with ximm := some x }) 0 s

/-- R35: GUARD guards the unit with any of p0 to p63. -/
def execGuardHint (sense : BitVec 1) (p : BitVec 6) (s : State) : Host.Outcome State Fault Refusal :=
  runHint (fun h => h.guard.isSome) (fun h => { h with guard := some (sense, p) }) 0 s

/-- R39: SCHED delays the unit's word by `c` issue opportunities, and may give up one after it. -/
def execSchedHint (y : BitVec 1) (c : BitVec 4) (s : State) : Host.Outcome State Fault Refusal :=
  runHint (fun h => h.sched.isSome) (fun h => { h with sched := some (y, c) }) c.toNat s

/-- R38: MOD overrides rounding, saturation, C register or lease for one instruction. -/
def execModHint (l : BitVec 2) (e : BitVec 1) (c : BitVec 6) (f : BitVec 1) (sat : BitVec 2) (n : BitVec 1) (r : BitVec 3)
    (s : State) : Host.Outcome State Fault Refusal :=
  runHint (fun h => h.mod.isSome) (fun h => { h with mod := some (l ++ e ++ c ++ f ++ sat ++ n ++ r) }) 0 s

end Sys2Proof.Machine
end

