-- ==== Sys2Proof/Machine/Lanyard.lean ====
section
/-! DEFINITION. The lanyard: binding, exact integers over segments, deposits and roundings (R160 to R170). -/

namespace Sys2Proof.Machine

/-- Legal in group code only (R167). -/
def lanyardAttr : Attr := { l := false, h := false }
/-- LRND and LRNDD: rounding 000 to 100, and saturation 0b00, IEEE overflow as without an override, and 0b01 (R167, R170; an override
of 0b00 is accepted: DESIGN CHOICE, log entry 97). -/
def lanyardRound : Attr := { l := false, h := false, round := 5, sat := 2 }

/-- A scalar register of a lanyard instruction: a lane register, no queue register (R167). -/
def Issue.scalarOk (i : Issue) (write : Bool) (f : RegField) : Bool := i.regOk write .nat f && !isQueue f

/-- The lanyard of the issuing unit. -/
def State.lanyardOf (s : State) (i : Issue) : Option Lanyard := (s.unit i.core i.unit).bind (·.lanyard)

/-- A trap of LANYARD_STATE or LANYARD_DIVERGE that names no segment (R165). -/
def Issue.lanyardUnit (i : Issue) (cause reason : Nat) (s : State) : Eff := .trap ⟨cause, i.active, 0, BitVec.ofNat 64 reason⟩ s

/-- Segments with their index. -/
def Lanyard.indexed (l : Lanyard) : List (Segment × Nat) := l.segments.zipIdx

/-- The segments that have an active lane (R167). -/
def Lanyard.touched (l : Lanyard) (active : LaneMask) : List (Segment × Nat) :=
  l.indexed.filter fun x => (segLanes l.k x.2 &&& active) != 0

/-- The common checks of R167; then the effect on the segments that have an active lane. -/
def State.onSegments (s : State) (i : Issue) (k : Lanyard → List (Segment × Nat) → Eff) : Eff :=
  match s.lanyardOf i with
  | none => i.lanyardUnit Cause.lanyardState 4 s
  | some l =>
    let segs := l.touched i.active
    let named (p : Segment × Nat → Bool) : List (Nat × LaneMask) := (segs.filter p).map fun x => (x.2, segLanes l.k x.2)
    match named fun x => x.1.faulted with
    | y :: r => lanyardTrap Cause.lanyardState 5 (y :: r) s
    | [] =>
      match named fun x => (segLanes l.k x.2 &&& s.live i &&& ~~~i.active) != 0 with
      | y :: r => lanyardTrap Cause.lanyardDiverge 1 (y :: r) s
      | [] => k l segs

/-- V of a segment's pair (R161). -/
def State.segValue (s : State) (i : Issue) (l : Lanyard) (j : Nat) (p : RegField) : Int :=
  let n : Nat := ((List.range l.k).map fun x => (s.source i .pair p none (l.k * j + x)).toNat * 2 ^ (64 * x)).sum
  if n < 2 ^ (64 * l.k - 1) then n else (n : Int) - 2 ^ (64 * l.k)

/-- The integer lies outside what a segment of k limbs holds (R161). -/
def segOverflows (k : Nat) (x : Int) : Bool := decide (x < -(2 ^ (64 * k - 1))) || decide (2 ^ (64 * k - 1) ≤ x)

/-- Writes an integer to a segment's limbs in the live lanes (R161). -/
def State.writeSeg (s : State) (i : Issue) (k j : Nat) (d : RegField) (x : Int) : State :=
  let n := (x % 2 ^ (64 * k)).toNat
  (List.range k).foldl (fun s e => s.writeReg i .pair d (k * j + e) (BitVec.ofNat 64 (n / 2 ^ (64 * e)))) s

/-- Sets flags of a segment. -/
def State.flagSeg (s : State) (i : Issue) (j : Nat) (flags : BitVec 5) : State :=
  s.modUnit i.core i.unit fun r => { r with lanyard := r.lanyard.map fun l =>
    { l with segments := setAt j (fun g => { g with flags := g.flags ||| flags }) l.segments } }

/-- Writes one integer to each segment, with its flags: overflow sets OVF, counts in EVC7, and traps when TELO says so
(R161, R167). -/
def State.writeSegments (s : State) (i : Issue) (l : Lanyard) (d : RegField) (out : List (Nat × Int × BitVec 5)) : Eff :=
  let evs := out.map fun (j, x, _) => (j, ({ lo := (segOverflows l.k x).toNat } : Ev))
  let m := s.modeOf i
  let hit := evs.filter fun x => x.2.enabled m
  if !hit.isEmpty then
    .trap ⟨Cause.fpTrap, hit.foldl (fun w x => w ||| segLanes l.k x.1) 0, 0, BitVec.ofNat 64 (Ev.sum (evs.map (·.2))).info⟩ s
  else
    let s := s.count i.core (Ev.sum (evs.map (·.2)))
    .done (out.foldl (fun s (j, x, flags) =>
      (s.writeSeg i l.k j d x).flagSeg i j (flags ||| (if segOverflows l.k x then 1 else 0))) s)

/-- An exact operation on segments: sources A and B, and a scalar from the lowest active lane. -/
def segOp (d a : RegField) (b : Option RegField) (scalar : Option RegField) (g : GuardField)
    (f : Nat → Int → Int → Nat → Int) (s : State) : Host.Outcome State Fault Refusal :=
  runUnit lanyardAttr g (fun i s =>
    let pairs := [a] ++ b.toList
    if !i.regOk true .pair d || !(pairs.all fun p => i.regOk false .pair p) || !(scalar.all fun r => i.scalarOk false r) then
      i.illegal 0 s
    else if s.tokenPending i ((pairs.flatMap fun p => fieldRegs .pair p) ++ scalar.toList.map (·.toNat)) then .wait s
    else s.onSegments i fun l segs =>
        let n := match scalar with
          | some f => (s.source i .nat f none (lowestLane i.active)).toNat
          | none => 0
        s.writeSegments i l d (segs.map fun x =>
          (x.2, f l.k (s.segValue i l x.2 a) (match b with | some p => s.segValue i l x.2 p | none => 0) n, 0))) s

/-- A value broadcast in each segment. -/
def segBroadcast (t : Attr) (d : RegField) (c : Cls) (srcs : List RegField) (g : GuardField)
    (f : State → Issue → Lanyard → Segment × Nat → Dword) (s : State) : Host.Outcome State Fault Refusal :=
  runUnit t g (fun i s =>
    if !i.regOk true c d || isQueue d || !(srcs.all fun p => i.regOk false .pair p) then i.illegal 0 s
    else if s.tokenPending i (srcs.flatMap fun p => fieldRegs .pair p) then .wait s
    else s.onSegments i fun l segs =>
      .done (segs.foldl (fun t x => t.writeLanes i c d (segLanes l.k x.2 &&& firstLanes i.width) fun _ => f s i l x) s)) s

/-! ### LA -/

/-- Every live lane of the group issues, all active (R168). -/
def State.wholeGroup (s : State) (i : Issue) : Bool := i.active == s.live i

/-- A segment holds both live and ended lanes. -/
def mixedSegment (k w : Nat) (live : LaneMask) : Bool :=
  (List.range (w / k)).any fun j => (segLanes k j &&& live) != 0 && (segLanes k j &&& live) != segLanes k j

/-- A fresh binding: a segment of lanes that have all ended is never bound (R163, R168). -/
def boundLanyard (k f w : Nat) (live : LaneMask) : Lanyard :=
  ⟨k, f, (List.range (w / k)).map fun j => ⟨0, (segLanes k j &&& live) != 0, false⟩⟩

/-- LBIND (R168). In a bound group it takes reason 3 before reason 5 of a faulted segment and reason 6 of an A out of range (R165;
DESIGN CHOICE, log entry 96). -/
def execLbind (a kk : RegField) (g : GuardField) (s : State) : Host.Outcome State Fault Refusal :=
  runUnit lanyardAttr g (fun i s =>
    let n := kk.toNat
    let k := 8 * n
    if !(n == 1 || n == 2 || n == 4 || n == 8) || decide (i.width < k) || !i.scalarOk false a then i.illegal 0 s
    else if s.tokenPending i [a.toNat] then .wait s
    else
      let v := (s.source i .nat a none (lowestLane i.active)).toNat
      if (s.lanyardOf i).isSome then i.lanyardUnit Cause.lanyardState 3 s
      else if 64 * k ≤ v % 4096 || 4096 ≤ v then i.lanyardUnit Cause.lanyardState 6 s
      else if !s.wholeGroup i || mixedSegment k i.width (s.live i) then i.lanyardUnit Cause.lanyardDiverge 2 s
      else .done (s.modUnit i.core i.unit fun r => { r with lanyard := some (boundLanyard k v i.width (s.live i)) })) s

def execLfree (g : GuardField) (s : State) : Host.Outcome State Fault Refusal :=
  runUnit lanyardAttr g (fun i s =>
    if (s.lanyardOf i).isNone then i.lanyardUnit Cause.lanyardState 4 s
    else if !s.wholeGroup i then i.lanyardUnit Cause.lanyardDiverge 2 s
    else .done (s.modUnit i.core i.unit fun r => { r with lanyard := none })) s

def execLadd (d a b : RegField) (g : GuardField) (s : State) : Host.Outcome State Fault Refusal :=
  segOp d a (some b) none g (fun _ x y _ => x + y) s
def execLsub (d a b : RegField) (g : GuardField) (s : State) : Host.Outcome State Fault Refusal :=
  segOp d a (some b) none g (fun _ x y _ => x - y) s
def execLneg (d a : RegField) (g : GuardField) (s : State) : Host.Outcome State Fault Refusal :=
  segOp d a none none g (fun _ x _ _ => -x) s

/-- V x 2^s; for s of 64 k or more the limbs are 0, and a V that is not 0 overflows (R167). -/
def segShl (k : Nat) (x : Int) (n : Nat) : Int := x * 2 ^ (min n (64 * k))
def execLshl (d a b : RegField) (g : GuardField) (s : State) : Host.Outcome State Fault Refusal :=
  segOp d a none (some b) g (fun k x _ n => segShl k x n) s
def execLshr (d a b : RegField) (g : GuardField) (s : State) : Host.Outcome State Fault Refusal :=
  segOp d a none (some b) g (fun k x _ n => x / 2 ^ (min n (64 * k))) s

/-- -1, 0 or 1 (R167). -/
def orderWord (x y : Int) : Dword := if x < y then 0xFFFFFFFF else if x = y then 0 else 1
def execLcmp (d a b : RegField) (g : GuardField) (s : State) : Host.Outcome State Fault Refusal :=
  segBroadcast lanyardAttr d .nat [a, b] g
    (fun s i l x => orderWord (s.segValue i l x.2 a) (s.segValue i l x.2 b)) s

/-! ### LB -/

def execLmuls (d a b : RegField) (g : GuardField) (s : State) : Host.Outcome State Fault Refusal :=
  segOp d a none (some b) g (fun _ x _ n => x * (BitVec.ofNat 32 n).toInt) s

/-- The deposit of one lane: the addend, and the flags NAN, PINF, NINF and LOSS (R169). -/
def deposit (f : Fmt) (point : Nat) (bits : Nat) : Int × BitVec 5 :=
  match f.decode false bits with
  | .nan _ => (0, 2)
  | .inf neg => (0, if neg then 8 else 4)
  | .zero _ => (0, 0)
  | .fin x =>
    let t := x * ((2 ^ point : Nat) : Rat)
    (t.floor, if t.den = 1 then 0 else 16)

/-- LDEP and LDEPD: D is read and written; the lanes that deposit are the segment's live lanes. -/
def depositUnit (f : Fmt) (c : Cls) (d a : RegField) (g : GuardField) (s : State) : Host.Outcome State Fault Refusal :=
  runUnit lanyardAttr g (fun i s =>
    if !i.regOk true .pair d || !i.regOk false c a || isQueue a then i.illegal 0 s
    else if s.tokenPending i (fieldRegs .pair d ++ fieldRegs c a) then .wait s
    else s.onSegments i fun l segs =>
        s.writeSegments i l d (segs.map fun x =>
          let lanes := lanesOf (segLanes l.k x.2 &&& i.active)
          let adds := lanes.map fun e => deposit f l.f (s.source i c a none e).toNat
          (x.2, adds.foldl (fun v y => v + y.1) (s.segValue i l x.2 d), adds.foldl (fun v y => v ||| y.2) 0))) s

def execLdep (d a : RegField) (g : GuardField) (s : State) : Host.Outcome State Fault Refusal := depositUnit f32 .word d a g s
def execLdepd (d a : RegField) (g : GuardField) (s : State) : Host.Outcome State Fault Refusal := depositUnit f64 .pair d a g s

/-- What a rounding of a segment gives (R170). -/
def segRound (f : Fmt) (ftz : Bool) (code sat : Nat) (g : Segment) (v : Int) (point : Nat) : FRes :=
  if g.flags.getLsbD 1 || g.flags.getLsbD 0 || (g.flags.getLsbD 2 && g.flags.getLsbD 3) then
    ⟨f.nanBits, Ev.invalid true, 0⟩
  else if g.flags.getLsbD 2 then ⟨f.infBits, {}, 0⟩
  else if g.flags.getLsbD 3 then ⟨f.signBit + f.infBits, {}, 0⟩
  else if v = 0 then ⟨0, {}, 0⟩
  else f.round ftz code sat 0 (mkRat v (2 ^ point))

/-- The saturation of a MOD override; IEEE without one. -/
def Issue.modSaturation (i : Issue) : Nat :=
  match i.front.hints.mod with
  | some h => if modSatOn h then modSat h else 0
  | none => 0

/-- LRND and LRNDD (R170): events count by segment. -/
def roundUnit (f : Fmt) (c : Cls) (d a : RegField) (g : GuardField) (s : State) : Host.Outcome State Fault Refusal :=
  runUnit lanyardRound g (fun i s =>
    if !i.regOk true c d || isQueue d || !i.regOk false .pair a then i.illegal 0 s
    else if s.tokenPending i (fieldRegs .pair a) then .wait s
    else s.onSegments i fun l segs =>
        let m := s.modeOf i
        let out := segs.map fun x => (x.2, segRound f (ftz m) (i.arith m) i.modSaturation x.1 (s.segValue i l x.2 a) l.f)
        let hit := out.filter fun x => x.2.ev.enabled m
        let all := Ev.sum (out.map fun x => x.2.ev)
        if !hit.isEmpty then
          .trap ⟨Cause.fpTrap, hit.foldl (fun w x => w ||| segLanes l.k x.1) 0, 0, BitVec.ofNat 64 all.info⟩ s
        else .done (out.foldl (fun t x =>
          t.writeLanes i c d (segLanes l.k x.1 &&& firstLanes i.width) fun _ => BitVec.ofNat 64 x.2.bits) (s.count i.core all))) s

def execLrnd (d a : RegField) (g : GuardField) (s : State) : Host.Outcome State Fault Refusal := roundUnit f32 .nat d a g s
def execLrndd (d a : RegField) (g : GuardField) (s : State) : Host.Outcome State Fault Refusal := roundUnit f64 .pair d a g s

/-- The least n with -2^n ≤ v < 2^n. -/
def significant (v : Int) : Nat :=
  let m := (if v < 0 then -v - 1 else v).toNat
  if m = 0 then 0 else Nat.log2 m + 1

def execLtop (d a : RegField) (g : GuardField) (s : State) : Host.Outcome State Fault Refusal :=
  segBroadcast lanyardAttr d .nat [a] g (fun s i l x => BitVec.ofNat 64 (significant (s.segValue i l x.2 a))) s

/-- The status word of segment j (R162). -/
def Lanyard.status (l : Lanyard) (j : Nat) : Dword :=
  let g := (l.segments[j]?).getD Segment.unbound
  if !g.bound && !g.faulted then 0
  else BitVec.ofNat 64 (g.flags.toNat + 256 * g.bound.toNat + 512 * g.faulted.toNat
    + 1024 * (if l.k = 8 then 0 else if l.k = 16 then 1 else if l.k = 32 then 2 else 3) + 4096 * j + 65536 * l.f)

def execLstat (d : RegField) (g : GuardField) (s : State) : Host.Outcome State Fault Refusal :=
  runUnit lanyardAttr g (fun i s =>
    if !i.scalarOk true d then i.illegal 0 s
    else .done (s.writeLanes i .nat d i.active fun lane =>
      match s.lanyardOf i with
      | some l => l.status (lane / l.k)
      | none => 0)) s

def execLclr (m : RegField) (g : GuardField) (s : State) : Host.Outcome State Fault Refusal :=
  runUnit lanyardAttr g (fun i s =>
    if 31 < m.toNat then i.illegal 0 s
    else s.onSegments i fun _ segs => .done (segs.foldl (fun t x =>
      t.modUnit i.core i.unit fun r => { r with lanyard := r.lanyard.map fun l =>
        { l with segments := setAt x.2 (fun g => { g with flags := g.flags &&& ~~~(BitVec.ofNat 5 m.toNat) }) l.segments } }) s)) s

end Sys2Proof.Machine
end

