-- ==== Sys2Proof/Machine/Mapping.lean ====
section
/-! DEFINITION. The translation stations and the fault queue, TSINV, fills and write-backs of local-store pages, interleave
commits and the requests that reach the L2 slices (R220 to R240, R429, R438 to R440). -/

namespace Sys2Proof.Machine

/-! ### Fault records (R227 to R229, R450) -/

/-- The same context, 64 KiB virtual page and access. -/
def Stalled.alike (x y : Stalled) : Bool := x.ctx == y.ctx && x.va / 65536 == y.va / 65536 && x.acc == y.acc

/-- A request that stalls is covered by an outstanding record of the station, which is one that it has posted (R229). -/
def Station.coveredBy (t : Station) (x : Stalled) : Bool :=
  t.stalled.any fun y => y.who != x.who && y.state != .walking && y.alike x && !t.held.any (·.who == y.who)

/-- The 32 bytes of a fault record (R228). -/
def faultRecord (y : Stalled) (stn : Nat) (seq : Word) : List Byte :=
  bytesOfNat y.va 8 ++ bytesOfNat y.kind 1 ++ bytesOfNat y.acc 1 ++ bytesOfNat y.ctx 2 ++ bytesOfNat y.rel.toNat 4
    ++ bytesOfNat y.queue 1 ++ bytesOfNat y.level 1 ++ bytesOfNat stn 2 ++ bytesOfNat seq.toNat 4 ++ List.replicate 8 0

/-- The fault queue of a context has room for a record. -/
def State.faultRoom (s : State) (x : Context) : Bool :=
  let used := BitVec.ofNat 32 (s.deviceNat x.record.fqb 4) - BitVec.ofNat 32 (s.deviceNat (x.record.fqb + 4) 4)
  decide (used.toNat < 2 ^ x.record.fqn)

/-- The lines of a fault queue that the next record touches: the header's, and its own (R228). -/
def State.faultLines (s : State) (x : Context) : List Nat :=
  [x.record.fqb / 64, (x.record.fqb + 64 + 32 * (s.deviceNat x.record.fqb 4 % 2 ^ x.record.fqn)) / 64]

/-- A station can post a record now: it can read the lines of the fault queue, without an error, and the queue has room (R229, R427 to
R429). -/
def State.canPost (s : State) (stn : Nat) (x : Context) : Bool :=
  ((s.faultLines x).all fun line => s.lineAnswers (stn / 16) line && !s.l2.poisoned.contains line) && s.faultRoom x

/-- A station writes a record, then the producer index, and tells the fault handler (R229, R450). -/
def State.postRecord (s : State) (stn : Nat) (x : Context) (y : Stalled) : State :=
  let s := (s.faultLines x).foldl (·.readThrough ·) s
  let i := s.deviceNat x.record.fqb 4
  let s := s.deviceWriteAll (x.record.fqb + 64 + 32 * (i % 2 ^ x.record.fqn))
    (faultRecord y stn (s.station stn).seq) 2
  let s := s.deviceWrite x.record.fqb (bytesOfNat (i + 1) 4)
  let s := s.modStation stn fun t => { t with seq := t.seq + 1 }
  s.faultReportAs y.ctx y.core y.rel [BitVec.ofNat 64 (Cause.devFault + 3 * 65536 + 2 ^ 32 * i), BitVec.ofNat 64 y.va]

/-- Posts the held records of a context, oldest first, while its fault queue takes them. -/
def State.postHeld (s : State) (stn ctx : Nat) (x : Context) : Nat → State
  | 0 => s
  | n + 1 =>
    let t := s.station stn
    match t.held.findIdx? (·.ctx == ctx) with
    | none => s
    | some j => match t.held[j]? with
      | none => s
      | some y =>
        if s.canPost stn x then
          ((s.postRecord stn x y).modStation stn fun t => { t with held := dropAt j t.held }).postHeld stn ctx x n
        else s

/-- FAULT_QUEUE_RECHECK: a station with held records re-reads the consumer index of a context's fault queue (R229). -/
def execFaultQueueRecheck (stn ctx : Nat) (s : State) : Host.Outcome State Fault Refusal :=
  match s.context ctx with
  | some x => .next (s.postHeld stn ctx x (s.station stn).held.length)
  | none => .next s

/-! ### Walks (R224 to R229) -/

/-- A translation enters a station's cache, in front; 4,096 stay (R224). -/
def Station.keep (t : Station) (x : Translation) : Station :=
  { t with cache := (x :: t.cache.filter fun y => y.ctx ≠ x.ctx || y.base ≠ x.base || y.size ≠ x.size).take 4096 }

/-- Changes the piece that a walker names, where its entry is still at the head of its queue. -/
def State.modWalker (s : State) (c u q p : Nat) (seq : Word) (f : Piece → Piece) : State :=
  match (s.queue c u q).entries with
  | e :: _ => if e.seq = seq then s.modPiece c u q p f else s
  | [] => s

def Piece.stall (x : Piece) : Piece := { x with state := .stalled }
def Piece.unstall (x : Piece) : Piece := { x with state := if x.state == .stalled then .untranslated else x.state }

/-- A translation reaches the request that waited for it. -/
def State.resume (s : State) (who : Walker) (place : Place) : State :=
  match who with
  | .piece c u q p seq => s.modWalker c u q p seq Piece.unstall
  | .page c f => s.placeFrame c f place
  | .treelet c f p => s.placeTreelet c f p place
  | .fetch _ => s
  | .save _ => s

/-- A request whose walk has failed stalls: it is covered by an outstanding record, or it posts its own, or holds it while the
fault queue is full or out of reach (R227, R229). -/
def State.stallRequest (s : State) (stn n : Nat) (y : Stalled) : State :=
  let covered := (s.station stn).coveredBy y
  let s := s.modStation stn fun t => { t with
    stalled := setAt n (fun _ => { y with state := .recorded, since := s.tick }) t.stalled }
  let s := match y.who with
    | .piece c u q p seq => s.modWalker c u q p seq Piece.stall
    | _ => s
  if covered then s else
  match s.context y.ctx with
  | none => s
  | some x =>
    if (s.station stn).held.all (·.ctx ≠ y.ctx) && s.canPost stn x then s.postRecord stn x y
    else s.modStation stn fun t => { t with held := t.held ++ [y] }

/-- TRANSLATION_WALK: a station walks the page table for one of the requests that it has not translated (R224 to R229). -/
def execTranslationWalk (stn n : Nat) (s : State) : Host.Outcome State Fault Refusal :=
  match (s.station stn).stalled[n]? with
  | none => .next s
  | some y =>
    if y.state == .recorded || !s.walkAnswers (stn / 16) y.ctx y.va then .next s
    else
      let s := s.walkRead y.ctx y.va
      match s.walk y.ctx y.va y.acc with
      | .ok t =>
        .next ((s.modStation stn fun st => ({ st with stalled := dropAt n st.stalled }).keep t).resume y.who (t.place! y.va))
      | .error e => .next (s.stallRequest stn n { y with kind := e.kind, level := e.level })

/-! ### TSINV (R226, R238) -/

/-- A cached translation overlaps a shootdown's range. -/
def Shootdown.drops (m : Shootdown) (t : Translation) : Bool :=
  (m.all || t.ctx == m.ctx) && decide (t.base < m.limit) && decide (m.base < t.base + t.size)

/-- A refused request (R223, R238, R252, R347, R391, R392). -/
def State.refuseRequest (s : State) (y : Stalled) : State :=
  match y.who with
  | .piece c u q _ seq =>
    match (s.queue c u q).entries with
    | e :: _ => if e.seq = seq && !(s.queue c u q).faulted then
        (s.refuseEntry c u q Cause.devFault y.kind (0x10 + y.kind) y.va).advance c u 64
      else s
    | [] => s
  | .page c f => s.modCore c fun k => { k with frames := SMap.alter k.frames f fun x => x.refuse .refused y.kind }
  | .treelet c f _ => s.modTFrame c f fun t => { t with refused := some Cause.devFault }
  | .fetch ref =>
    s.modCore y.core fun k => { k with
      fetchRefused := (ref, y.va, Cause.devFault) :: k.fetchRefused.filter (·.1 != ref) }
  | .save ctx => s.saveFault ctx y.core

/-- A request that a shootdown's action covers: it was stalled in the range when the TSINV issued, and has not stalled anew. -/
def Shootdown.acts (m : Shootdown) (y : Stalled) : Bool :=
  y.state == .recorded && y.inRange m.ctx m.all m.base m.limit && m.stalled.contains (y.who, y.since)

/-- A station after a shootdown's drop (R238). -/
def Station.shotDown (t : Station) (m : Shootdown) : Station := { t with cache := t.cache.filter fun x => !m.drops x }

/-- A station whose covered requests are walked again. -/
def Station.walkAgain (t : Station) (m : Shootdown) : Station :=
  { t with stalled := t.stalled.map fun y => if m.acts y then { y with state := .again } else y }

/-- A station without the requests that are refused. -/
def Station.refused (t : Station) (m : Shootdown) : Station := { t with stalled := t.stalled.filter fun y => !m.acts y }

/-- TSINV_COMPLETE: the stations have dropped what the oldest TSINV covers, and its action is taken (R238). -/
def execTsinvComplete (s : State) : Host.Outcome State Fault Refusal :=
  match s.l2.shootdowns with
  | [] => .next s
  | m :: more =>
    let s := s.modL2 fun l => { l with shootdowns := more }
    let s := s.mapStations (·.shotDown m)
    let s :=
      if m.action = 1 then s.mapStations (·.walkAgain m)
      else if m.action = 2 then
        (s.stations.flatMap fun (_, t) => t.stalled.filter m.acts).foldl State.refuseRequest (s.mapStations (·.refused m))
      else s
    .next (s.setPending m.who none)

/-! ### Fills and write-backs of local pages (R219 to R223) -/

/-- The relative coordinate word for which a frame of a core holds its page (R219; log entry 30). -/
def State.frameRel (s : State) (c : Nat) (f : Frame) : BitVec 16 := f.old.getD (((s.context f.ctx).map (·.relative c)).getD 0)

/-- Another frame that holds the bytes of the page that frame i of core c is filled with: on a core that its context has left, or holds
now (log entry 30). -/
def State.heldFrame (s : State) (c i : Nat) (f : Frame) : Option (Nat × Nat × Frame) :=
  s.cores.findSome? fun (d, k) =>
    (k.frames.find? fun (j, g) => g.ctx == f.ctx && g.page == f.page && g.state != .filling && s.frameRel d g == s.frameRel c f
      && !(d == c && j == i)).map fun g => (d, g.1, g.2)

/-- The frames of a page of a context on a core in a state, those that the context has left included. -/
def CoreState.framesIn (k : CoreState) (ctx page : Nat) (st : FrameState) : List (Nat × Frame) :=
  k.frames.filter fun f => f.2.ctx == ctx && f.2.page == page && f.2.state == st

/-- A filled frame; `dirty` says that its bytes differ from those of its backing page. -/
def Frame.filled (f : Frame) (dirty : Bool) : Frame :=
  { f with state := if dirty && f.pins == 0 then .dirty else .resident, modified := dirty, waiters := [] }

/-- A filled page has its bytes. -/
def State.putPage (s : State) (c i : Nat) (bytes : List Byte) (dirty : Bool) : State :=
  s.modCore c fun k => { k with
    store := Memory.writeBytes k.store (4096 * i) bytes
    frames := SMap.alter k.frames i fun f => f.filled dirty }

/-- A filling page takes its bytes: from the frame that the page still held elsewhere, which is given up, else from its backing page.
A fill that its context has left behind comes to nothing where the page has a frame since (R219, R222; log entry 30). -/
def State.fillPage (s : State) (c i : Nat) (f : Frame) (place : Place) : State :=
  match s.heldFrame c i f with
  | some (d, j, g) =>
    if f.old.isSome then s.dropFrame c i
    else (s.dropFrame d j).putPage c i (Memory.readBytes (s.core d).store (4096 * j) 4096) (g.state != FrameState.resident || g.modified)
  | none =>
    let (bytes, s) := s.pageBytes place
    s.putPage c i bytes false

/-- The address of a frame's backing page has left every enabled domain: its translation fails anew (R227). -/
def State.unmapFrame (s : State) (c i : Nat) (f : Frame) : State :=
  (s.modCore c fun k => { k with frames := SMap.put k.frames i { f with place := none } }).askFrame c i f (f.state == .draining)

/-- LS_PAGE_FILL_COMPLETE: the backing page of a filling page has been read (R220, R223); while a line of it has no answer, or with
an uncorrectable error, it has not. -/
def execLsPageFillComplete (c ctx page : Nat) (s : State) : Host.Outcome State Fault Refusal :=
  match ((s.core c).framesIn ctx page .filling).find? fun f => f.2.refused.isNone && f.2.place.isSome with
  | none => .next s
  | some (i, f) => match f.place with
    | none => .next s
    | some p =>
      if !s.mapped p then .next (s.unmapFrame c i f)
      else if s.pagePoisoned p || f.lost || !s.placeRead (dieOf c) p f.answered then .next s else .next (s.fillPage c i f p)

/-- The 4 KiB of a frame go to its backing page. -/
def State.writePage (s : State) (c i : Nat) (ctx : Nat) (place : Place) : State :=
  let bytes := Memory.readBytes (s.core c).store (4096 * i) 4096
  match place with
  | .hbm pa => s.deviceWriteAll pa bytes 65
  | .host _ => (s.rememberFar place bytes).countOutside place (List.range 64)
  | .package pkg pa => (s.rememberFar place bytes).sendFabric pkg (.release ⟨ctx, 0⟩ pa)

/-- A drained frame that an access or a pin came to stays (R220). -/
def Frame.kept (f : Frame) : Frame :=
  { f with state := if f.written && f.pins == 0 then .dirty else .resident, modified := f.written, touched := false, written := false,
           place := none }

/-- LS_PAGE_WRITEBACK_COMPLETE: a draining page is written; its frame is freed, or kept when an access came (R220). -/
def execLsPageWritebackComplete (c ctx page : Nat) (s : State) : Host.Outcome State Fault Refusal :=
  match ((s.core c).framesIn ctx page .draining).find? fun f => f.2.place.isSome with
  | none => .next s
  | some (i, f) => match f.place with
    | none => .next s
    | some p =>
      if !s.mapped p then .next (s.unmapFrame c i f)
      else if f.lost || !s.placeAnswers (dieOf c) p 4096 then .next s
      else
        let s := s.writePage c i ctx p
        if f.touched then .next (s.modCore c fun k => { k with frames := SMap.put k.frames i f.kept })
        else .next (s.dropFrame c i)

/-! ### Interleave commits (R233 to R235, R438 to R440) -/

/-- L2COMMIT: a commit that software has written is checked and refused, or begins (R233). -/
def execL2commit (mask : BitVec 16) (s : State) : Host.Outcome State Fault Refusal :=
  match s.l2.commit with
  | some m =>
    if m.stage != .requested || m.mask ≠ mask then .next s
    else
      let s' := s.modL2 fun l => { l with stat := s.l2Status }
      if s.commitErr m = 0 then .next (s'.modL2 fun l => { l with commit := some { m with stage := .draining } })
      else .next ((s'.modL2 fun l => { l with commit := none }).setPending m.who none)
  | none => .next s

/-- What REPLAY carries for a line: the domain that the active mapping assigns it to, with its GEN (R234, R440). -/
def State.replayAnswer (s : State) (line : Nat) : LineState :=
  .replayed (((List.range 16).find? fun d => (s.domain d).holds (64 * line)).map fun d => (d, (s.domain d).gen))

/-- Answers REPLAY to the held lines of a piece. -/
def State.replayPiece (s : State) (p : Piece) : Piece :=
  match p.place with
  | some (.hbm pa) => { p with lines := p.lines.map fun l => (l.1, if l.2 == .held then s.replayAnswer (pa / 64 + l.1) else l.2) }
  | _ => p

def State.replayQueue (s : State) (q : EngineQueue) : EngineQueue :=
  { q with entries := q.entries.map fun e => { e with pieces := e.pieces.map fun p => (p.1, s.replayPiece p.2) } }

/-- Every held request of a core is answered REPLAY. -/
def State.replayCore (s : State) (k : CoreState) : CoreState :=
  { k with
    units := k.units.map fun u => (u.1, { u.2 with engines := u.2.engines.map s.replayQueue })
    handlers := { k.handlers with queues := k.handlers.queues.map s.replayQueue } }

/-- Every slice has written back its dirty departing lines and dropped the departing ones (R233). -/
def State.drained (s : State) (m : Commit) : State :=
  let gone (x : Nat × L2Line) : Bool := s.departs m (x.1 / 512) (x.1 % 512)
  let t := (s.l2.lines.filter gone).foldl (fun t x => t.writeBack (x.1 / 512) x.2) s
  t.modL2 fun l => { l with lines := l.lines.filter fun x => !gone x }

/-- L2_COMMIT_POINT: every slice has drained; the new mapping is taken, and held requests are answered REPLAY (R233). -/
def execL2CommitPoint (s : State) : Host.Outcome State Fault Refusal :=
  match s.l2.commit with
  | some m =>
    if m.stage != .draining || !s.stacksTake (s.l2.lines.filter fun x => s.departs m (x.1 / 512) (x.1 % 512)) then .next s
    else
      let t := s.drained m
      let named := (List.range 16).filter fun d => m.mask.getLsbD d
      let t := t.modL2 fun l => { l with
        active := named.foldl (fun a d => SMap.put a d (s.afterCommit m d)) l.active
        stat := (l.stat &&& 0xFFFF) ||| (BitVec.ofNat 64 m.mask.toNat <<< 16)
        commit := some { m with stage := .switched, reload := List.range 64 } }
      .next { t with cores := t.cores.map fun k => (k.1, t.replayCore k.2) }
  | none => .next s

/-- A station's copy of a domain becomes the active set (R235). -/
def State.reloadCopy (s : State) (stn d : Nat) : State :=
  s.modStation stn fun t => if t.copy d = s.domain d then t else { t with copies := SMap.put t.copies d (s.domain d) }

/-- STATION_RELOAD: a station reloads its copies; with the last one the commit has completed (R233, R439). -/
def execStationReload (stn : Nat) (s : State) : Host.Outcome State Fault Refusal :=
  match s.l2.commit with
  | some m =>
    if m.stage != .switched || !m.reload.contains stn then .next s
    else
      let s := (List.range 16).foldl (fun s d => s.reloadCopy stn d) s
      let left := m.reload.erase stn
      if left.isEmpty then
        .next ((s.modL2 fun l => { l with commit := none, stat := l.stat &&& ~~~(1 : Dword) }).setPending m.who none)
      else .next (s.modL2 fun l => { l with commit := some { m with reload := left } })
  | none => .next s

/-! ### Requests at the slices (R230, R233, R234, R245, R429) -/

/-- A line of a piece of the head entry of a queue that its engine moves through the L2. -/
structure LineRequest where
  entry : Entry
  block : Nat
  piece : Piece
  /-- Its virtual line number and its physical line number. -/
  vline : Nat
  line : Nat
  state : LineState

/-- The line `line` of piece p of a working queue, once the piece is translated. -/
def State.lineRequest (s : State) (c u q p line : Nat) : Option LineRequest :=
  (s.working c u q).bind fun e => (e.op.blocks[p]?).bind fun b =>
    let x := e.piece p
    match x.place with
    | some (.hbm pa) =>
      if x.state == .ready && !(e.op.lineRuns (64 * b + line)).isEmpty then
        some ⟨e, b, x, 64 * b + line, pa / 64 + line, (SMap.find x.lines line).getD .asked⟩
      else none
    | _ => none

def State.setLine (s : State) (c u q p line : Nat) (l : LineState) : State :=
  s.modPiece c u q p fun x => { x with lines := SMap.put x.lines line l }

/-- The address has left every enabled domain: the piece asks for its translation anew (R227). -/
def State.unmapPiece (s : State) (c u q p : Nat) : State :=
  s.modPiece c u q p fun x => { x with state := .untranslated, place := none, lines := [] }

/-- The bytes of a line reach the piece that reads it. -/
def State.readLine (s : State) (c u q p line : Nat) (r : LineRequest) : State :=
  let bytes := s.deviceLine r.line
  let keep (d : SMap Byte) (x : Nat × Nat × Nat) : SMap Byte :=
    (List.range x.2.2).foldl (fun d j => SMap.put d ((x.1 + j) % 4096) ((bytes[(x.1 + j) % 64]?).getD 0)) d
  (s.modPiece c u q p fun x => { x with data := (r.entry.op.lineRuns r.vline).foldl keep x.data }).setLine c u q p line .done

/-- A stow needs the bytes that a line had: it writes a part of it, or logs its block (R378). -/
def State.needsOld (s : State) (c u : Nat) (r : LineRequest) : Bool :=
  decide (((r.entry.op.lineRuns r.vline).map (·.2.2)).sum < 64)
    || match s.logging ⟨s.queueCtx c u, r.entry.launch⟩ with
      | some l => !l.log.any (·.1 == 64 * r.vline)
      | none => false

/-- A stow writes its bytes of a line, whose block is logged first where the launch logs (R245, R378). -/
def State.stowRequest (s : State) (c u q p line : Nat) (r : LineRequest) : State :=
  let ctx := s.queueCtx c u
  let s := s.logBlock ⟨ctx, r.entry.launch⟩ (64 * r.vline) (s.deviceLine r.line)
  let (blocks, s) := s.stowLine c u r.entry r.vline
  (blocks.foldl (fun s x => s.deviceWrite (64 * r.line + x.1 % 64) x.2) s).setLine c u q p line .done

/-- A slice takes a request that its mapping assigns to it: it serves it, reads a line that it lacks from HBM4, or has no place for a
line yet (R2, R230, R429). -/
def State.serve (s : State) (c u q p line slice : Nat) (r : LineRequest) : State :=
  let here := (SMap.find s.l2.lines (l2Key r.line slice)).isSome
  let clean := here && !s.l2.poisoned.contains r.line
  if r.entry.op.stows then
    if s.needsOld c u r && !clean then s.setLine c u q p line .missed
    else if !here && !s.sliceRoom slice then s
    else
      let need := (r.entry.op.lineRuns r.vline).filterMap fun x => s.localSide c u r.entry.op x.2.1 |>.map fun y => (y, x.2.2)
      match need.head? with
      | none => s.setLine c u q p line .done
      | some ((home, _), _) =>
        match s.pages home (s.queueCtx c u) (need.flatMap fun x => pagesOf x.1.2 x.2) (some (.queue c u q)) with
        | .ready => s.stowRequest c u q p line r
        | .waiting s => s
        | .refused a cause t => s.refusePage t c u q home cause a (r.entry.op.firstVa r.block)
  else if clean then s.readLine c u q p line r
  else s.setLine c u q p line .missed

/-- The slice that a station sends a request for an address to: under the copy of the domain that a REPLAY named, else under the copies
of them all (R232, R234, R235, R440). -/
def Station.fold (t : Station) (l : LineState) (a : Nat) : Option Nat :=
  match l with
  | .under d => if (t.copy d).holds a then some ((t.copy d).slice a) else sliceUnder t.copy a
  | _ => sliceUnder t.copy a

/-- A line is still to be asked for. -/
def LineState.pending : LineState → Bool
  | .asked => true
  | .under _ => true
  | _ => false

/-- SLICE_REQUEST: a request that a station has folded under its copy reaches a slice, which serves it, holds it during a
commit, or answers REPLAY (R232 to R234). -/
def execSliceRequest (c u q p line : Nat) (s : State) : Host.Outcome State Fault Refusal :=
  match s.lineRequest c u q p line with
  | none => .next s
  | some r =>
    if !r.state.pending then .next s
    else
      let a := 64 * r.line
      match (s.station (stationOf c)).fold r.state a, s.sliceOf a with
      | _, none => .next (s.unmapPiece c u q p)
      | none, some _ => .next s
      | some k, some k' =>
        if !s.routeUp (dieOf c) (k / 128) then .next s
        else if k ≠ k' then .next (s.setLine c u q p line (s.replayAnswer r.line))
        else match s.l2.commit with
          | some m =>
            if m.stage == .draining && s.departs m r.line k then .next (s.setLine c u q p line .held)
            else .next (s.serve c u q p line k r)
          | none => .next (s.serve c u q p line k r)

/-- L2_REPLAY: a station that has received REPLAY reloads its copy of the domain that it names, when that is older, and folds the
request under that copy (R234, R440). -/
def execL2Replay (c u q p line : Nat) (s : State) : Host.Outcome State Fault Refusal :=
  match s.lineRequest c u q p line with
  | none => .next s
  | some r => match r.state with
    | .replayed none => .next (s.unmapPiece c u q p)
    | .replayed (some (d, gen)) =>
      let s := if 0 < (gen - ((s.station (stationOf c)).copy d).gen).toInt then s.reloadCopy (stationOf c) d else s
      .next (s.setLine c u q p line (.under d))
    | _ => .next s

/-- HBM4_READ_COMPLETE: the read of a missed line returns without an uncorrectable error, and the line enters its slice; a corrected
error is counted. A stow, which needed the line's bytes, is then served (R230, R378, R429). -/
def execHbm4ReadComplete (c u q p line : Nat) (corrected : Bool) (s : State) : Host.Outcome State Fault Refusal :=
  match s.lineRequest c u q p line with
  | none => .next s
  | some r =>
    if r.state != .missed || s.l2.poisoned.contains r.line then .next s
    else match s.sliceOf (64 * r.line) with
      | none => .next (s.unmapPiece c u q p)
      | some k =>
        if !s.lineAnswers (dieOf c) r.line then .next s
        else
          let s := if s.cached r.line then s
            else (if corrected then s.modHost fun h => { h with ce := bumpCount h.ce } else s).install r.line k ⟨s.deviceLine r.line, false⟩
          .next (if r.entry.op.stows then s.setLine c u q p line .asked else s.readLine c u q p line r)

end Sys2Proof.Machine
end

