-- ==== Sys2Proof/Machine/Links.lean ====
section
/-! DEFINITION. Packets of the mesh, die-edge links, fabric ports, fabric packets, and the nearest-neighbour wires (R155, R314,
R355, R381, R410 to R421, R426). -/

namespace Sys2Proof.Machine

/-! ### Nearest-neighbour wires (R155, R416) -/

/-- Changes a queue register of a unit. -/
def State.modQueueReg (s : State) (c u q : Nat) (f : QueueReg → QueueReg) : State :=
  s.modUnit c u fun r => { r with queues := setAt q f r.queues }

/-- A wire between adjacent cores works: it crosses no die edge, or a link that is up (R14, R416). -/
def State.wireUp (s : State) (c ep : Nat) : Bool :=
  match neighbour c ep with
  | some d => match edgeBetween c d with
    | some l => s.edge l == .up
    | none => true
  | none => false

/-- NN_LINK_DELIVERY: the oldest entry of an outbound queue crosses its wire into the receiver's queue, which has room; an
entry to a receiver that has ended is discarded (R154, R155). -/
def execNnLinkDelivery (c u q : Nat) (s : State) : Host.Outcome State Fault Refusal :=
  match s.unit c u with
  | none => .next s
  | some r => match r.queues[q]? with
    | none => .next s
    | some x => match x.entries with
      | [] => .next s
      | e :: more =>
        let sent (s : State) : State := s.modQueueReg c u q fun x => { x with entries := more }
        if x.ep < 4 || x.ep % 2 = 1 then .next s
        else if s.readerEnded c r x then .next (sent s)
        else if !s.wireUp c x.ep then .next s
        else match s.peer c x with
          | none => .next s
          | some (d, v, k) => match (s.unit d v).bind fun r => r.queues[k]? with
            | none => .next s
            | some y =>
              if 8 ≤ y.entries.length + y.kept then .next s
              else .next (((sent s).modQueueReg d v k fun y => { y with entries := y.entries ++ [e] }).follow d c)

/-! ### Flows (R314, R355, R410 to R413) -/

/-- A packet of a flow that stands before its inbox may enter it (R12, R355, R412); a later packet of a train needs no place of its
own (R441). -/
def State.enters (s : State) (dst : Nat) (cls : MsgClass) (m : Msg) : Bool :=
  m.isLater || s.inboxRoom dst cls && (cls != .ray || (s.core dst).ray.spill.isEmpty)

/-- Places the packets of a flow whose turn it is into the inbox, while it has room. -/
def State.placeInOrder (s : State) (src dst : Nat) (cls : MsgClass) (j : Nat) : Nat → State
  | 0 => s
  | n + 1 =>
    let f := s.flow src dst cls
    match f.packets[j]? with
    | none => s
    | some p =>
      if p.seq ≠ f.expected || !(p.state == .early) || !s.enters dst cls p.msg then s
      else
        let s := s.modCore dst fun k => k.receive src cls p.msg
        let s := if p.msg.orders then s.follow dst src else s
        let s := s.setFlow src dst cls { f with
          packets := setAt j (fun p => { p with state := .delivered }) f.packets, expected := (f.expected + 1) % 64 }
        s.placeInOrder src dst cls (j + 1) n

/-- Packets in the reorder store of a class at a core (R412). -/
def State.reordered (s : State) (dst : Nat) (cls : MsgClass) : Nat :=
  ((List.range 1152).map fun src => ((s.flow src dst cls).packets.filter fun p =>
    p.state == .early && p.seq != (s.flow src dst cls).expected).length).sum

/-- PACKET_ARRIVAL: one of the at most 4 unacknowledged packets of a flow reaches its destination: it enters the inbox in its
turn, waits in the reorder store, or is refused (R412). -/
def execPacketArrival (src dst : Nat) (cls : MsgClass) (seq : Nat) (s : State) : Host.Outcome State Fault Refusal :=
  let f := s.flow src dst cls
  match f.packets.findIdx? (·.seq == seq) with
  | none => .next s
  | some j => match f.packets[j]? with
    | none => .next s
    | some p =>
      if 4 ≤ j || !(p.state == .flying || p.state == .early) || !s.routeUp (dieOf src) (dieOf dst) then .next s
      else if seq = f.expected then
        if s.enters dst cls p.msg then
          .next ((s.setFlow src dst cls { f with packets := setAt j (fun p => { p with state := .early }) f.packets }).placeInOrder
            src dst cls j 4)
        else .next s
      else if p.state == .early then .next s
      else
        let state : PacketState := if s.reordered dst cls < 8 then .early else .refused
        .next (s.setFlow src dst cls { f with packets := setAt j (fun p => { p with state := state }) f.packets })

/-- PACKET_REFUSAL: a refused packet is sent again once its predecessor has been acknowledged (R412, R426). -/
def execPacketRefusal (src dst : Nat) (cls : MsgClass) (s : State) : Host.Outcome State Fault Refusal :=
  let f := s.flow src dst cls
  match f.packets with
  | p :: more =>
    if p.state == .refused then .next (s.setFlow src dst cls { f with packets := { p with state := .flying } :: more }) else .next s
  | [] => .next s

/-- FLOW_ACKNOWLEDGEMENT: the acknowledgement of a flow's oldest packet reaches its source, which frees its copy (R412). -/
def execFlowAcknowledgement (src dst : Nat) (cls : MsgClass) (s : State) : Host.Outcome State Fault Refusal :=
  let f := s.flow src dst cls
  match f.packets with
  | p :: more => if p.state == .delivered then .next (s.setFlow src dst cls { f with packets := more }) else .next s
  | [] => .next s

/-- SLACK_PROMOTION: a packet 512 cycles past its release has slack 0 (R413). -/
def execSlackPromotion (src dst : Nat) (cls : MsgClass) (seq : Nat) (s : State) : Host.Outcome State Fault Refusal :=
  let f := s.flow src dst cls
  .next (if f.packets.any fun p => p.seq == seq && p.slack != 0 && decide (p.born + 512 ≤ (s.core src).cycle) then
    s.setFlow src dst cls { f with packets := f.packets.map fun p => if p.seq = seq then { p with slack := 0 } else p } else s)

/-! ### Links (R381, R415, R416, R421) -/

/-- The state of link 0 to 71, a die edge, or of 72 to 135, fabric port 0 to 63. -/
def State.linkState (s : State) (l : Nat) : LinkState := if l < 72 then s.edge l else (s.port (l - 72)).state

/-- A link changes state, which the host is told (R424). -/
def State.setLink (s : State) (l : Nat) (x : LinkState) : State :=
  (if l < 72 then s.modLink fun k => { k with edges := SMap.put k.edges l x }
   else s.modLink fun k => { k with ports := SMap.put k.ports (l - 72) { s.port (l - 72) with state := x } }).hostEvent 1

/-- LINK_TRAINED: a link's lanes are trained (R415). -/
def execLinkTrained (l : Nat) (s : State) : Host.Outcome State Fault Refusal :=
  .next (if s.linkState l == .training then s.setLink l .up else s)

/-- LINK_ERROR: errors past the retry limit, or a lost lane, take a link into retraining (R415, R419). -/
def execLinkError (l : Nat) (s : State) : Host.Outcome State Fault Refusal :=
  if s.linkState l == .up then
    let s := s.setLink l .retraining
    .next (if l < 72 then s
      else s.modLink fun k => { k with ports := SMap.put k.ports (l - 72) { s.port (l - 72) with retrainings := (s.port (l - 72)).retrainings + 1 } })
  else .next s

/-- LINK_RETRAINED: a link is up again, and nothing that it held is lost (R415). -/
def execLinkRetrained (l : Nat) (s : State) : Host.Outcome State Fault Refusal :=
  .next (if s.linkState l == .retraining then s.setLink l .up else s)

/-- Whether an item that may have stood before a failed link was lost with it: a free value (R416; log entry 34). -/
def State.loses (s : State) : Bool × State :=
  let (v, s) := s.freeValue
  (v.getLsbD 0, s)

/-- The packets of a flow that a failed link loses. -/
def losePackets : List Packet → State → List Packet × State
  | [], s => ([], s)
  | p :: more, s =>
    let (b, s) := if p.state == .flying then s.loses else (false, s)
    let (r, s) := losePackets more s
    ((if b then { p with state := .lost } else p) :: r, s)

/-- Packets whose route crosses the edge of a failed link may be lost (R416). -/
def State.loseFlows (s : State) (l : Nat) : State :=
  s.link.flows.foldl (fun s (k, f) =>
    if routeCrosses (dieOf (k / 6 / 1152)) (dieOf (k / 6 % 1152)) l then
      let (a, s) := losePackets (f.packets.take 4) s
      s.modLink fun x => { x with flows := SMap.put x.flows k { f with packets := a ++ f.packets.drop 4 } }
    else s) s

/-- Lines of engine pieces whose way to their slice crosses the edge of a failed link may be lost (R416). -/
def State.losePieces (s : State) (l : Nat) : State :=
  s.cores.foldl (fun s (c, k) => (16 :: k.units.map (·.1)).foldl (fun s u => (List.range 4).foldl (fun s q =>
    match s.working c u q with
    | none => s
    | some e => e.pieces.foldl (fun s (p, x) => x.lines.foldl (fun s (line, _) =>
        match s.lineRequest c u q p line with
        | none => s
        | some r => match s.sliceOf (64 * r.line) with
          | none => s
          | some slice =>
            if r.state == .done || !routeCrosses (dieOf c) (slice / 128) l then s
            else
              let (b, s) := s.loses
              if b then s.setLine c u q p line .lost else s) s) s) s) s) s

/-- A page's lines reach their slices across the edge of a failed link. -/
def State.pageCrosses (s : State) (c l : Nat) (f : Frame) : Bool :=
  match f.place with
  | some (.hbm pa) => (linesOf pa 4096).any fun line => match s.sliceOf (64 * line) with
    | some slice => routeCrosses (dieOf c) (slice / 128) l
    | none => false
  | _ => false

/-- Fills and write-backs of local pages whose lines cross the edge of a failed link may be lost (R416; log entry 34). -/
def State.losePages (s : State) (l : Nat) : State :=
  s.cores.foldl (fun s (c, k) => k.frames.foldl (fun s (n, f) =>
    if (f.state != .filling && f.state != .draining) || !s.pageCrosses c l f then s
    else
      let (b, s) := s.loses
      if b then s.modCore c fun k => { k with frames := SMap.alter k.frames n fun f => { f with lost := true } } else s) s) s

/-- Every launch whose rectangle lies on both sides of a failed link is reported, and rolled back or failed (R381, R450). -/
def State.linkDown (s : State) (l : Nat) : State :=
  s.contexts.foldl (fun s (ctx, x) =>
    if !x.placed then s
    else x.launches.foldl (fun s (_, y) =>
      let live := y.state == .placing || y.state == .running || y.state == .draining || y.state == .replaying
      if !live || !x.crosses y.record.rw y.record.rh y.origin l then s
      else
        let s := match x.coreAt x.record.fhc with
          | some c => s.faultReport ctx c [BitVec.ofNat 64 (Cause.linkDown + 5 * 65536), y.handle.setWidth 64]
          | none => s
        if y.record.replay && !y.lapsed then s.beginRollback ctx y.handle true
        else ((s.failLaunch ctx x y.handle 2).mendFlows x).mendPages ctx) s) s

/-- LINK_FAILURE_TIMEOUT: a link that trains fails; a die edge loses what it held, and its launches are told (R381, R415,
R416). -/
def execLinkFailureTimeout (l : Nat) (s : State) : Host.Outcome State Fault Refusal :=
  if s.linkState l == .training || s.linkState l == .retraining then
    let s := s.setLink l .failed
    .next (if l < 72 then (((s.loseFlows l).losePieces l).losePages l).linkDown l else s)
  else .next s

/-- FPCTL_WRITE: a written FPCTL.EN takes effect on its port (R415). -/
def execFpctlWrite (p : Nat) (en : Bool) (s : State) : Host.Outcome State Fault Refusal :=
  .next (if (s.port p).en == en then s.applyFpctl p else s)

/-! ### Fabric packets (R418, R421, R426) -/

def State.fabricFlow (s : State) (pkg : Nat) : FabricFlow := (SMap.find s.link.fabric pkg).getD FabricFlow.reset

def State.setFabric (s : State) (pkg : Nat) (f : FabricFlow) : State :=
  s.modLink fun l => { l with fabric := SMap.put l.fabric pkg f }

/-- A port carries traffic: it is up, and the fabric is accepted (R415, R432). -/
def State.portUp (s : State) (p : Nat) : Bool := (s.port p).state == .up && s.feature 0

/-- The ports of a package's set. -/
def State.portsOf (s : State) (pkg : Nat) : List Nat := (List.range 64).filter fun p => (SMap.word s.link.fps pkg).getLsbD p

/-- Some port of a package's set works; the set of the own number carries nothing (R419, R421). -/
def State.reachable (s : State) (pkg : Nat) : Bool := (s.portsOf pkg).any s.portUp && pkg != ownPackage

/-- Every port of a package's set has failed (R421). -/
def State.portsFailed (s : State) (pkg : Nat) : Bool :=
  (s.portsOf pkg).all fun p => (s.port p).state == .failed || (s.port p).state == .disabled

/-- What a packet asks can be performed now: its slices serve its lines, or an inbox has room for its message (R12, R230, R419). -/
def State.fabricReady (s : State) (op : FabricOp) : Bool :=
  match op with
  | .read pa len => (linesOf pa len).all s.lineServes
  | .write pa bytes => (linesOf pa bytes.length).all s.lineServes
  | .arrive setId _ => (s.podMember setId).all fun x => s.inboxRoom x.2 .ctl

/-- What a packet asks is performed: its reply, and the state (R246, R418, R419). A `.pod` arrival is a CTL packet to a core of its
instance; one that finds no such core, its context being saved, is dropped (DESIGN CHOICE, log entry 87). -/
def State.performFabric (s : State) (op : FabricOp) : List Byte × State :=
  match op with
  | .read pa len => s.checkedBytes pa len
  | .write pa bytes => ([], s.checkedWrite pa (bytes.take (hbmTop - pa)))
  | .arrive setId id => ([], match s.podMember setId with
    | some (_, c) => s.post c .ctl (.podArrive setId id)
    | none => s)

/-- A number among the 256 below the next expected (R418). -/
def FabricFlow.duplicate (f : FabricFlow) (seq : Nat) : Bool :=
  let behind := (f.nextExpected + 2 ^ 24 - seq) % 2 ^ 24
  decide (seq < 2 ^ 24) && decide (1 ≤ behind) && decide (behind ≤ 256)

/-- FABRIC_PACKET: a packet arrives from another package: performed when it is the next expected, discarded when later; a
duplicate is answered from its cached reply, or by a bare acknowledgement, and an older one is discarded (R418, R426). -/
def execFabricPacket (pkg seq : Nat) (op : FabricOp) (s : State) : Host.Outcome State Fault Refusal :=
  let f := s.fabricFlow pkg
  if !(List.range 64).any s.portUp then .next s
  else if f.duplicate seq && pkg != ownPackage then
    .next (s.setFabric pkg { f with answer := some (seq, (SMap.find f.replies seq).getD []) })
  else if seq ≠ f.nextExpected || !s.fabricReady op || pkg == ownPackage then .next s
  else
    let (reply, s) := s.performFabric op
    let f := s.fabricFlow pkg
    .next (s.setFabric pkg { f with
      nextExpected := (seq + 1) % 2 ^ 24
      answer := some (seq, reply)
      replies := SMap.drop (SMap.put f.replies seq reply) ((seq + 2 ^ 24 - 256) % 2 ^ 24) })

/-- A place is an address of a package. -/
def Place.isAt (p : Option Place) (pkg pa : Nat) : Bool := p == some (.package pkg pa)

/-- What an acknowledged packet leaves behind: the answer of a piece, of a page or of a treelet's page (R246, R418). -/
def State.fabricDone (s : State) (pkg : Nat) (ask : FabricAsk) : State :=
  let answered (x : Piece) : Piece := if x.sent then { x with state := .answered } else x
  match ask with
  | .read c u q p seq => s.modWalker c u q p seq answered
  | .write c u q p seq => s.modWalker c u q p seq answered
  | .page c ctx page pa => s.modCore c fun k => { k with frames := k.frames.map fun (i, f) =>
      (i, if f.ctx = ctx && f.page = page && f.state == .filling && Place.isAt f.place pkg pa then { f with answered := true } else f) }
  | .treelet c f p pa => s.modTFrame c f fun t =>
      if Place.isAt (SMap.find t.pages p) pkg pa then { t with answered := p :: t.answered } else t
  | .arrive .. => s
  | .release .. => s

/-- FABRIC_ACKNOWLEDGEMENT: the receiver acknowledges every packet up to a number among the at most 256 sent (R418). -/
def execFabricAcknowledgement (pkg seq : Nat) (s : State) : Host.Outcome State Fault Refusal :=
  let f := s.fabricFlow pkg
  match (f.replay.take 256).findIdx? (·.1 == seq) with
  | none => .next s
  | some j =>
    if !s.reachable pkg then .next s
    else
      let t := s.setFabric pkg { f with replay := f.replay.drop (j + 1), expiries := 0 }
      .next ((f.replay.take (j + 1)).foldl (fun t x => t.fabricDone pkg x.2) t)

/-- FABRIC_ACK_TIMER: an acknowledgement is returned to a package : it names every packet performed (R418). -/
def execFabricAckTimer (pkg : Nat) (s : State) : Host.Outcome State Fault Refusal :=
  let f := s.fabricFlow pkg
  .next (if f.acked = f.nextExpected then s else s.setFabric pkg { f with acked := f.nextExpected })

/-- FABRIC_RESEND_TIMEOUT: the unacknowledged packets to a package are sent again; the eighth expiry in
a row with every port of its set failed tells the host (R418, R421). -/
def execFabricResendTimeout (pkg : Nat) (s : State) : Host.Outcome State Fault Refusal :=
  let f := s.fabricFlow pkg
  if f.replay.isEmpty then .next s
  else
    let n := if s.portsFailed pkg then f.expiries + 1 else 0
    let t := s.setFabric pkg { f with expiries := n }
    .next (if n = 8 then t.hostEvent 2 else t)

end Sys2Proof.Machine
end

