-- ==== Sys2Proof/Machine/Move.lean ====
section
/-! DEFINITION. The moves and MODE (MV), integer compares (ICMP), predicate logic and transfer (PL, PV), votes, shuffles (XL),
reductions (RE) and scans (SN) (R72, R78, R109 to R121). -/

namespace Sys2Proof.Machine

/-! ### MV (R109 to R111) -/

def execMov (d a : RegField) (g : GuardField) (s : State) : Host.Outcome State Fault Refusal :=
  unary d a g (fun w a => lowBits w a) s

/-- R110: never guarded; GD selects. -/
def execSel (d a b : RegField) (sel : GuardField) (s : State) : Host.Outcome State Fault Refusal :=
  runUnit { guard := false } sel (fun i s =>
    let q := guardOf sel Hints.none
    s.compute i 0 (.nat, d) [(.nat, a), (.nat, b)] fun vals t =>
      (fun l => if s.pred i l q.1 == q.2 then nth vals 0 l else nth vals 1 l, t)) s

def execSxb (d a : RegField) (g : GuardField) (s : State) : Host.Outcome State Fault Refusal :=
  unary d a g (fun w a => wrap w (signedOf 8 a)) s
def execSxh (d a : RegField) (g : GuardField) (s : State) : Host.Outcome State Fault Refusal :=
  unary d a g (fun w a => wrap w (signedOf 16 a)) s
def execZxb (d a : RegField) (g : GuardField) (s : State) : Host.Outcome State Fault Refusal :=
  unary d a g (fun _ a => lowBits 8 a) s
def execZxh (d a : RegField) (g : GuardField) (s : State) : Host.Outcome State Fault Refusal :=
  unary d a g (fun _ a => lowBits 16 a) s

def execModer (d : RegField) (g : GuardField) (s : State) : Host.Outcome State Fault Refusal :=
  runUnit {} g (fun i s => s.lanewise i (.pair, d) [] fun _ => s.modeOf i) s

/-- Writes the MODE of the issuing stream (R71, R111). -/
def State.writeMode (s : State) (i : Issue) (m : Dword) : State :=
  match i.kind with
  | .group => s.modCtl i.core i.unit fun k => { k with mode := m }
  | _ => s.modScalar i fun k => { k with mode := m }

/-- Writes SEED and reseeds (R69, R72). -/
def State.writeSeed (s : State) (i : Issue) (seed : Word) : State :=
  match i.kind with
  | .group =>
    let s := s.modCtl i.core i.unit fun k => { k with seed := seed }
    s.modUnit i.core i.unit fun r => { r with lanes := { r.lanes with
      gens := (List.range i.width).foldl (fun m l => putGen m l (laneSeed seed l)) r.lanes.gens } }
  | _ => s.modScalar i fun k => { k with seed := seed, gen := if seed = 0 then 0xFFFFFFFF else seed }

/-- R72, R111: A is a pair, B a 32-bit register; gz leaves SEED. -/
def execModew (a b : RegField) (g : GuardField) (s : State) : Host.Outcome State Fault Refusal :=
  runUnit {} g (fun i s =>
    if !i.regOk false .pair a || !i.regOk false .word b then i.illegal 0 s
    else match s.operands i [(.pair, a), (.word, b)] [] with
      | .stop e => e
      | .ok vals t =>
        let l := lowestLane i.active
        let t := t.writeMode i (storedMode (nth vals 0 l))
        .done (if b = 60 then t else t.writeSeed i ((nth vals 1 l).setWidth 32))) s

/-! ### ICMP (R112) -/

/-- The eight conditions over w-bit values. -/
def icmpHolds (cond w : Nat) (a b : Dword) : Bool :=
  match cond with
  | 0 => natOf w a == natOf w b
  | 1 => natOf w a != natOf w b
  | 2 => decide (signedOf w a < signedOf w b)
  | 3 => decide (signedOf w a ≤ signedOf w b)
  | 4 => decide (natOf w a < natOf w b)
  | 5 => decide (natOf w a ≤ natOf w b)
  | 6 => natOf w (a &&& b) != 0
  | _ => natOf w (a &&& b) == 0

/-- An instruction that writes a predicate from register sources. -/
def toPredicate (t : Attr) (p : RegField) (srcs : List (Cls × RegField)) (g : GuardField)
    (f : Issue → List (Nat → Dword) → Nat → Bool) (s : State) : Host.Outcome State Fault Refusal :=
  runUnit t g (fun i s =>
    if !i.predOk p || !(srcs.all fun x => i.regOk false x.1 x.2) then i.illegal 0 s
    else match s.operands i srcs [] with
      | .stop e => e
      | .ok vals t => .done (t.writePreds i p.toNat (f i vals))) s

def icmp (cond : Nat) (p a b : RegField) (g : GuardField) (s : State) : Host.Outcome State Fault Refusal :=
  toPredicate {} p [(.nat, a), (.nat, b)] g (fun i v l => icmpHolds cond i.w (nth v 0 l) (nth v 1 l)) s

def execIcmpEq (p a b : RegField) (g : GuardField) (s : State) : Host.Outcome State Fault Refusal := icmp 0 p a b g s
def execIcmpNe (p a b : RegField) (g : GuardField) (s : State) : Host.Outcome State Fault Refusal := icmp 1 p a b g s
def execIcmpLt (p a b : RegField) (g : GuardField) (s : State) : Host.Outcome State Fault Refusal := icmp 2 p a b g s
def execIcmpLe (p a b : RegField) (g : GuardField) (s : State) : Host.Outcome State Fault Refusal := icmp 3 p a b g s
def execIcmpLtn (p a b : RegField) (g : GuardField) (s : State) : Host.Outcome State Fault Refusal := icmp 4 p a b g s
def execIcmpLen (p a b : RegField) (g : GuardField) (s : State) : Host.Outcome State Fault Refusal := icmp 5 p a b g s
def execIcmpBits (p a b : RegField) (g : GuardField) (s : State) : Host.Outcome State Fault Refusal := icmp 6 p a b g s
def execIcmpNone (p a b : RegField) (g : GuardField) (s : State) : Host.Outcome State Fault Refusal := icmp 7 p a b g s

/-! ### PL and PV (R114, R115) -/

/-- PLOP: A and B are predicate numbers. -/
def plop (f : Bool → Bool → Bool) (p a b : RegField) (g : GuardField) (s : State) : Host.Outcome State Fault Refusal :=
  runUnit {} g (fun i s =>
    if !i.predOk p || !i.predOk a || !i.predOk b then i.illegal 0 s
    else .done (s.writePreds i p.toNat fun l => f (s.pred i l a.toNat) (s.pred i l b.toNat))) s

def execPlopAnd (p a b : RegField) (g : GuardField) (s : State) : Host.Outcome State Fault Refusal := plop (fun x y => x && y) p a b g s
def execPlopOr (p a b : RegField) (g : GuardField) (s : State) : Host.Outcome State Fault Refusal := plop (fun x y => x || y) p a b g s
def execPlopXor (p a b : RegField) (g : GuardField) (s : State) : Host.Outcome State Fault Refusal := plop (fun x y => x != y) p a b g s
def execPlopAndn (p a b : RegField) (g : GuardField) (s : State) : Host.Outcome State Fault Refusal := plop (fun x y => x && !y) p a b g s
def execPlopOrn (p a b : RegField) (g : GuardField) (s : State) : Host.Outcome State Fault Refusal := plop (fun x y => x || !y) p a b g s
def execPlopNand (p a b : RegField) (g : GuardField) (s : State) : Host.Outcome State Fault Refusal := plop (fun x y => !(x && y)) p a b g s
def execPlopNor (p a b : RegField) (g : GuardField) (s : State) : Host.Outcome State Fault Refusal := plop (fun x y => !(x || y)) p a b g s
def execPlopXnor (p a b : RegField) (g : GuardField) (s : State) : Host.Outcome State Fault Refusal := plop (fun x y => x == y) p a b g s

def execP2g (d p : RegField) (g : GuardField) (s : State) : Host.Outcome State Fault Refusal :=
  runUnit {} g (fun i s =>
    if !i.predOk p then i.illegal 0 s
    else s.compute i 0 (.nat, d) [] fun _ t => (fun l => if s.pred i l p.toNat then 1 else 0, t)) s

def execG2p (p a : RegField) (g : GuardField) (s : State) : Host.Outcome State Fault Refusal :=
  toPredicate {} p [(.nat, a)] g (fun _ v l => nth v 0 l != 0) s

/-- 32 predicates of a lane from 32 n up, or the sixteen of a lead or run, p0 reading true. -/
def State.predWord (s : State) (i : Issue) (n l : Nat) : Dword :=
  BitVec.ofNat 64 ((List.range (if i.kind == .group then 32 else 16)).foldl (fun v j =>
    v + if s.pred i l (32 * n + j) then 2 ^ j else 0) 0)

/-- The word number of PGETW and PSETW is legal (R115). -/
def Issue.predWordOk (i : Issue) (n : RegField) : Bool := decide (n.toNat < 2) && (i.kind == .group || n == 0)

def execPgetw (d n : RegField) (g : GuardField) (s : State) : Host.Outcome State Fault Refusal :=
  runUnit {} g (fun i s =>
    if !i.predWordOk n then i.illegal 0 s
    else s.compute i 0 (.nat, d) [] fun _ t => (fun l => s.predWord i n.toNat l, t)) s

/-- Writes the predicates of one lane from a word. -/
def State.writePredWord (s : State) (i : Issue) (n l : Nat) (v : Dword) : State :=
  (List.range (if i.kind == .group then 32 else 16)).foldl (fun s j => s.writePred i l (32 * n + j) (v.getLsbD j)) s

def execPsetw (a n : RegField) (g : GuardField) (s : State) : Host.Outcome State Fault Refusal :=
  runUnit {} g (fun i s =>
    if !i.predWordOk n || !i.regOk false .nat a then i.illegal 0 s
    else match s.operands i [(.nat, a)] [] with
      | .stop e => e
      | .ok vals t => .done ((lanesOf i.active).foldl (fun t l => t.writePredWord i n.toNat l (nth vals 0 l)) t)) s

/-! ### Votes (R116) -/

/-- What is legal in group code only. -/
def groupOnly : Attr := { l := false, h := false }

/-- The active lanes in which a predicate holds. -/
def State.ballot (s : State) (i : Issue) (p : RegField) : LaneMask :=
  maskOf fun l => i.active.getLsbD l && s.pred i l p.toNat

def execBallot (d p : RegField) (g : GuardField) (s : State) : Host.Outcome State Fault Refusal :=
  runUnit groupOnly g (fun i s => s.lanewise i (.pair, d) [] fun _ => s.ballot i p) s

def execAnyOp (q p : RegField) (g : GuardField) (s : State) : Host.Outcome State Fault Refusal :=
  runUnit groupOnly g (fun i s => .done (s.writePreds i q.toNat fun _ => s.ballot i p != 0)) s

def execAllOp (q p : RegField) (g : GuardField) (s : State) : Host.Outcome State Fault Refusal :=
  runUnit groupOnly g (fun i s => .done (s.writePreds i q.toNat fun _ => s.ballot i p == i.active)) s

def execUni (p a : RegField) (g : GuardField) (s : State) : Host.Outcome State Fault Refusal :=
  toPredicate groupOnly p [(.nat, a)] g (fun i v _ =>
    (lanesOf i.active).all fun l => nth v 0 l == nth v 0 (lowestLane i.active)) s

/-! ### XL (R117 to R119) -/

/-- A shuffle: lane i receives A of lane `from i`. -/
def shuffle (d a : RegField) (srcs : List (Cls × RegField)) (ok : Nat → Bool) (from' : Nat → List (Nat → Dword) → Nat → Nat)
    (g : GuardField) (s : State) : Host.Outcome State Fault Refusal :=
  runUnit groupOnly g (fun i s =>
    if !ok i.width then i.illegal 0 s
    else s.compute i 0 (.nat, d) ((.nat, a) :: srcs) fun vals t => (fun l => nth vals 0 (from' i.width vals l), t)) s

def execShfli (d a b : RegField) (g : GuardField) (s : State) : Host.Outcome State Fault Refusal :=
  shuffle d a [(.nat, b)] (fun _ => true) (fun w v l => (nth v 1 l).toNat % w) g s
def execShflu (d a k : RegField) (g : GuardField) (s : State) : Host.Outcome State Fault Refusal :=
  shuffle d a [] (fun _ => true) (fun _ _ l => if k.toNat ≤ l then l - k.toNat else l) g s
def execShfld (d a k : RegField) (g : GuardField) (s : State) : Host.Outcome State Fault Refusal :=
  shuffle d a [] (fun _ => true) (fun w _ l => if l + k.toNat < w then l + k.toNat else l) g s
def execShflx (d a k : RegField) (g : GuardField) (s : State) : Host.Outcome State Fault Refusal :=
  shuffle d a [] (fun w => decide (k.toNat < w)) (fun _ _ l => l ^^^ k.toNat) g s
def execBcast (d a k : RegField) (g : GuardField) (s : State) : Host.Outcome State Fault Refusal :=
  shuffle d a [] (fun w => decide (k.toNat < w)) (fun _ _ _ => k.toNat) g s

/-- The active lanes that pass a test and hold lane i's value. -/
def equalLanes (i : Issue) (v : List (Nat → Dword)) (test : Nat → Bool) (l : Nat) : Dword :=
  maskOf fun j => i.active.getLsbD j && test j && nth v 0 j == nth v 0 l

def execConfl (d a : RegField) (g : GuardField) (s : State) : Host.Outcome State Fault Refusal :=
  runUnit groupOnly g (fun i s => s.compute i 0 (.pair, d) [(.nat, a)] fun v t =>
    (fun l => equalLanes i v (fun j => decide (j < l)) l, t)) s
def execMatchOp (d a : RegField) (g : GuardField) (s : State) : Host.Outcome State Fault Refusal :=
  runUnit groupOnly g (fun i s => s.compute i 0 (.pair, d) [(.nat, a)] fun v t => (equalLanes i v (fun _ => true), t)) s

/-! ### RE and SN (R78, R120, R121) -/

/-- A node of a tree: its value and its events. -/
abbrev Node := Nat × Ev

/-- One level of the fixed tree: lower lane first. -/
def foldLevel (op : Nat → Nat → FRes) : List Node → List Node
  | x :: y :: r =>
    let z := op x.1 y.1
    (z.bits, (x.2.add y.2).add z.ev) :: foldLevel op r
  | l => l

/-- The fixed tree of R78, with the events of all its nodes. -/
def foldTree (op : Nat → Nat → FRes) : Nat → List Node → Node
  | 0, l => l.headD (0, {})
  | k + 1, l => foldTree op k (foldLevel op l)

/-- One step of the scan tree at distance d (R121). -/
def scanStep (op : Nat → Nat → FRes) (d : Nat) (l : List Node) : List Node :=
  l.zipIdx.map fun (x, k) =>
    if d ≤ k then
      let z := op ((l[k - d]?).getD (0, {})).1 x.1
      (z.bits, x.2.add z.ev)
    else x

/-- The scan tree of R121: each node's events stay with its lane. -/
def scanTree (op : Nat → Nat → FRes) : Nat → Nat → List Node → List Node
  | 0, _, l => l
  | k + 1, d, l => if d < l.length then scanTree op k (2 * d) (scanStep op d l) else l

/-- The values that enter a tree: the active lanes' operands, and the identity elsewhere. -/
def treeInput (i : Issue) (identity : Nat) (v : List (Nat → Dword)) : List Node :=
  (List.range i.width).map fun l => (if i.active.getLsbD l then (nth v 0 l).toNat % 2 ^ 32 else identity, {})

/-- A reduction: its one result, in every active lane. -/
def reduce (identity : Nat) (op : Dword → Nat → Nat → FRes) (d a : RegField) (g : GuardField) (s : State) :
    Host.Outcome State Fault Refusal :=
  runUnit groupOnly g (fun i s =>
    if !i.regOk true .nat d || !i.regOk false .nat a then i.illegal 0 s
    else match s.operands i [(.nat, a)] [d] with
      | .stop e => e
      | .ok v t =>
        let r := foldTree (op (s.modeOf i)) 6 (treeInput i identity v)
        s.withNodeEvents t i r.2 fun t => s.result t i .nat d fun _ => BitVec.ofNat 64 r.1) s

/-- A scan: inclusive, or exclusive. -/
def scan (identity : Nat) (exclusive : Bool) (op : Dword → Nat → Nat → FRes) (d a : RegField) (g : GuardField) (s : State) :
    Host.Outcome State Fault Refusal :=
  runUnit groupOnly g (fun i s =>
    if !i.regOk true .nat d || !i.regOk false .nat a then i.illegal 0 s
    else match s.operands i [(.nat, a)] [d] with
      | .stop e => e
      | .ok v t =>
        let r := scanTree (op (s.modeOf i)) 6 1 (treeInput i identity v)
        let out (l : Nat) : Nat := ((r[l]?).getD (identity, {})).1
        s.withNodeEvents t i (Ev.sum (r.map (·.2))) fun t => s.result t i .nat d fun l =>
          BitVec.ofNat 64 (if exclusive then (if l = 0 then identity else out (l - 1)) else out l)) s

/-- A node of an integer tree. -/
def intNode (f : Dword → Dword → Dword) (_ : Dword) (a b : Nat) : FRes :=
  ⟨(f (BitVec.ofNat 64 a) (BitVec.ofNat 64 b)).toNat % 2 ^ 32, {}, 0⟩

def sumNode : Dword → Nat → Nat → FRes := intNode fun a b => a + b
def minNode : Dword → Nat → Nat → FRes := intNode (minValue 32)
def maxNode : Dword → Nat → Nat → FRes := intNode (maxValue 32)
def orNode : Dword → Nat → Nat → FRes := intNode fun a b => a ||| b
def andNode : Dword → Nat → Nat → FRes := intNode fun a b => a &&& b
def faddNode (m : Dword) (a b : Nat) : FRes := f32.addBits (ftz m) (arnd m) a b
def fminNode (m : Dword) (a b : Nat) : FRes := f32.minMax (ftz m) false a b
def fmaxNode (m : Dword) (a b : Nat) : FRes := f32.minMax (ftz m) true a b

def execIredadd (d a : RegField) (g : GuardField) (s : State) : Host.Outcome State Fault Refusal := reduce 0 sumNode d a g s
def execIredmin (d a : RegField) (g : GuardField) (s : State) : Host.Outcome State Fault Refusal := reduce 0x7FFFFFFF minNode d a g s
def execIredmax (d a : RegField) (g : GuardField) (s : State) : Host.Outcome State Fault Refusal := reduce 0x80000000 maxNode d a g s
def execIredor (d a : RegField) (g : GuardField) (s : State) : Host.Outcome State Fault Refusal := reduce 0 orNode d a g s
def execIredand (d a : RegField) (g : GuardField) (s : State) : Host.Outcome State Fault Refusal := reduce 0xFFFFFFFF andNode d a g s
def execFredadd (d a : RegField) (g : GuardField) (s : State) : Host.Outcome State Fault Refusal := reduce 0x80000000 faddNode d a g s
def execFredmin (d a : RegField) (g : GuardField) (s : State) : Host.Outcome State Fault Refusal := reduce 0x7F800000 fminNode d a g s
def execFredmax (d a : RegField) (g : GuardField) (s : State) : Host.Outcome State Fault Refusal := reduce 0xFF800000 fmaxNode d a g s
def execIscan (d a : RegField) (g : GuardField) (s : State) : Host.Outcome State Fault Refusal := scan 0 false sumNode d a g s
def execIscanx (d a : RegField) (g : GuardField) (s : State) : Host.Outcome State Fault Refusal := scan 0 true sumNode d a g s
def execFscan (d a : RegField) (g : GuardField) (s : State) : Host.Outcome State Fault Refusal := scan 0x80000000 false faddNode d a g s
def execFscanx (d a : RegField) (g : GuardField) (s : State) : Host.Outcome State Fault Refusal := scan 0x80000000 true faddNode d a g s
def execIscanmax (d a : RegField) (g : GuardField) (s : State) : Host.Outcome State Fault Refusal := scan 0x80000000 false maxNode d a g s
def execIscanor (d a : RegField) (g : GuardField) (s : State) : Host.Outcome State Fault Refusal := scan 0 false orNode d a g s

end Sys2Proof.Machine
end

