-- ==== Sys2Proof/Machine/Sha3.lean ====
section
/-! DEFINITION. SHA3-256 of bytes, which the measurements of the attestation report are (R436; log entry 35). -/

namespace Sys2Proof.Machine

/-- Lane (x, y) of a state of 25 words. -/
def sha3Lane (a : List Dword) (x y : Nat) : Dword := (a[5 * (y % 5) + x % 5]?).getD 0

/-- The parity of a column. -/
def sha3Column (a : List Dword) (x : Nat) : Dword := (List.range 5).foldl (fun v y => v ^^^ sha3Lane a x y) 0

/-- By how much lane x + 5 y turns. -/
def sha3Turn (x y : Nat) : Nat :=
  (([0, 1, 62, 28, 27, 36, 44, 6, 55, 20, 3, 10, 43] ++ [25, 39, 41, 45, 15, 21, 8, 18, 2, 61, 56, 14])[5 * (y % 5) + x % 5]?).getD 0

/-- The first step of a round: every lane takes the parities of two columns. -/
def sha3Mix (a : List Dword) : List Dword :=
  (List.range 25).map fun j => sha3Lane a j (j / 5) ^^^ sha3Column a (j + 4) ^^^ (sha3Column a (j + 1)).rotateLeft 1

/-- The second: the lanes turn and change places. -/
def sha3Move (a : List Dword) : List Dword :=
  (List.range 25).map fun j => (sha3Lane a (j % 5 + 3 * (j / 5)) j).rotateLeft (sha3Turn (j % 5 + 3 * (j / 5)) j)

/-- The third: each row. -/
def sha3Rows (a : List Dword) : List Dword :=
  (List.range 25).map fun j => sha3Lane a j (j / 5) ^^^ (~~~(sha3Lane a (j + 1) (j / 5)) &&& sha3Lane a (j + 2) (j / 5))

/-- The constants of the rounds. -/
def sha3Constants : List Dword :=
  [0x0000000000000001, 0x0000000000008082, 0x800000000000808A, 0x8000000080008000, 0x000000000000808B, 0x0000000080000001,
   0x8000000080008081, 0x8000000000008009, 0x000000000000008A, 0x0000000000000088, 0x0000000080008009, 0x000000008000000A] ++
  [0x000000008000808B, 0x800000000000008B, 0x8000000000008089, 0x8000000000008003, 0x8000000000008002, 0x8000000000000080,
   0x000000000000800A, 0x800000008000000A, 0x8000000080008081, 0x8000000000008080, 0x0000000080000001, 0x8000000080008008]

/-- The permutation of a state. -/
def sha3Permute (a : List Dword) : List Dword :=
  sha3Constants.foldl (fun a c => match sha3Rows (sha3Move (sha3Mix a)) with
    | [] => []
    | v :: r => (v ^^^ c) :: r) a

/-- The message with its padding, in blocks of 136 bytes. -/
def sha3Padded (m : List Byte) : List Byte :=
  let n := 135 - m.length % 136
  m ++ (if n = 0 then [0x86] else 0x06 :: List.replicate (n - 1) 0 ++ [0x80])

/-- Takes in n blocks. -/
def sha3Absorb (a : List Dword) (m : List Byte) : Nat → List Dword
  | 0 => a
  | n + 1 =>
    sha3Absorb (sha3Permute ((List.range 25).map fun j =>
      (a[j]?).getD 0 ^^^ (if j < 17 then BitVec.ofNat 64 (natOfBytes ((m.drop (8 * j)).take 8)) else 0))) (m.drop 136) n

/-- SHA3-256: 32 bytes. -/
def sha3 (m : List Byte) : List Byte :=
  let p := sha3Padded m
  ((sha3Absorb (List.replicate 25 0) p (p.length / 136)).take 4).flatMap fun v => bytesOfNat v.toNat 8

end Sys2Proof.Machine
end

