-- ==== Sys2Proof/Machine/Package.lean ====
section
/-! DEFINITION. What the outside does to the package: host accesses, bring-up and features, attestation, refresh ownership, power
and temperature (R422 to R437). -/

namespace Sys2Proof.Machine

/-! ### Host registers (R424, R430 to R433) -/

/-- MSI-X vector 0: the management functions (R425). -/
def HostPart.manage (h : HostPart) : HostPart := { h with msix := 0 :: h.msix }

/-- The phase in which the host reaches all of BAR0: features or ready (R430). -/
def HostPart.reached (h : HostPart) : Bool := h.phase == 3 || h.phase == 4

/-- HOST_REG_WRITE: a write to a host window register, HAPBASE or ANONCE; a write to a register that the phase does not reach, or
that stores nothing, is dropped (R424, R430, R433, R436). -/
def execHostRegWrite (addr : Nat) (v : BitVec 64) (s : State) : Host.Outcome State Fault Refusal :=
  let h := s.host
  let page : Dword := v &&& ~~~(0xFFF : Dword)
  let k := (addr - 0x200) / 16
  .next (s.modHost fun _ =>
    if 0x200 ≤ addr ∧ addr < 0x280 ∧ addr % 8 = 0 then
      if h.phase ≠ 2 || h.hwlock then h
      else if addr % 16 = 0 then { h with hwinBase := SMap.setWord h.hwinBase k page }
      else { h with hwinLim := SMap.setWord h.hwinLim k page }
    else if addr = 0x1000 then
      if h.reached then { h with hapBase := v &&& 0xF000000000 } else h
    else if 0x300 ≤ addr ∧ addr < 0x320 ∧ addr % 8 = 0 then
      if h.reached then { h with anonce := SMap.setWord h.anonce ((addr - 0x300) / 8) v } else h
    else h)

/-- HEVT_WRITE: ones clear flags (R424). -/
def execHevtWrite (v : BitVec 64) (s : State) : Host.Outcome State Fault Refusal :=
  .next (if s.host.reached then s.modHost fun h => { h with hevt := h.hevt &&& ~~~(v &&& 7) } else s)

/-- HECC_WRITE: ones clear count bits (R431). -/
def execHeccWrite (v : BitVec 64) (s : State) : Host.Outcome State Fault Refusal :=
  .next (if s.host.reached then s.modHost fun h => { h with
    ce := h.ce &&& ~~~(v.setWidth 32), ue := h.ue &&& ~~~((v >>> 32).setWidth 32) } else s)

/-- HWLOCK_WRITE: a 1 locks the host windows and moves phase 2 to phase 3 (R430, R433). -/
def execHwlockWrite (v : BitVec 64) (s : State) : Host.Outcome State Fault Refusal :=
  .next (if s.host.phase = 2 && v.getLsbD 0 then s.modHost fun h => { h with hwlock := true, phase := 3 } else s)

/-- FOFFERw: only bits 4:0 of word 0 are ever offered (R432). -/
def featureOffer (w : Nat) : Dword := if w = 0 then Config.features.setWidth 64 else 0

/-- FACCEPT_WRITE: in phase 3 a feature word is stored, ANDed with what is offered (R432). -/
def execFacceptWrite (w : Nat) (v : BitVec 64) (s : State) : Host.Outcome State Fault Refusal :=
  .next (if s.host.phase = 3 && decide (w < 4) then
    s.modHost fun h => { h with facc := SMap.setWord h.facc w (v &&& featureOffer w) } else s)

/-- FCOMMIT_WRITE: a 1 fixes FACCEPT and moves phase 3 to phase 4 (R430, R432). -/
def execFcommitWrite (v : BitVec 64) (s : State) : Host.Outcome State Fault Refusal :=
  .next (if s.host.phase = 3 && v.getLsbD 0 then s.modHost fun h => { h.manage with phase := 4 } else s)

/-! ### Attestation (R436) -/

/-- HID (R431). -/
def hostId : Dword := BitVec.ofNat 64 (0x0F044B4E + 2 ^ 32 * Config.revision.toNat + 2 ^ 40 * Config.pkgId.toNat)

/-- ACMD_WRITE: a 1 starts a report for the nonce, unless one is being produced. -/
def execAcmdWrite (v : BitVec 64) (s : State) : Host.Outcome State Fault Refusal :=
  .next (if s.host.reached && v.getLsbD 0 && !s.host.attesting then
    s.modHost fun h => { h with attesting := true, nonce := h.anonce } else s)

/-- Words 0 to n - 1 of a register bank. -/
def bankWords (m : SMap Dword) (n : Nat) : List Dword := (List.range n).map (SMap.word m)

/-- Registers as they are measured: eight bytes each, the lowest first (log entry 35). -/
def measuredBytes (l : List Dword) : List Byte := l.flatMap fun w => bytesOfNat w.toNat 8

/-- What M0 to M3 measure: the firmware image, the fuse state, the host windows with HWLOCK, and FACCEPT, zero before it is fixed;
registers stand in the order of their addresses (log entry 35). -/
def HostPart.measured (h : HostPart) : List (List Byte) :=
  [Config.firmware, Config.fuses,
    measuredBytes (((List.range 8).flatMap fun w => [SMap.word h.hwinBase w, SMap.word h.hwinLim w])
      ++ [BitVec.ofNat 64 (h.hwlock.toNat + 2 ^ 32 * h.hwCount.toNat)]),
    measuredBytes (if h.phase = 4 then bankWords h.facc 4 else [0, 0, 0, 0])]

/-- Bytes 0 to 167 of a report: HID, nonce, M0 to M3, each SHA3-256. -/
def HostPart.reportBody (h : HostPart) : List Byte :=
  bytesOfNat hostId.toNat 8 ++ measuredBytes (bankWords h.nonce 4) ++ h.measured.flatMap sha3

/-- A whole report: its body, the signature over it, and zeros; `draw` is what the signing draws. -/
def HostPart.wholeReport (h : HostPart) (draw : Dword) : List Byte :=
  h.reportBody ++ (List.range 3309).map (Config.signature h.reportBody draw) ++ List.replicate 619 0

/-- ATTESTATION_REPORT_DONE: the report is written, ASTAT set, and vector 0 raised (R436; log entry 35). -/
def execAttestationReportDone (s : State) : Host.Outcome State Fault Refusal :=
  if !s.host.attesting || !s.host.reached then .next s
  else
    let (draw, s) := s.freeValue
    .next (s.modHost fun h => { h.manage with attesting := false, astat := true, report := some (h.wholeReport draw) })

/-! ### What a host read of BAR0 gives (R6, R424, R430 to R433, R436) -/

/-- HSTAT (R431). -/
def HostPart.status (h : HostPart) : Dword :=
  BitVec.ofNat 64 (h.phase % 8 + 2 ^ 8 * (h.fail % 16) + 2 ^ 16 * h.tko.toNat + 2 ^ 32 * h.pclamp.toNat + 2 ^ 33 * h.tclamp.toNat
    + 2 ^ 48 * h.clk)

/-- The doubleword at a byte offset of the report or of the public key. -/
def dwordOfBytes (bs : List Byte) (off : Nat) : Dword := BitVec.ofNat 64 (natOfBytes ((bs.drop off).take 8))

/-- The BAR0 doubleword at an address, in a phase that reaches it; none where the spec puts no register, or gives no contents
(the report before there is one). ACMD and FCOMMIT are write only and read zero. -/
def HostPart.register (h : HostPart) (addr : Nat) : Option Dword :=
  if addr % 8 ≠ 0 then none
  else if addr = 0 then some hostId
  else if addr = 8 then some h.status
  else if addr = 0x10 then some (h.ue ++ h.ce)
  else if 0x100 ≤ addr ∧ addr < 0x120 then some (featureOffer ((addr - 0x100) / 8))
  else if 0x120 ≤ addr ∧ addr < 0x140 then some (SMap.word h.facc ((addr - 0x120) / 8))
  else if addr = 0x140 then some 0
  else if 0x200 ≤ addr ∧ addr < 0x280 then
    some (SMap.word (if addr % 16 = 0 then h.hwinBase else h.hwinLim) ((addr - 0x200) / 16))
  else if addr = 0x280 then some (BitVec.ofNat 64 (h.hwlock.toNat + 2 ^ 32 * h.hwCount.toNat))
  else if 0x300 ≤ addr ∧ addr < 0x320 then some (SMap.word h.anonce ((addr - 0x300) / 8))
  else if addr = 0x320 then some 0
  else if addr = 0x328 then some (BitVec.ofNat 64 h.astat.toNat)
  else if addr = 0x1000 then some h.hapBase
  else if addr = 0x1008 then some h.hevt
  else if 0x4000 ≤ addr ∧ addr < 0x5000 then h.report.map fun r => dwordOfBytes r (addr - 0x4000)
  else if 0x6000 ≤ addr ∧ addr < 0x6000 + 1952 then
    some (dwordOfBytes ((List.range 1952).map Config.publicKey) (addr - 0x6000))
  else none

/-- Whether the phase lets the host reach a BAR0 register (R430). -/
def HostPart.reaches (h : HostPart) (addr : Nat) : Bool :=
  match h.phase with
  | 0 => false
  | 1 | 5 => addr == 0 || addr == 8
  | 2 => addr == 0 || addr == 8 || (decide (0x200 ≤ addr) && decide (addr ≤ 0x280))
  | _ => true

/-- A host read of the BAR0 doubleword at an address: all ones where the phase does not reach it (R430). Such a read changes
nothing, and the opcode table gives it no step (log entry 84). -/
def HostPart.readRegister (h : HostPart) (addr : Nat) : Option Dword :=
  if h.reaches addr then h.register addr else some (BitVec.allOnes 64)

/-! ### Reset and bring-up (R415, R430) -/

/-- The package in reset: nothing survives but what lies outside it (R430, R435). -/
def State.inReset (s : State) (h : HostPart) : State := { State.reset with host := h, tick := s.tick, free := s.free }

/-- PACKAGE_RESET: the release of reset starts bring-up, and the die-edge links and fabric ports train (R415, R430). -/
def execPackageReset (s : State) : Host.Outcome State Fault Refusal :=
  let s := s.inReset { HostPart.reset with phase := 1 }
  .next (s.modLink fun l => { l with
    edges := (List.range 72).map fun e => (e, LinkState.training)
    ports := (List.range 64).map fun p => (p, { Port.reset with state := .training }) })

/-- BRING_UP_DONE: self-test and training end in phase 2, or in phase 5 with FAIL 1 or 2 (R430, R431). -/
def execBringUpDone (fail : BitVec 4) (s : State) : Host.Outcome State Fault Refusal :=
  .next (if s.host.phase ≠ 1 || decide (2 < fail.toNat) then s
    else if fail = 0 then s.modHost fun h => { h with phase := 2 }
    else s.modHost fun h => { h.manage with phase := 5, fail := fail.toNat })

/-- An event of the host, of the boot ROM and the firmware, of the links' and the refresh's circuits, or of the clamps. -/
def isCircuit : Instr → Bool
  | .packageReset | .hostBar2Write .. | .hostBar2Read .. | .hostBar4Write .. | .hostBar4Read .. => true
  | .hostRegWrite .. | .hevtWrite .. | .heccWrite .. | .hwlockWrite .. | .facceptWrite .. | .fcommitWrite .. | .acmdWrite .. => true
  | .attestationReportDone .. | .bringUpDone .. => true
  | .linkTrained .. | .linkError .. | .linkRetrained .. | .linkFailureTimeout .. | .fpctlWrite .. => true
  | .heartbeatTimeout .. | .heartbeatResumed .. | .neighbourRefreshAlert .. | .alertCleared .. | .stackRefresh .. => true
  | .powerSense .. | .clockStepUp .. | .thermalStop => true
  | _ => false

/-- An agent may take a step: contexts and what they have set going run in phase 4 alone; before it only the host, the firmware and the
circuits act; in reset and after a failure nothing runs but the release of reset and what the host reads and drops (R430). -/
def State.eventRuns (s : State) (i : Instr) : Bool :=
  if s.host.phase = 4 then true
  else if s.host.phase ≠ 0 && s.host.phase ≠ 5 then isCircuit i
  else match i with
    | .packageReset => true
    | .hostBar2Read .. => true
    | .hostBar4Read .. => true
    | _ => false

/-! ### Host accesses to memory (R230, R422, R423, R432) -/

/-- The dispatch context on a die's dispatch core (R368). -/
def State.dispatchContext (s : State) (die : Nat) : Option Nat :=
  match s.holder (dispatchCore die) with
  | some (ctx, x) => if x.isDispatch then some ctx else none
  | none => none

/-- What a host read returns. -/
def State.answerHost (s : State) (bytes : List Byte) : State := s.modHost fun h => { h with answer := bytes }

/-- Where a BAR2 access lies: die and local address; none for an access that is dropped (R422, R423, R430). -/
def State.dispatchWindow (s : State) (addr size : Nat) : Option (Nat × Nat × Nat) :=
  if s.host.phase ≠ 4 || decide (2 ^ 22 ≤ addr) || !(size == 4 || size == 8) || addr % size ≠ 0 then none
  else (s.dispatchContext (addr / 2 ^ 20)).map fun ctx => (ctx, dispatchCore (addr / 2 ^ 20), addr % 2 ^ 20)

/-- HOST_BAR2_WRITE: a host store to a dispatch context's local space, once its page is there and the way from die 0, where all host
traffic enters, is up (R19, R415, R423). -/
def execHostBar2Write (addr size : Nat) (v : BitVec 64) (s : State) : Host.Outcome State Fault Refusal :=
  match s.dispatchWindow addr size with
  | none => .next s
  | some (ctx, c, a) => if !s.routeUp 0 (dieOf c) then .next s else match s.pages c ctx [a] none with
    | .waiting s => .next s
    | .refused _ _ s => .next s
    | .ready => .next (s.storeLocal ⟨ctx, 0⟩ c a size v.toNat)

/-- HOST_BAR2_READ: a host load from a dispatch context's local space (R423). -/
def execHostBar2Read (addr size : Nat) (s : State) : Host.Outcome State Fault Refusal :=
  let ones := List.replicate size (0xFF : Byte)
  match s.dispatchWindow addr size with
  | none => .next (s.answerHost ones)
  | some (ctx, c, a) => if !s.routeUp 0 (dieOf c) then .next s else match s.pages c ctx [a] none with
    | .waiting s => .next s
    | .refused _ _ s => .next (s.answerHost ones)
    | .ready =>
      let (v, s) := s.loadLocal ⟨ctx, 0⟩ c a size
      .next (s.answerHost (bytesOfNat v size))

/-- The aperture answers: phase 4, its feature accepted, inside 64 GiB (R422, R430, R432). -/
def State.apertureOpen (s : State) (off size : Nat) : Bool :=
  s.host.phase == 4 && s.feature 4 && decide (off + size ≤ 2 ^ 36)

/-- HOST_BAR4_WRITE: a host write is taken by the L2 once its slices serve it; bytes from HBMTOP on are discarded (R19, R230, R233, R423). -/
def execHostBar4Write (off : Nat) (bytes : List Byte) (s : State) : Host.Outcome State Fault Refusal :=
  let a := s.host.hapBase.toNat + off
  if !s.apertureOpen off bytes.length || !(linesOf a bytes.length).all (s.lineAnswers 0) then .next s
  else .next (s.checkedWrite a (bytes.take (hbmTop - a)))

/-- The bytes that an aperture read returns: all ones from HBMTOP on (R230). -/
def State.apertureBytes (s : State) (a size : Nat) : List Byte × State :=
  let (bytes, s) := s.checkedBytes a (min size (hbmTop - a))
  (bytes ++ List.replicate (size - (hbmTop - a)) 0xFF, s)

/-- HOST_BAR4_READ (R230, R429, R430, R432). -/
def execHostBar4Read (off size : Nat) (s : State) : Host.Outcome State Fault Refusal :=
  let a := s.host.hapBase.toNat + off
  if !s.apertureOpen off size then .next (s.answerHost (List.replicate size 0xFF))
  else if !(linesOf a (min size (hbmTop - a))).all (s.lineAnswers 0) then .next s
  else
    let (bytes, s) := s.apertureBytes a size
    .next (s.answerHost bytes)

/-! ### Refresh (R427, R428, R437) -/

/-- HEARTBEAT_TIMEOUT: the controllers take a stack's refresh over, and issue what is owed first. -/
def execHeartbeatTimeout (k : Nat) (s : State) : Host.Outcome State Fault Refusal :=
  .next (if s.host.tko.getLsbD k then s
    else s.modHost fun h => { h.manage with tko := putBit h.tko k true, owed := putBit h.owed k true })

/-- STACK_REFRESH: the controllers issue a refresh of a stack that they hold; with it the catch-up is finished. -/
def execStackRefresh (k : Nat) (s : State) : Host.Outcome State Fault Refusal :=
  .next (if s.host.tko.getLsbD k then s.modHost fun h => { h with owed := putBit h.owed k false } else s)

/-- HEARTBEAT_RESUMED: refresh returns to the base die, after any catch-up. -/
def execHeartbeatResumed (k : Nat) (s : State) : Host.Outcome State Fault Refusal :=
  .next (if s.host.tko.getLsbD k && !s.host.owed.getLsbD k then s.modHost fun h => { h.manage with tko := putBit h.tko k false }
    else s)

/-- NEIGHBOUR_REFRESH_ALERT: a stack's alert stops activates to it. -/
def execNeighbourRefreshAlert (k : Nat) (s : State) : Host.Outcome State Fault Refusal :=
  .next (s.modHost fun h => { h with alerts := putBit h.alerts k true })

/-- ALERT_CLEARED: the alert clears, and activates resume. -/
def execAlertCleared (k : Nat) (s : State) : Host.Outcome State Fault Refusal :=
  .next (s.modHost fun h => { h with alerts := putBit h.alerts k false })

/-! ### Power and temperature (R434, R435) -/

/-- The clock runs (R430, R435). -/
def HostPart.clocked (h : HostPart) : Bool := decide (1 ≤ h.phase) && decide (h.phase ≤ 4)

/-- POWER_SENSE: the clamps engage while a limit is exceeded, and the clock steps down once, whichever did (R434, R437). -/
def execPowerSense (milliwatts celsius : Nat) (s : State) : Host.Outcome State Fault Refusal :=
  let power := decide (3600000 < milliwatts)
  let hot := decide (105 < celsius)
  .next (if !s.host.clocked then s else s.modHost fun h =>
    let h' := { h with pclamp := power, tclamp := hot, clk := if power || hot then max 700 (h.clk - 50) else h.clk }
    let h' := if power && !h.pclamp then h'.manage else h'
    if hot && !h.tclamp then h'.manage else h')

/-- CLOCK_STEP_UP: below both lower limits the clock steps up (R434). -/
def execClockStepUp (milliwatts celsius : Nat) (s : State) : Host.Outcome State Fault Refusal :=
  .next (if s.host.clocked && decide (milliwatts < 3420000) && decide (celsius < 100) then
    s.modHost fun h => { h with clk := min 1400 (h.clk + 50) } else s)

/-- THERMAL_STOP: the package is held in reset (R430, R435). -/
def execThermalStop (s : State) : Host.Outcome State Fault Refusal :=
  .next (if s.host.clocked then s.inReset { HostPart.reset.manage with phase := 5, fail := 3 } else s)

end Sys2Proof.Machine
end

