-- ==== Sys2Proof/Machine/Dispatch.lean ====
section
/-! DEFINITION. The meaning of each instruction: one arm per constructor of `Instr`. -/

namespace Sys2Proof.Machine

def exec (i : Instr) (s : State) : Host.Outcome State Fault Refusal :=
  match i with
  | .ximmHint x => Sys2Proof.Machine.execXimmHint x s
  | .guardHint sf p => Sys2Proof.Machine.execGuardHint sf p s
  | .schedHint y c => Sys2Proof.Machine.execSchedHint y c s
  | .modHint l e c f sf n r => Sys2Proof.Machine.execModHint l e c f sf n r s
  | .add d a b g => Sys2Proof.Machine.execAdd d a b g s
  | .sub d a b g => Sys2Proof.Machine.execSub d a b g s
  | .mul d a b g => Sys2Proof.Machine.execMul d a b g s
  | .mulh d a b g => Sys2Proof.Machine.execMulh d a b g s
  | .mulhn d a b g => Sys2Proof.Machine.execMulhn d a b g s
  | .mad d a b g => Sys2Proof.Machine.execMad d a b g s
  | .minOp d a b g => Sys2Proof.Machine.execMinOp d a b g s
  | .maxOp d a b g => Sys2Proof.Machine.execMaxOp d a b g s
  | .andOp d a b g => Sys2Proof.Machine.execAndOp d a b g s
  | .orOp d a b g => Sys2Proof.Machine.execOrOp d a b g s
  | .xorOp d a b g => Sys2Proof.Machine.execXorOp d a b g s
  | .andn d a b g => Sys2Proof.Machine.execAndn d a b g s
  | .shl d a b g => Sys2Proof.Machine.execShl d a b g s
  | .shr d a b g => Sys2Proof.Machine.execShr d a b g s
  | .sar d a b g => Sys2Proof.Machine.execSar d a b g s
  | .rotl d a b g => Sys2Proof.Machine.execRotl d a b g s
  | .minn d a b g => Sys2Proof.Machine.execMinn d a b g s
  | .maxn d a b g => Sys2Proof.Machine.execMaxn d a b g s
  | .absOp d a g => Sys2Proof.Machine.execAbsOp d a g s
  | .neg d a g => Sys2Proof.Machine.execNeg d a g s
  | .fshr d a b g => Sys2Proof.Machine.execFshr d a b g s
  | .bfx d a b g => Sys2Proof.Machine.execBfx d a b g s
  | .bfi d a b g => Sys2Proof.Machine.execBfi d a b g s
  | .bprm d a b g => Sys2Proof.Machine.execBprm d a b g s
  | .popc d a g => Sys2Proof.Machine.execPopc d a g s
  | .clz d a g => Sys2Proof.Machine.execClz d a g s
  | .ctz d a g => Sys2Proof.Machine.execCtz d a g s
  | .brev d a g => Sys2Proof.Machine.execBrev d a g s
  | .mulw d a b g => Sys2Proof.Machine.execMulw d a b g s
  | .mulwn d a b g => Sys2Proof.Machine.execMulwn d a b g s
  | .addc d a b g => Sys2Proof.Machine.execAddc d a b g s
  | .subc d a b g => Sys2Proof.Machine.execSubc d a b g s
  | .addi d a v g => Sys2Proof.Machine.execAddi d a v g s
  | .andi d a v g => Sys2Proof.Machine.execAndi d a v g s
  | .ori d a v g => Sys2Proof.Machine.execOri d a v g s
  | .xori d a v g => Sys2Proof.Machine.execXori d a v g s
  | .shi d a k n g => Sys2Proof.Machine.execShi d a k n g s
  | .limm d v g => Sys2Proof.Machine.execLimm d v g s
  | .mov d a g => Sys2Proof.Machine.execMov d a g s
  | .sel d a b sf => Sys2Proof.Machine.execSel d a b sf s
  | .sxb d a g => Sys2Proof.Machine.execSxb d a g s
  | .sxh d a g => Sys2Proof.Machine.execSxh d a g s
  | .zxb d a g => Sys2Proof.Machine.execZxb d a g s
  | .zxh d a g => Sys2Proof.Machine.execZxh d a g s
  | .moder d g => Sys2Proof.Machine.execModer d g s
  | .modew a b g => Sys2Proof.Machine.execModew a b g s
  | .icmpEq p a b g => Sys2Proof.Machine.execIcmpEq p a b g s
  | .icmpNe p a b g => Sys2Proof.Machine.execIcmpNe p a b g s
  | .icmpLt p a b g => Sys2Proof.Machine.execIcmpLt p a b g s
  | .icmpLe p a b g => Sys2Proof.Machine.execIcmpLe p a b g s
  | .icmpLtn p a b g => Sys2Proof.Machine.execIcmpLtn p a b g s
  | .icmpLen p a b g => Sys2Proof.Machine.execIcmpLen p a b g s
  | .icmpBits p a b g => Sys2Proof.Machine.execIcmpBits p a b g s
  | .icmpNone p a b g => Sys2Proof.Machine.execIcmpNone p a b g s
  | .fcmpEq p a b g => Sys2Proof.Machine.execFcmpEq p a b g s
  | .fcmpNe p a b g => Sys2Proof.Machine.execFcmpNe p a b g s
  | .fcmpLt p a b g => Sys2Proof.Machine.execFcmpLt p a b g s
  | .fcmpLe p a b g => Sys2Proof.Machine.execFcmpLe p a b g s
  | .fcmpGt p a b g => Sys2Proof.Machine.execFcmpGt p a b g s
  | .fcmpGe p a b g => Sys2Proof.Machine.execFcmpGe p a b g s
  | .fcmpUn p a b g => Sys2Proof.Machine.execFcmpUn p a b g s
  | .fcmpOrd p a b g => Sys2Proof.Machine.execFcmpOrd p a b g s
  | .dcmpEq p a b g => Sys2Proof.Machine.execDcmpEq p a b g s
  | .dcmpNe p a b g => Sys2Proof.Machine.execDcmpNe p a b g s
  | .dcmpLt p a b g => Sys2Proof.Machine.execDcmpLt p a b g s
  | .dcmpLe p a b g => Sys2Proof.Machine.execDcmpLe p a b g s
  | .dcmpGt p a b g => Sys2Proof.Machine.execDcmpGt p a b g s
  | .dcmpGe p a b g => Sys2Proof.Machine.execDcmpGe p a b g s
  | .dcmpUn p a b g => Sys2Proof.Machine.execDcmpUn p a b g s
  | .dcmpOrd p a b g => Sys2Proof.Machine.execDcmpOrd p a b g s
  | .plopAnd p a b g => Sys2Proof.Machine.execPlopAnd p a b g s
  | .plopOr p a b g => Sys2Proof.Machine.execPlopOr p a b g s
  | .plopXor p a b g => Sys2Proof.Machine.execPlopXor p a b g s
  | .plopAndn p a b g => Sys2Proof.Machine.execPlopAndn p a b g s
  | .plopOrn p a b g => Sys2Proof.Machine.execPlopOrn p a b g s
  | .plopNand p a b g => Sys2Proof.Machine.execPlopNand p a b g s
  | .plopNor p a b g => Sys2Proof.Machine.execPlopNor p a b g s
  | .plopXnor p a b g => Sys2Proof.Machine.execPlopXnor p a b g s
  | .p2g d p g => Sys2Proof.Machine.execP2g d p g s
  | .g2p p a g => Sys2Proof.Machine.execG2p p a g s
  | .ballot d p g => Sys2Proof.Machine.execBallot d p g s
  | .anyOp q p g => Sys2Proof.Machine.execAnyOp q p g s
  | .allOp q p g => Sys2Proof.Machine.execAllOp q p g s
  | .uni p a g => Sys2Proof.Machine.execUni p a g s
  | .pgetw d n g => Sys2Proof.Machine.execPgetw d n g s
  | .psetw a n g => Sys2Proof.Machine.execPsetw a n g s
  | .fadd d a b g => Sys2Proof.Machine.execFadd d a b g s
  | .fsub d a b g => Sys2Proof.Machine.execFsub d a b g s
  | .fmul d a b g => Sys2Proof.Machine.execFmul d a b g s
  | .ffma d a b g => Sys2Proof.Machine.execFfma d a b g s
  | .ffms d a b g => Sys2Proof.Machine.execFfms d a b g s
  | .fmin d a b g => Sys2Proof.Machine.execFmin d a b g s
  | .fmax d a b g => Sys2Proof.Machine.execFmax d a b g s
  | .fabsn d a o g => Sys2Proof.Machine.execFabsn d a o g s
  | .frcp d a g => Sys2Proof.Machine.execFrcp d a g s
  | .frsq d a g => Sys2Proof.Machine.execFrsq d a g s
  | .fsqrt d a g => Sys2Proof.Machine.execFsqrt d a g s
  | .fex2 d a g => Sys2Proof.Machine.execFex2 d a g s
  | .flg2 d a g => Sys2Proof.Machine.execFlg2 d a g s
  | .fsin d a g => Sys2Proof.Machine.execFsin d a g s
  | .fcos d a g => Sys2Proof.Machine.execFcos d a g s
  | .frint d a g => Sys2Proof.Machine.execFrint d a g s
  | .dadd d a b g => Sys2Proof.Machine.execDadd d a b g s
  | .dsub d a b g => Sys2Proof.Machine.execDsub d a b g s
  | .dmul d a b g => Sys2Proof.Machine.execDmul d a b g s
  | .dfma d a b g => Sys2Proof.Machine.execDfma d a b g s
  | .dmin d a b g => Sys2Proof.Machine.execDmin d a b g s
  | .dmax d a b g => Sys2Proof.Machine.execDmax d a b g s
  | .dabsn d a o g => Sys2Proof.Machine.execDabsn d a o g s
  | .dsqrt d a g => Sys2Proof.Machine.execDsqrt d a g s
  | .hadd2 d a b g => Sys2Proof.Machine.execHadd2 d a b g s
  | .hmul2 d a b g => Sys2Proof.Machine.execHmul2 d a b g s
  | .hfma2 d a b g => Sys2Proof.Machine.execHfma2 d a b g s
  | .hmax2 d a b g => Sys2Proof.Machine.execHmax2 d a b g s
  | .badd2 d a b g => Sys2Proof.Machine.execBadd2 d a b g s
  | .bmul2 d a b g => Sys2Proof.Machine.execBmul2 d a b g s
  | .bfma2 d a b g => Sys2Proof.Machine.execBfma2 d a b g s
  | .bmax2 d a b g => Sys2Proof.Machine.execBmax2 d a b g s
  | .f2i d a g => Sys2Proof.Machine.execF2i d a g s
  | .i2f d a g => Sys2Proof.Machine.execI2f d a g s
  | .f2n d a g => Sys2Proof.Machine.execF2n d a g s
  | .n2f d a g => Sys2Proof.Machine.execN2f d a g s
  | .f2d d a g => Sys2Proof.Machine.execF2d d a g s
  | .d2f d a g => Sys2Proof.Machine.execD2f d a g s
  | .f2h2 d a b g => Sys2Proof.Machine.execF2h2 d a b g s
  | .f2b2 d a b g => Sys2Proof.Machine.execF2b2 d a b g s
  | .h2f d a g => Sys2Proof.Machine.execH2f d a g s
  | .b2f d a g => Sys2Proof.Machine.execB2f d a g s
  | .d2i d a g => Sys2Proof.Machine.execD2i d a g s
  | .i2d d a g => Sys2Proof.Machine.execI2d d a g s
  | .f2k d a b g => Sys2Proof.Machine.execF2k d a b g s
  | .k2f d a h g => Sys2Proof.Machine.execK2f d a h g s
  | .shfli d a b g => Sys2Proof.Machine.execShfli d a b g s
  | .shflu d a k g => Sys2Proof.Machine.execShflu d a k g s
  | .shfld d a k g => Sys2Proof.Machine.execShfld d a k g s
  | .shflx d a k g => Sys2Proof.Machine.execShflx d a k g s
  | .confl d a g => Sys2Proof.Machine.execConfl d a g s
  | .matchOp d a g => Sys2Proof.Machine.execMatchOp d a g s
  | .bcast d a k g => Sys2Proof.Machine.execBcast d a k g s
  | .iredadd d a g => Sys2Proof.Machine.execIredadd d a g s
  | .iredmin d a g => Sys2Proof.Machine.execIredmin d a g s
  | .iredmax d a g => Sys2Proof.Machine.execIredmax d a g s
  | .iredor d a g => Sys2Proof.Machine.execIredor d a g s
  | .iredand d a g => Sys2Proof.Machine.execIredand d a g s
  | .fredadd d a g => Sys2Proof.Machine.execFredadd d a g s
  | .fredmin d a g => Sys2Proof.Machine.execFredmin d a g s
  | .fredmax d a g => Sys2Proof.Machine.execFredmax d a g s
  | .iscan d a g => Sys2Proof.Machine.execIscan d a g s
  | .iscanx d a g => Sys2Proof.Machine.execIscanx d a g s
  | .fscan d a g => Sys2Proof.Machine.execFscan d a g s
  | .fscanx d a g => Sys2Proof.Machine.execFscanx d a g s
  | .iscanmax d a g => Sys2Proof.Machine.execIscanmax d a g s
  | .iscanor d a g => Sys2Proof.Machine.execIscanor d a g s
  | .lbind a k g => Sys2Proof.Machine.execLbind a k g s
  | .lfree g => Sys2Proof.Machine.execLfree g s
  | .ladd d a b g => Sys2Proof.Machine.execLadd d a b g s
  | .lsub d a b g => Sys2Proof.Machine.execLsub d a b g s
  | .lneg d a g => Sys2Proof.Machine.execLneg d a g s
  | .lshl d a b g => Sys2Proof.Machine.execLshl d a b g s
  | .lshr d a b g => Sys2Proof.Machine.execLshr d a b g s
  | .lcmp d a b g => Sys2Proof.Machine.execLcmp d a b g s
  | .lmuls d a b g => Sys2Proof.Machine.execLmuls d a b g s
  | .ldep d a g => Sys2Proof.Machine.execLdep d a g s
  | .ldepd d a g => Sys2Proof.Machine.execLdepd d a g s
  | .lrnd d a g => Sys2Proof.Machine.execLrnd d a g s
  | .lrndd d a g => Sys2Proof.Machine.execLrndd d a g s
  | .ltop d a g => Sys2Proof.Machine.execLtop d a g s
  | .lstat d g => Sys2Proof.Machine.execLstat d g s
  | .lclr m g => Sys2Proof.Machine.execLclr m g s
  | .bra o g => Sys2Proof.Machine.execBra o g s
  | .call o g => Sys2Proof.Machine.execCall o g s
  | .split o g => Sys2Proof.Machine.execSplit o g s
  | .join g => Sys2Proof.Machine.execJoin g s
  | .brk n o g => Sys2Proof.Machine.execBrk n o g s
  | .yield g => Sys2Proof.Machine.execYield g s
  | .endOp g => Sys2Proof.Machine.execEndOp g s
  | .nop g => Sys2Proof.Machine.execNop g s
  | .jmp a g => Sys2Proof.Machine.execJmp a g s
  | .callr d a g => Sys2Proof.Machine.execCallr d a g s
  | .ret a g => Sys2Proof.Machine.execRet a g s
  | .reform a n g => Sys2Proof.Machine.execReform a n g s
  | .loop a n g => Sys2Proof.Machine.execLoop a n g s
  | .repeatOp n g => Sys2Proof.Machine.execRepeatOp n g s
  | .qmap d a b g => Sys2Proof.Machine.execQmap d a b g s
  | .qstat d a g => Sys2Proof.Machine.execQstat d a g s
  | .ldl t b o sf g => Sys2Proof.Machine.execLdl t b o sf g s
  | .stl t b o sf g => Sys2Proof.Machine.execStl t b o sf g s
  | .ldc t b o sf g => Sys2Proof.Machine.execLdc t b o sf g s
  | .stc t b o sf g => Sys2Proof.Machine.execStc t b o sf g s
  | .aadd d a b g => Sys2Proof.Machine.execAadd d a b g s
  | .amin d a b g => Sys2Proof.Machine.execAmin d a b g s
  | .amax d a b g => Sys2Proof.Machine.execAmax d a b g s
  | .aand d a b g => Sys2Proof.Machine.execAand d a b g s
  | .aor d a b g => Sys2Proof.Machine.execAor d a b g s
  | .axor d a b g => Sys2Proof.Machine.execAxor d a b g s
  | .axch d a b g => Sys2Proof.Machine.execAxch d a b g s
  | .afadd d a b g => Sys2Proof.Machine.execAfadd d a b g s
  | .acas d a b g => Sys2Proof.Machine.execAcas d a b g s
  | .watch a g => Sys2Proof.Machine.execWatch a g s
  | .unwatch a g => Sys2Proof.Machine.execUnwatch a g s
  | .waitw d a b g => Sys2Proof.Machine.execWaitw d a b g s
  | .waitge d a b g => Sys2Proof.Machine.execWaitge d a b g s
  | .fence g => Sys2Proof.Machine.execFence g s
  | .ldx d a b g => Sys2Proof.Machine.execLdx d a b g s
  | .stx d a b g => Sys2Proof.Machine.execStx d a b g s
  | .cstr d a b g => Sys2Proof.Machine.execCstr d a b g s
  | .xlde d a g => Sys2Proof.Machine.execXlde d a g s
  | .ldt d a b g => Sys2Proof.Machine.execLdt d a b g s
  | .bldl d a b g => Sys2Proof.Machine.execBldl d a b g s
  | .haul a b q g => Sys2Proof.Machine.execHaul a b q g s
  | .stow a b q g => Sys2Proof.Machine.execStow a b q g s
  | .haul2 a b q g => Sys2Proof.Machine.execHaul2 a b q g s
  | .stow2 a b q g => Sys2Proof.Machine.execStow2 a b q g s
  | .hault a b q g => Sys2Proof.Machine.execHault a b q g s
  | .qfence m g => Sys2Proof.Machine.execQfence m g s
  | .cbump a b q g => Sys2Proof.Machine.execCbump a b q g s
  | .xstat a q g => Sys2Proof.Machine.execXstat a q g s
  | .claim a b g => Sys2Proof.Machine.execClaim a b g s
  | .release a g => Sys2Proof.Machine.execRelease a g s
  | .tstat a sf g => Sys2Proof.Machine.execTstat a sf g s
  | .tfill a b g => Sys2Proof.Machine.execTfill a b g s
  | .tdrain a b g => Sys2Proof.Machine.execTdrain a b g s
  | .cvtom a sf c g => Sys2Proof.Machine.execCvtom a sf c g s
  | .accz c g => Sys2Proof.Machine.execAccz c g s
  | .accrd a h c g => Sys2Proof.Machine.execAccrd a h c g s
  | .accwr a h c g => Sys2Proof.Machine.execAccwr a h c g s
  | .commit a g => Sys2Proof.Machine.execCommit a g s
  | .waitb a g => Sys2Proof.Machine.execWaitb a g s
  | .splice sf m g => Sys2Proof.Machine.execSplice sf m g s
  | .mma a b c g => Sys2Proof.Machine.execMma a b c g s
  | .mmat a b c g => Sys2Proof.Machine.execMmat a b c g s
  | .mmss a b q c g => Sys2Proof.Machine.execMmss a b q c g s
  | .mmas a b t f c g => Sys2Proof.Machine.execMmas a b t f c g s
  | .pstat a sf g => Sys2Proof.Machine.execPstat a sf g s
  | .pinv sf g => Sys2Proof.Machine.execPinv sf g s
  | .gather d a b g => Sys2Proof.Machine.execGather d a b g s
  | .scatter d a b g => Sys2Proof.Machine.execScatter d a b g s
  | .scadd d a b g => Sys2Proof.Machine.execScadd d a b g s
  | .scfadd d a b g => Sys2Proof.Machine.execScfadd d a b g s
  | .scmin d a b g => Sys2Proof.Machine.execScmin d a b g s
  | .scmax d a b g => Sys2Proof.Machine.execScmax d a b g s
  | .hacc d a b g => Sys2Proof.Machine.execHacc d a b g s
  | .hfind d a b g => Sys2Proof.Machine.execHfind d a b g s
  | .send a b g => Sys2Proof.Machine.execSend a b g s
  | .hbind a b g => Sys2Proof.Machine.execHbind a b g s
  | .hunbind a g => Sys2Proof.Machine.execHunbind a g s
  | .hdone g => Sys2Proof.Machine.execHdone g s
  | .mpost a b m g => Sys2Proof.Machine.execMpost a b m g s
  | .mtake a m g => Sys2Proof.Machine.execMtake a m g s
  | .maskon g => Sys2Proof.Machine.execMaskon g s
  | .maskoff g => Sys2Proof.Machine.execMaskoff g s
  | .wsplit a g => Sys2Proof.Machine.execWsplit a g s
  | .wret a b g => Sys2Proof.Machine.execWret a b g s
  | .rsend a b g => Sys2Proof.Machine.execRsend a b g s
  | .rld a b g => Sys2Proof.Machine.execRld a b g s
  | .rbox4 a b f g => Sys2Proof.Machine.execRbox4 a b f g s
  | .rtri a b f g => Sys2Proof.Machine.execRtri a b f g s
  | .rhit a b g => Sys2Proof.Machine.execRhit a b g s
  | .town a b g => Sys2Proof.Machine.execTown a b g s
  | .tpin a b g => Sys2Proof.Machine.execTpin a b g s
  | .tevict a g => Sys2Proof.Machine.execTevict a g s
  | .bar v sf g => Sys2Proof.Machine.execBar v sf g s
  | .bara a v sf g => Sys2Proof.Machine.execBara a v sf g s
  | .barw a v sf g => Sys2Proof.Machine.execBarw a v sf g s
  | .barinit a v sf g => Sys2Proof.Machine.execBarinit a v sf g s
  | .cntsum a v sf g => Sys2Proof.Machine.execCntsum a v sf g s
  | .launch a b g => Sys2Proof.Machine.execLaunch a b g s
  | .kwait a g => Sys2Proof.Machine.execKwait a g s
  | .kstat a b g => Sys2Proof.Machine.execKstat a b g s
  | .trap g => Sys2Proof.Machine.execTrap g s
  | .rte g => Sys2Proof.Machine.execRte g s
  | .sysr a g => Sys2Proof.Machine.execSysr a g s
  | .sysw a g => Sys2Proof.Machine.execSysw a g s
  | .l2wb a b g => Sys2Proof.Machine.execL2wb a b g s
  | .l2inv a b g => Sys2Proof.Machine.execL2inv a b g s
  | .tsinv a b g => Sys2Proof.Machine.execTsinv a b g s
  | .lspin a b g => Sys2Proof.Machine.execLspin a b g s
  | .lsunpin a b g => Sys2Proof.Machine.execLsunpin a b g s
  | .halt a g => Sys2Proof.Machine.execHalt a g s
  | .csaveCreate a b g => Sys2Proof.Machine.execCsaveCreate a b g s
  | .csavePlace a b g => Sys2Proof.Machine.execCsavePlace a b g s
  | .csaveSave a b g => Sys2Proof.Machine.execCsaveSave a b g s
  | .csaveDestroy a b g => Sys2Proof.Machine.execCsaveDestroy a b g s
  | .csaveStatus a b g => Sys2Proof.Machine.execCsaveStatus a b g s
  | .groupPlacement ctx handle => Sys2Proof.Machine.execGroupPlacement ctx handle s
  | .groupRetirement core unit => Sys2Proof.Machine.execGroupRetirement core unit s
  | .binAgeExpiry core bin => Sys2Proof.Machine.execBinAgeExpiry core bin s
  | .hankPlacement core bin => Sys2Proof.Machine.execHankPlacement core bin s
  | .hitArrival core => Sys2Proof.Machine.execHitArrival core s
  | .hitRecordFiling core => Sys2Proof.Machine.execHitRecordFiling core s
  | .priorityAging core unit => Sys2Proof.Machine.execPriorityAging core unit s
  | .budgetLead core unit => Sys2Proof.Machine.execBudgetLead core unit s
  | .nnLinkDelivery core unit q => Sys2Proof.Machine.execNnLinkDelivery core unit q s
  | .launchPlacing ctx handle => Sys2Proof.Machine.execLaunchPlacing ctx handle s
  | .launchRetirement ctx handle => Sys2Proof.Machine.execLaunchRetirement ctx handle s
  | .dispatchFetchResume die => Sys2Proof.Machine.execDispatchFetchResume die s
  | .uncorrectableError pa => Sys2Proof.Machine.execUncorrectableError pa s
  | .rollbackComplete ctx handle => Sys2Proof.Machine.execRollbackComplete ctx handle s
  | .leaseRenewal core n => Sys2Proof.Machine.execLeaseRenewal core n s
  | .clusterLoadReply core n => Sys2Proof.Machine.execClusterLoadReply core n s
  | .storeAtHome core n => Sys2Proof.Machine.execStoreAtHome core n s
  | .storeAcknowledgement core n => Sys2Proof.Machine.execStoreAcknowledgement core n s
  | .logicalClockTick core => Sys2Proof.Machine.execLogicalClockTick core s
  | .watchRenewal core n => Sys2Proof.Machine.execWatchRenewal core n s
  | .waitPoll ref => Sys2Proof.Machine.execWaitPoll ref s
  | .barrierDeparture ctx scope inst id => Sys2Proof.Machine.execBarrierDeparture ctx scope inst id s
  | .podArrival setId id => Sys2Proof.Machine.execPodArrival setId id s
  | .lsPageFillComplete core ctx page => Sys2Proof.Machine.execLsPageFillComplete core ctx page s
  | .lsPageWritebackComplete core ctx page => Sys2Proof.Machine.execLsPageWritebackComplete core ctx page s
  | .translationWalk stn n => Sys2Proof.Machine.execTranslationWalk stn n s
  | .faultQueueRecheck stn ctx => Sys2Proof.Machine.execFaultQueueRecheck stn ctx s
  | .l2commit mask => Sys2Proof.Machine.execL2commit mask s
  | .l2CommitPoint => Sys2Proof.Machine.execL2CommitPoint s
  | .stationReload stn => Sys2Proof.Machine.execStationReload stn s
  | .l2Replay core unit q p line => Sys2Proof.Machine.execL2Replay core unit q p line s
  | .l2MaintenanceDone => Sys2Proof.Machine.execL2MaintenanceDone s
  | .tsinvComplete => Sys2Proof.Machine.execTsinvComplete s
  | .engineCommand core n => Sys2Proof.Machine.execEngineCommand core n s
  | .enginePiecePerformed core unit q p => Sys2Proof.Machine.execEnginePiecePerformed core unit q p s
  | .engineTrapDelivery core unit => Sys2Proof.Machine.execEngineTrapDelivery core unit s
  | .haultSlotWrite core unit q => Sys2Proof.Machine.execHaultSlotWrite core unit q s
  | .tfillComplete core n => Sys2Proof.Machine.execTfillComplete core n s
  | .tdrainComplete core n => Sys2Proof.Machine.execTdrainComplete core n s
  | .matrixStepStart core => Sys2Proof.Machine.execMatrixStepStart core s
  | .matrixStepComplete core => Sys2Proof.Machine.execMatrixStepComplete core s
  | .splicePairing core n => Sys2Proof.Machine.execSplicePairing core n s
  | .spliceExchangeComplete core n => Sys2Proof.Machine.execSpliceExchangeComplete core n s
  | .fidCompileStart core => Sys2Proof.Machine.execFidCompileStart core s
  | .fidCompileComplete core => Sys2Proof.Machine.execFidCompileComplete core s
  | .elementMessage core n => Sys2Proof.Machine.execElementMessage core n s
  | .elementReply core n => Sys2Proof.Machine.execElementReply core n s
  | .handlerDispatch core => Sys2Proof.Machine.execHandlerDispatch core s
  | .hdoneRelease core run => Sys2Proof.Machine.execHdoneRelease core run s
  | .budget core run => Sys2Proof.Machine.execBudget core run s
  | .maskWindow core run => Sys2Proof.Machine.execMaskWindow core run s
  | .mailboxPost core n => Sys2Proof.Machine.execMailboxPost core n s
  | .mailboxResend core n => Sys2Proof.Machine.execMailboxResend core n s
  | .weightReturn core n => Sys2Proof.Machine.execWeightReturn core n s
  | .directoryRay core n => Sys2Proof.Machine.execDirectoryRay core n s
  | .treeletLookup core n => Sys2Proof.Machine.execTreeletLookup core n s
  | .lookupReply core n => Sys2Proof.Machine.execLookupReply core n s
  | .ownerUpdate core n => Sys2Proof.Machine.execOwnerUpdate core n s
  | .frameRequest core n => Sys2Proof.Machine.execFrameRequest core n s
  | .frameGrant core n => Sys2Proof.Machine.execFrameGrant core n s
  | .tpinRequest core n => Sys2Proof.Machine.execTpinRequest core n s
  | .treeletFillComplete core frame => Sys2Proof.Machine.execTreeletFillComplete core frame s
  | .treeletFillFailed core frame => Sys2Proof.Machine.execTreeletFillFailed core frame s
  | .treeletCopyComplete core frame => Sys2Proof.Machine.execTreeletCopyComplete core frame s
  | .victimRetry core tid => Sys2Proof.Machine.execVictimRetry core tid s
  | .arrivalWindowRestart core => Sys2Proof.Machine.execArrivalWindowRestart core s
  | .parkedRayRelease core tid => Sys2Proof.Machine.execParkedRayRelease core tid s
  | .treeletEviction core frame => Sys2Proof.Machine.execTreeletEviction core frame s
  | .raySpill src dst => Sys2Proof.Machine.execRaySpill src dst s
  | .spillRingFeed core => Sys2Proof.Machine.execSpillRingFeed core s
  | .contextSaved ctx => Sys2Proof.Machine.execContextSaved ctx s
  | .contextRestored ctx => Sys2Proof.Machine.execContextRestored ctx s
  | .contextFreed ctx => Sys2Proof.Machine.execContextFreed ctx s
  | .packetRefusal src dst cls => Sys2Proof.Machine.execPacketRefusal src dst cls s
  | .flowAcknowledgement src dst cls => Sys2Proof.Machine.execFlowAcknowledgement src dst cls s
  | .slackPromotion src dst cls seq => Sys2Proof.Machine.execSlackPromotion src dst cls seq s
  | .linkTrained link => Sys2Proof.Machine.execLinkTrained link s
  | .linkError link => Sys2Proof.Machine.execLinkError link s
  | .linkRetrained link => Sys2Proof.Machine.execLinkRetrained link s
  | .linkFailureTimeout link => Sys2Proof.Machine.execLinkFailureTimeout link s
  | .fpctlWrite port en => Sys2Proof.Machine.execFpctlWrite port en s
  | .fabricPacket pkg seq op => Sys2Proof.Machine.execFabricPacket pkg seq op s
  | .fabricAcknowledgement pkg seq => Sys2Proof.Machine.execFabricAcknowledgement pkg seq s
  | .fabricAckTimer pkg => Sys2Proof.Machine.execFabricAckTimer pkg s
  | .fabricResendTimeout pkg => Sys2Proof.Machine.execFabricResendTimeout pkg s
  | .hostBar2Write addr size value => Sys2Proof.Machine.execHostBar2Write addr size value s
  | .hostBar2Read addr size => Sys2Proof.Machine.execHostBar2Read addr size s
  | .hostBar4Write off bytes => Sys2Proof.Machine.execHostBar4Write off bytes s
  | .hostBar4Read off size => Sys2Proof.Machine.execHostBar4Read off size s
  | .hostWriteCompletion core unit q p => Sys2Proof.Machine.execHostWriteCompletion core unit q p s
  | .hostRegWrite addr value => Sys2Proof.Machine.execHostRegWrite addr value s
  | .hevtWrite value => Sys2Proof.Machine.execHevtWrite value s
  | .heccWrite value => Sys2Proof.Machine.execHeccWrite value s
  | .hwlockWrite value => Sys2Proof.Machine.execHwlockWrite value s
  | .facceptWrite w value => Sys2Proof.Machine.execFacceptWrite w value s
  | .fcommitWrite value => Sys2Proof.Machine.execFcommitWrite value s
  | .acmdWrite value => Sys2Proof.Machine.execAcmdWrite value s
  | .attestationReportDone => Sys2Proof.Machine.execAttestationReportDone s
  | .packageReset => Sys2Proof.Machine.execPackageReset s
  | .bringUpDone fail => Sys2Proof.Machine.execBringUpDone fail s
  | .heartbeatTimeout stack => Sys2Proof.Machine.execHeartbeatTimeout stack s
  | .heartbeatResumed stack => Sys2Proof.Machine.execHeartbeatResumed stack s
  | .neighbourRefreshAlert stack => Sys2Proof.Machine.execNeighbourRefreshAlert stack s
  | .alertCleared stack => Sys2Proof.Machine.execAlertCleared stack s
  | .powerSense milliwatts celsius => Sys2Proof.Machine.execPowerSense milliwatts celsius s
  | .clockStepUp milliwatts celsius => Sys2Proof.Machine.execClockStepUp milliwatts celsius s
  | .thermalStop => Sys2Proof.Machine.execThermalStop s
  | .packetArrival src dst cls seq => Sys2Proof.Machine.execPacketArrival src dst cls seq s
  | .sliceRequest core unit q p line => Sys2Proof.Machine.execSliceRequest core unit q p line s
  | .hbm4ReadComplete core unit q p line corrected => Sys2Proof.Machine.execHbm4ReadComplete core unit q p line corrected s
  | .stackRefresh stack => Sys2Proof.Machine.execStackRefresh stack s
  | .frameHoldsTreelet core n => Sys2Proof.Machine.execFrameHoldsTreelet core n s

end Sys2Proof.Machine
end

