-- ==== Sys2Proof/Machine/Step.lean ====
section
/-! DEFINITION. The step of the machine: the next turn of the agenda, or one more from nature (log entry 1). The decoder it
calls is noncomputable for Lean's compiler (see Decode), and so is the step; the kernel evaluates both. -/

namespace Sys2Proof.Machine

/-- One word of a stream: fetched, decoded and executed (R40, R392). A stream that may not issue changes nothing. -/
noncomputable def issueWord (ref : StreamRef) (s : State) : Host.Outcome State Fault Refusal :=
  match s.issue ref with
  | none => .next { s with stalled := true }
  | some i =>
    match s.fetchNext i with
    | .waiting s => .next { s with stalled := true }
    | .refused va cause s => .next (s.refuseFetch i va cause)
    | .word w s =>
      let s := { s with cur := some ref }
      match decodeWord i.front.k w with
      | .ok instr => exec instr s
      | .error e => .next (runIllegal w (w / 2 ^ 26 == 0x3F || e == .reservedHint) (e == .unusedField) s)

/-- The stream's next unit would issue now (R376, R377, R451). -/
noncomputable def ready (s : State) (ref : StreamRef) : Bool :=
  match issueWord ref { s with stalled := false } with
  | .next t => !t.stalled
  | _ => false

/-- A stream that cannot issue asks for what it waits for: a page, a line, code (log entry 11). -/
noncomputable def attempt (s : State) (ref : StreamRef) : State :=
  match issueWord ref { s with stalled := false } with
  | .next t => if t.stalled then { t with stalled := false, cur := s.cur } else s
  | _ => s

/-- The stream's next word is MTAKE (R327). -/
noncomputable def takesMailbox (s : State) (ref : StreamRef) : Bool :=
  match s.issue ref with
  | none => false
  | some i => match s.fetchNext i with
    | .word w _ => match decodeWord i.front.k w with
      | .ok (.mtake ..) => true
      | _ => false
    | _ => false

/-- One cycle of a core: what its blocked streams wait for is asked for, and the streams that issue are chosen. -/
noncomputable def cycleTurn (s : State) (c : Nat) : State :=
  let s := (s.modCore c CoreState.begin).pushDue c
  let s := ((s.core c).streams c).foldl attempt s
  s.coreCycle (ready s) (takesMailbox s) c

/-- A turn: a core's cycle, which runs in phase 4 only (R430), one word of a stream, or one step of another agent. -/
noncomputable def turn (t : Turn) (s : State) : Host.Outcome State Fault Refusal :=
  match t with
  | .cycle c => if s.host.phase = 4 then .next (cycleTurn s c) else .next s
  | .stream ref => issueWord ref { s with stalled := false }
  | .poll ref => .next (attempt s ref)
  | .event i => if i.wellFormed && (encode i).isNone && s.eventRuns i then exec i s else .next s

/-- One step. -/
noncomputable def step (s : State) : Host.Outcome State Fault Refusal :=
  match s.agenda with
  | t :: more => turn t { s with agenda := more }
  | [] => .next { s with tick := s.tick + 1, agenda := [(Config.nature s.tick).turn] }

/-- The state in which the next step fetches and runs the instruction whose bits are `w`. -/
def State.withFetchWord (s : State) (nbits w : Nat) : State := s.placeWord (w % 2 ^ nbits)

end Sys2Proof.Machine
end

