-- ==== Sys2Proof/Safety.lean ====
section
/-! DEFINITION. The terms in which claims speak of the machine: when a word issues as a unit, what its completion and its traps
leave, what its one result is, and which parts of the state a claim compares. -/

namespace Sys2Proof.Machine

/-- The state in which a turn has begun. -/
def State.awake (s : State) : State := { s with stalled := false }

/-- The active lanes of a word with guard field g (R29). -/
def State.activeLanes (s : State) (t : Attr) (g : GuardField) (j : Issue) : LaneMask :=
  if t.guard then s.awake.guarded j (guardOf g j.front.hints) else j.lanes

/-- A word reaches its guard: the stream j issues it, no trap is due, no FENCE or masked window holds it, and its GUARD hint may
stand before it (R26, R27, R34, R202, R252, R322, R328, R400). -/
structure Reaches (t : Attr) (g : GuardField) (s : State) (j : Issue) : Prop where
  stream : s.cur.bind s.issue = some j
  noTrap : s.awake.dueTrap j = none
  notFenced : s.awake.fenced j = false
  inWindow : s.awake.maskExceeded j = false
  guardOk : t.guardOk g j.front.hints = true
  guardInRange : guardInRange j.kind j.front.hints = true

/-- A word issues as unit i: it reaches its guard, which holds in the lanes i.active, and its place, its mode and its hints are
ones that its instruction accepts (R27 to R29, R36 to R43, R143, R395). -/
structure Issues (t : Attr) (g : GuardField) (s : State) (i : Issue) : Prop where
  reaches : ∃ j, Reaches t g s j ∧ i = { j with active := s.activeLanes t g j }
  active : i.active ≠ 0
  place : t.legalIn i.kind = true
  handler : (t.noHandler && i.handler) = false
  mode : (t.p && !i.priv) = false
  hints : t.acceptsHints i.front.hints = true
  notRepeated : (t.branch && decide (i.front.rep ≠ 0)) = false
  ordered : (t.event && decide (s.awake.unperformed i ≠ 0)) = false

/-- What a unit that completes leaves behind its effect: the spin count, the masked window, the stream's place (R40, R135, R142,
R143, R328). -/
def Issue.finished (i : Issue) (t : Attr) (u : State) : State := ((if t.spin then u.clearSpin i else u).countMasked i).finish i

/-- Every source is a register that the stream has, and so is the destination (R30 to R33). -/
def Issue.registersOk (i : Issue) (dst : Cls × RegField) (srcs : List (Cls × RegField)) : Prop :=
  i.regOk true dst.1 dst.2 = true ∧ (srcs.all fun x => i.regOk false x.1 x.2) = true

/-! ### Instructions with one result, lane by lane (R98 to R121) -/

/-- What an instruction reads, and what it writes in each active lane. -/
structure ResultSpec where
  attr : Attr
  guard : GuardField
  cls : Cls
  dst : RegField
  srcs : Issue → List (Cls × RegField)
  /-- What its fields must satisfy besides. -/
  legal : Issue → Bool
  /-- The result in a lane: from the state before the unit, and the sources' values by lane. -/
  value : State → Issue → List (Nat → Dword) → Nat → Dword

/-- A w-bit result of two w-bit sources. -/
def ofTwo (d a b : RegField) (g : GuardField) (f : Nat → Dword → Dword → Dword) : Option ResultSpec :=
  some ⟨{}, g, .nat, d, fun _ => [(.nat, a), (.nat, b)], fun _ => true, fun _ i v l => f i.w (nth v 0 l) (nth v 1 l)⟩

/-- A w-bit result of one w-bit source. -/
def ofOne (d a : RegField) (g : GuardField) (f : Nat → Dword → Dword) : Option ResultSpec :=
  some ⟨{}, g, .nat, d, fun _ => [(.nat, a)], fun _ => true, fun _ i v l => f i.w (nth v 0 l)⟩

/-- A w-bit result of three w-bit sources (R34). -/
def ofThree (d a b : RegField) (g : GuardField) (f : Nat → Dword → Dword → Dword → Dword) : Option ResultSpec :=
  some ⟨{ c := true }, g, .nat, d, fun i => [(.nat, a), (.nat, b), (.nat, i.cField d)], fun _ => true,
    fun _ i v l => f i.w (nth v 0 l) (nth v 1 l) (nth v 2 l)⟩

/-- A pair from 32-bit sources, C included where the list is of three (R104, R105). -/
def toPair (attr : Attr) (d : RegField) (srcs : Issue → List (Cls × RegField)) (g : GuardField) (f : List (Nat → Dword) → Nat → Dword) :
    Option ResultSpec :=
  some ⟨attr, g, .pair, d, srcs, fun _ => true, fun _ _ v l => f v l⟩

/-- A result of a source and an immediate (R36, R106). -/
def ofImmediate (d a : RegField) (imm : BitVec 9) (g : GuardField) (f : Nat → Dword → Dword → Dword) : Option ResultSpec :=
  some ⟨{ ximm := true }, g, .nat, d, fun _ => [(.nat, a)], fun _ => true,
    fun _ i v l => f i.w (nth v 0 l) (i.immediate 9 imm.toNat)⟩

/-- A lane's value of another lane (R117). -/
def ofLane (d a : RegField) (srcs : List (Cls × RegField)) (ok : Nat → Bool) (g : GuardField)
    (source : Nat → List (Nat → Dword) → Nat → Nat) : Option ResultSpec :=
  some ⟨groupOnly, g, .nat, d, fun _ => (.nat, a) :: srcs, fun i => ok i.width, fun _ i v l => nth v 0 (source i.width v l)⟩

/-- The integer families, the moves, the predicate reads and the lane exchanges, each with what it computes. -/
def pureResult : Instr → Option ResultSpec
  | .add d a b g => ofTwo d a b g addValue
  | .sub d a b g => ofTwo d a b g subValue
  | .mul d a b g => ofTwo d a b g mulValue
  | .mulh d a b g => ofTwo d a b g mulhValue
  | .mulhn d a b g => ofTwo d a b g mulhnValue
  | .mad d a b g => ofThree d a b g madValue
  | .minOp d a b g => ofTwo d a b g minValue
  | .maxOp d a b g => ofTwo d a b g maxValue
  | .andOp d a b g => ofTwo d a b g fun w x y => lowBits w (x &&& y)
  | .orOp d a b g => ofTwo d a b g fun w x y => lowBits w (x ||| y)
  | .xorOp d a b g => ofTwo d a b g fun w x y => lowBits w (x ^^^ y)
  | .andn d a b g => ofTwo d a b g fun w x y => lowBits w (x &&& ~~~y)
  | .shl d a b g => ofTwo d a b g fun w x y => shlValue w x (y.toNat % w)
  | .shr d a b g => ofTwo d a b g fun w x y => shrValue w x (y.toNat % w)
  | .sar d a b g => ofTwo d a b g fun w x y => sarValue w x (y.toNat % w)
  | .rotl d a b g => ofTwo d a b g fun w x y => rotlValue w x (y.toNat % w)
  | .minn d a b g => ofTwo d a b g minnValue
  | .maxn d a b g => ofTwo d a b g maxnValue
  | .absOp d a g => ofOne d a g absValue
  | .neg d a g => ofOne d a g fun w x => wrap w (-signedOf w x)
  | .fshr d a b g => ofThree d a b g fshrValue
  | .bfx d a b g => ofTwo d a b g bfxValue
  | .bfi d a b g => ofThree d a b g bfiValue
  | .bprm d a b g => ofThree d a b g bprmValue
  | .popc d a g => ofOne d a g fun w x => BitVec.ofNat 64 (popcount w x.toNat)
  | .clz d a g => ofOne d a g clzValue
  | .ctz d a g => ofOne d a g ctzValue
  | .brev d a g => ofOne d a g brevValue
  | .mulw d a b g => toPair {} d (fun _ => [(.word, a), (.word, b)]) g fun v l =>
      wrap 64 (signedOf 32 (nth v 0 l) * signedOf 32 (nth v 1 l))
  | .mulwn d a b g => toPair {} d (fun _ => [(.word, a), (.word, b)]) g fun v l =>
      BitVec.ofNat 64 (natOf 32 (nth v 0 l) * natOf 32 (nth v 1 l))
  | .addc d a b g => toPair { c := true } d (fun i => [(.word, a), (.word, b), (.word, i.cField d)]) g fun v l =>
      BitVec.ofNat 64 (natOf 32 (nth v 0 l) + natOf 32 (nth v 1 l) + (nth v 2 l).toNat % 2)
  | .subc d a b g => toPair { c := true } d (fun i => [(.word, a), (.word, b), (.word, i.cField d)]) g fun v l =>
      subcValue (natOf 32 (nth v 0 l)) (natOf 32 (nth v 1 l)) ((nth v 2 l).toNat % 2)
  | .addi d a imm g => ofImmediate d a imm g addValue
  | .andi d a imm g => ofImmediate d a imm g fun w x y => lowBits w (x &&& y)
  | .ori d a imm g => ofImmediate d a imm g fun w x y => lowBits w (x ||| y)
  | .xori d a imm g => ofImmediate d a imm g fun w x y => lowBits w (x ^^^ y)
  | .shi d a k n g => some ⟨{}, g, .nat, d, fun _ => [(.nat, a)], fun i => decide (n.toNat < i.w),
      fun _ i v l => shiValue k.toNat i.w (nth v 0 l) n.toNat⟩
  | .limm d imm g => some ⟨{ ximm := true }, g, .nat, d, fun _ => [], fun _ => true,
      fun _ i _ _ => lowBits i.w (i.immediate 15 imm.toNat)⟩
  | .mov d a g => ofOne d a g fun w x => lowBits w x
  | .sxb d a g => ofOne d a g fun w x => wrap w (signedOf 8 x)
  | .sxh d a g => ofOne d a g fun w x => wrap w (signedOf 16 x)
  | .zxb d a g => ofOne d a g fun _ x => lowBits 8 x
  | .zxh d a g => ofOne d a g fun _ x => lowBits 16 x
  | .sel d a b q => some ⟨{ guard := false }, q, .nat, d, fun _ => [(.nat, a), (.nat, b)], fun _ => true, fun s i v l =>
      if s.pred i l (guardOf q Hints.none).1 == (guardOf q Hints.none).2 then nth v 0 l else nth v 1 l⟩
  | .moder d g => some ⟨{}, g, .pair, d, fun _ => [], fun _ => true, fun s i _ _ => s.modeOf i⟩
  | .p2g d p g => some ⟨{}, g, .nat, d, fun _ => [], fun i => i.predOk p, fun s i _ l => if s.pred i l p.toNat then 1 else 0⟩
  | .pgetw d n g => some ⟨{}, g, .nat, d, fun _ => [], fun i => i.predWordOk n, fun s i _ l => s.predWord i n.toNat l⟩
  | .ballot d p g => some ⟨groupOnly, g, .pair, d, fun _ => [], fun _ => true, fun s i _ _ => s.ballot i p⟩
  | .shfli d a b g => ofLane d a [(.nat, b)] (fun _ => true) g fun w v l => (nth v 1 l).toNat % w
  | .shflu d a k g => ofLane d a [] (fun _ => true) g fun _ _ l => if k.toNat ≤ l then l - k.toNat else l
  | .shfld d a k g => ofLane d a [] (fun _ => true) g fun w _ l => if l + k.toNat < w then l + k.toNat else l
  | .shflx d a k g => ofLane d a [] (fun w => decide (k.toNat < w)) g fun _ _ l => l ^^^ k.toNat
  | .bcast d a k g => ofLane d a [] (fun w => decide (k.toNat < w)) g fun _ _ _ => k.toNat
  | .confl d a g => some ⟨groupOnly, g, .pair, d, fun _ => [(.nat, a)], fun _ => true, fun _ i v l =>
      equalLanes i v (fun j => decide (j < l)) l⟩
  | .matchOp d a g => some ⟨groupOnly, g, .pair, d, fun _ => [(.nat, a)], fun _ => true, fun _ i v l =>
      equalLanes i v (fun _ => true) l⟩
  | .fabsn d a k g => some ⟨{}, g, .word, d, fun _ => [(.word, a)], fun _ => decide (k.toNat ≤ 2), fun _ _ v l =>
      BitVec.ofNat 64 (f32.signOp k.toNat (nth v 0 l).toNat)⟩
  | .dabsn d a k g => some ⟨{}, g, .pair, d, fun _ => [(.pair, a)], fun _ => decide (k.toNat ≤ 2), fun _ _ v l =>
      BitVec.ofNat 64 (f64.signOp k.toNat (nth v 0 l).toNat)⟩
  | .k2f d a h g => some ⟨{}, g, .pair, d, fun _ => [(.word, a)], fun _ => decide (h.toNat ≤ 1), fun _ _ v l =>
      BitVec.ofNat 64 (bendBits f32 ((nth v 0 l).toNat / 256 ^ (2 * h.toNat) % 256)
        + 2 ^ 32 * bendBits f32 ((nth v 0 l).toNat / 256 ^ (2 * h.toNat + 1) % 256))⟩
  | .qstat d a g => some ⟨groupLead, g, .nat, d, fun _ => [], fun i => isQueue a && !i.hank, fun s i _ _ =>
      s.queueStatus i (queueIndex a)⟩
  | _ => none

/-- Where a result goes when no local memory has to be read for it: to the registers of the active lanes, or as one entry to
a queue, from the lanes or broadcast from a lead (R30, R31, R98, R151). -/
def State.delivered (u : State) (i : Issue) (c : Cls) (f : RegField) (v : Nat → Dword) : State :=
  if isQueue f then
    (u.clearSpin i).pushQueue i (queueIndex f) (if i.kind == .group then i.laneEntry v else List.replicate 64 ((v 0).setWidth 32))
  else u.writeLanes i c f i.active v

/-- A lead's destination is no queue that fetches its entries (R151). -/
def State.broadcasts (u : State) (i : Issue) (f : RegField) : Prop :=
  isQueue f = true → i.kind ≠ .group → ∃ r, u.unit i.core i.unit = some r ∧ ((r.queues[queueIndex f]?).getD QueueReg.unmapped).opt = 0

/-! ### Floating-point results (R81 to R94) -/

/-- What a floating-point instruction reads and computes in a lane. -/
structure FloatSpec where
  attr : Attr
  guard : GuardField
  cls : Cls
  dst : RegField
  srcs : Issue → List (Cls × RegField)
  lane : FpIn → (Nat → Dword) → FpOut

/-- An operation of two operands that rounds under ARND (R81, R82). -/
def roundTwo (f : Fmt) (c : Cls) (d a b : RegField) (g : GuardField) (op : Fmt → Bool → Nat → Nat → Nat → FRes) : Option FloatSpec :=
  some ⟨{ round := 4 }, g, c, d, fun _ => [(c, a), (c, b)], fun x v =>
    (op f (ftz x.mode) (x.i.arith x.mode) (v 0).toNat (v 1).toNat).out x⟩

def roundFused (f : Fmt) (c : Cls) (sub : Bool) (d a b : RegField) (g : GuardField) : Option FloatSpec :=
  some ⟨{ round := 4, c := true }, g, c, d, fun i => [(c, a), (c, b), (c, i.cField d)], fun x v =>
    (f.fmaBits (ftz x.mode) (x.i.arith x.mode) sub (v 0).toNat (v 1).toNat (v 2).toNat).out x⟩

def chooseOne (f : Fmt) (c : Cls) (isMax : Bool) (d a b : RegField) (g : GuardField) : Option FloatSpec :=
  some ⟨{}, g, c, d, fun _ => [(c, a), (c, b)], fun x v => (f.minMax (ftz x.mode) isMax (v 0).toNat (v 1).toNat).out x⟩

/-- A function of one operand, to nearest, or under ARND (R86, R87). -/
def functionOf (f : Fmt) (c : Cls) (h : FFun) (rounded : Bool) (d a : RegField) (g : GuardField) : Option FloatSpec :=
  some ⟨if rounded then { round := 4 } else {}, g, c, d, fun _ => [(c, a)], fun x v =>
    (f.funBits h (ftz x.mode) (if rounded then x.i.arith x.mode else 0) (v 0).toNat).out x⟩

/-- A packed operation: elements 0 and 1 (R59, R89). -/
def packedTwo (t : Attr) (d a b : RegField) (g : GuardField) (op : FpIn → Nat → Nat → FRes) : Option FloatSpec :=
  some ⟨t, g, .word, d, fun _ => [(.word, a), (.word, b)], fun x v =>
    (packTwo (op x (element (v 0) 0) (element (v 1) 0)) (op x (element (v 0) 1) (element (v 1) 1))).out x⟩

def packedThree (f : Fmt) (d a b : RegField) (g : GuardField) : Option FloatSpec :=
  some ⟨{ round := 4, c := true }, g, .word, d, fun i => [(.word, a), (.word, b), (.word, i.cField d)], fun x v =>
    (packTwo (f.fmaBits (ftz x.mode) (x.i.arith x.mode) false (element (v 0) 0) (element (v 1) 0) (element (v 2) 0))
      (f.fmaBits (ftz x.mode) (x.i.arith x.mode) false (element (v 0) 1) (element (v 1) 1) (element (v 2) 1))).out x⟩

/-- A conversion to an integer of the stream's width, and from one (R91, R92). -/
def integerOf (f : Fmt) (c : Cls) (signed : Bool) (d a : RegField) (g : GuardField) : Option FloatSpec :=
  some ⟨{ round := 6, sat := 2 }, g, .nat, d, fun _ => [(c, a)], fun x v =>
    (f.toInt x.i.w signed (ftz x.mode) (x.i.convRound x.mode convInt) (x.i.convSat x.mode convInt) x.gen (v 0).toNat).drawn⟩

def floatOf (f : Fmt) (c : Cls) (signed : Bool) (d a : RegField) (g : GuardField) : Option FloatSpec :=
  some ⟨{ round := 6 }, g, c, d, fun _ => [(.nat, a)], fun x v =>
    (f.ofInt (ftz x.mode) (x.i.arith x.mode) x.gen
      (if signed && decide (2 ^ (x.i.w - 1) ≤ (v 0).toNat % 2 ^ x.i.w) then ((v 0).toNat % 2 ^ x.i.w : Nat) - (2 ^ x.i.w : Int)
        else ((v 0).toNat % 2 ^ x.i.w : Nat))).drawn⟩

/-- Two values narrowed into one register: A, then B, which draws after it (R92). -/
def narrowTwo (f : Fmt) (k : ConvField) (d a b : RegField) (g : GuardField) : Option FloatSpec :=
  some ⟨{ round := 6, sat := 2 }, g, .word, d, fun _ => [(.word, a), (.word, b)], fun x v =>
    let r0 := convertBits f32 f (ftz x.mode) (x.i.convRound x.mode k) (x.i.convSat x.mode k) x.gen (v 0).toNat
    let r1 := convertBits f32 f (ftz x.mode) (x.i.convRound x.mode k) (x.i.convSat x.mode k) r0.gen (v 1).toNat
    (packTwo r0 r1).drawn⟩

def widenTwo (f : Fmt) (d a : RegField) (g : GuardField) : Option FloatSpec :=
  some ⟨{}, g, .pair, d, fun _ => [(.word, a)], fun x v =>
    (pairOf (convertBits f f32 (ftz x.mode) 0 0 0 (element (v 0) 0)) (convertBits f f32 (ftz x.mode) 0 0 0 (element (v 0) 1))).out x⟩

/-- The instructions of FA, FS, DA, HA, CV and CW whose events may trap. -/
def floatResult : Instr → Option FloatSpec
  | .fadd d a b g => roundTwo f32 .word d a b g Fmt.addBits
  | .fsub d a b g => roundTwo f32 .word d a b g Fmt.subBits
  | .fmul d a b g => roundTwo f32 .word d a b g Fmt.mulBits
  | .ffma d a b g => roundFused f32 .word false d a b g
  | .ffms d a b g => roundFused f32 .word true d a b g
  | .fmin d a b g => chooseOne f32 .word false d a b g
  | .fmax d a b g => chooseOne f32 .word true d a b g
  | .frcp d a g => functionOf f32 .word .rcp false d a g
  | .frsq d a g => functionOf f32 .word .rsq false d a g
  | .fsqrt d a g => functionOf f32 .word .sqrt true d a g
  | .fex2 d a g => functionOf f32 .word .ex2 false d a g
  | .flg2 d a g => functionOf f32 .word .lg2 false d a g
  | .fsin d a g => functionOf f32 .word .sin false d a g
  | .fcos d a g => functionOf f32 .word .cos false d a g
  | .frint d a g => functionOf f32 .word .rint true d a g
  | .dadd d a b g => roundTwo f64 .pair d a b g Fmt.addBits
  | .dsub d a b g => roundTwo f64 .pair d a b g Fmt.subBits
  | .dmul d a b g => roundTwo f64 .pair d a b g Fmt.mulBits
  | .dfma d a b g => roundFused f64 .pair false d a b g
  | .dmin d a b g => chooseOne f64 .pair false d a b g
  | .dmax d a b g => chooseOne f64 .pair true d a b g
  | .dsqrt d a g => functionOf f64 .pair .sqrt true d a g
  | .hadd2 d a b g => packedTwo { round := 4 } d a b g fun x p q => f16.addBits (ftz x.mode) (x.i.arith x.mode) p q
  | .hmul2 d a b g => packedTwo { round := 4 } d a b g fun x p q => f16.mulBits (ftz x.mode) (x.i.arith x.mode) p q
  | .hfma2 d a b g => packedThree f16 d a b g
  | .hmax2 d a b g => packedTwo {} d a b g fun x p q => f16.minMax (ftz x.mode) true p q
  | .badd2 d a b g => packedTwo { round := 4 } d a b g fun x p q => b16.addBits (ftz x.mode) (x.i.arith x.mode) p q
  | .bmul2 d a b g => packedTwo { round := 4 } d a b g fun x p q => b16.mulBits (ftz x.mode) (x.i.arith x.mode) p q
  | .bfma2 d a b g => packedThree b16 d a b g
  | .bmax2 d a b g => packedTwo {} d a b g fun x p q => b16.minMax (ftz x.mode) true p q
  | .f2i d a g => integerOf f32 .word true d a g
  | .f2n d a g => integerOf f32 .word false d a g
  | .d2i d a g => integerOf f64 .pair true d a g
  | .i2f d a g => floatOf f32 .word true d a g
  | .n2f d a g => floatOf f32 .word false d a g
  | .i2d d a g => floatOf f64 .pair true d a g
  | .f2d d a g => some ⟨{}, g, .pair, d, fun _ => [(.word, a)], fun x v =>
      (convertBits f32 f64 (ftz x.mode) 0 0 0 (v 0).toNat).out x⟩
  | .d2f d a g => some ⟨{ round := 6, sat := 2 }, g, .word, d, fun _ => [(.pair, a)], fun x v =>
      (convertBits f64 f32 (ftz x.mode) (x.i.convRound x.mode convSingle) (x.i.convSat x.mode convSingle) x.gen (v 0).toNat).drawn⟩
  | .f2h2 d a b g => narrowTwo f16 convHalf d a b g
  | .f2b2 d a b g => narrowTwo b16 convBf d a b g
  | .h2f d a g => widenTwo f16 d a g
  | .b2f d a g => widenTwo b16 d a g
  | .f2k d a b g => some ⟨{ round := 6, sat := 3 }, g, .word, d, fun _ => [(.pair, a), (.pair, b)], f2kLane⟩
  | _ => none

/-- What a lane computes, from the state before the unit. -/
def FloatSpec.outIn (r : FloatSpec) (s : State) (i : Issue) (vals : List (Nat → Dword)) (l : Nat) : FpOut :=
  r.lane ⟨i, s.modeOf i, s.gen i l⟩ fun k => nth vals k l

/-- The events of the active lanes together (R76). -/
def Issue.eventsOf (i : Issue) (ev : Nat → Ev) : Ev := Ev.sum ((lanesOf i.active).map ev)

/-- The active lanes in which an event is enabled (R77). -/
def Issue.trappingLanes (i : Issue) (m : Dword) (ev : Nat → Ev) : LaneMask :=
  ((lanesOf i.active).filter fun l => (ev l).enabled m).foldl (fun w l => w ||| laneBit l) 0

/-- The generators after a unit, lane by lane (R69). -/
def State.setGens (s : State) (i : Issue) (gen : Nat → Word) : State :=
  (lanesOf i.active).foldl (fun s l => s.setGen i l (gen l)) s

/-- The values of the active lanes, 0 elsewhere. -/
def Issue.inLanes (i : Issue) (v : Nat → Dword) (l : Nat) : Dword := if l ∈ lanesOf i.active then v l else 0

/-! ### Predicate results (R112 to R116) -/

/-- An instruction that writes one predicate in each active lane. -/
structure PredSpec where
  attr : Attr
  guard : GuardField
  dst : RegField
  /-- Predicate numbers that it reads. -/
  preds : List RegField
  srcs : List (Cls × RegField)
  value : State → Issue → List (Nat → Dword) → Nat → Bool

def compareInt (cond : Nat) (p a b : RegField) (g : GuardField) : Option PredSpec :=
  some ⟨{}, g, p, [], [(.nat, a), (.nat, b)], fun _ i v l => icmpHolds cond i.w (nth v 0 l) (nth v 1 l)⟩

def combine (f : Bool → Bool → Bool) (p a b : RegField) (g : GuardField) : Option PredSpec :=
  some ⟨{}, g, p, [a, b], [], fun s i _ l => f (s.pred i l a.toNat) (s.pred i l b.toNat)⟩

def predicateResult : Instr → Option PredSpec
  | .icmpEq p a b g => compareInt 0 p a b g
  | .icmpNe p a b g => compareInt 1 p a b g
  | .icmpLt p a b g => compareInt 2 p a b g
  | .icmpLe p a b g => compareInt 3 p a b g
  | .icmpLtn p a b g => compareInt 4 p a b g
  | .icmpLen p a b g => compareInt 5 p a b g
  | .icmpBits p a b g => compareInt 6 p a b g
  | .icmpNone p a b g => compareInt 7 p a b g
  | .plopAnd p a b g => combine (fun x y => x && y) p a b g
  | .plopOr p a b g => combine (fun x y => x || y) p a b g
  | .plopXor p a b g => combine (fun x y => x != y) p a b g
  | .plopAndn p a b g => combine (fun x y => x && !y) p a b g
  | .plopOrn p a b g => combine (fun x y => x || !y) p a b g
  | .plopNand p a b g => combine (fun x y => !(x && y)) p a b g
  | .plopNor p a b g => combine (fun x y => !(x || y)) p a b g
  | .plopXnor p a b g => combine (fun x y => x == y) p a b g
  | .g2p p a g => some ⟨{}, g, p, [], [(.nat, a)], fun _ _ v l => nth v 0 l != 0⟩
  | .anyOp q p g => some ⟨groupOnly, g, q, [], [], fun s i _ _ => s.ballot i p != 0⟩
  | .allOp q p g => some ⟨groupOnly, g, q, [], [], fun s i _ _ => s.ballot i p == i.active⟩
  | .uni p a g => some ⟨groupOnly, g, p, [], [(.nat, a)], fun _ i v _ =>
      (lanesOf i.active).all fun l => nth v 0 l == nth v 0 (lowestLane i.active)⟩
  | _ => none

/-- The floating-point compares: format, class of the operands, condition, and the fields (R113). -/
def floatCompare : Instr → Option (Fmt × Cls × Nat × RegField × RegField × RegField × GuardField)
  | .fcmpEq p a b g => some (f32, .word, 0, p, a, b, g)
  | .fcmpNe p a b g => some (f32, .word, 1, p, a, b, g)
  | .fcmpLt p a b g => some (f32, .word, 2, p, a, b, g)
  | .fcmpLe p a b g => some (f32, .word, 3, p, a, b, g)
  | .fcmpGt p a b g => some (f32, .word, 4, p, a, b, g)
  | .fcmpGe p a b g => some (f32, .word, 5, p, a, b, g)
  | .fcmpUn p a b g => some (f32, .word, 6, p, a, b, g)
  | .fcmpOrd p a b g => some (f32, .word, 7, p, a, b, g)
  | .dcmpEq p a b g => some (f64, .pair, 0, p, a, b, g)
  | .dcmpNe p a b g => some (f64, .pair, 1, p, a, b, g)
  | .dcmpLt p a b g => some (f64, .pair, 2, p, a, b, g)
  | .dcmpLe p a b g => some (f64, .pair, 3, p, a, b, g)
  | .dcmpGt p a b g => some (f64, .pair, 4, p, a, b, g)
  | .dcmpGe p a b g => some (f64, .pair, 5, p, a, b, g)
  | .dcmpUn p a b g => some (f64, .pair, 6, p, a, b, g)
  | .dcmpOrd p a b g => some (f64, .pair, 7, p, a, b, g)
  | _ => none

/-! ### Reductions and scans (R78, R120, R121) -/

/-- A tree: its identity, its node under a MODE, and what it leaves of the whole. -/
structure TreeSpec where
  identity : Nat
  node : Dword → Nat → Nat → FRes
  /-- None for a reduction; a scan says whether it is exclusive. -/
  exclusive : Option Bool
  dst : RegField
  src : RegField
  guard : GuardField

def treeResult : Instr → Option TreeSpec
  | .iredadd d a g => some ⟨0, sumNode, none, d, a, g⟩
  | .iredmin d a g => some ⟨0x7FFFFFFF, minNode, none, d, a, g⟩
  | .iredmax d a g => some ⟨0x80000000, maxNode, none, d, a, g⟩
  | .iredor d a g => some ⟨0, orNode, none, d, a, g⟩
  | .iredand d a g => some ⟨0xFFFFFFFF, andNode, none, d, a, g⟩
  | .fredadd d a g => some ⟨0x80000000, faddNode, none, d, a, g⟩
  | .fredmin d a g => some ⟨0x7F800000, fminNode, none, d, a, g⟩
  | .fredmax d a g => some ⟨0xFF800000, fmaxNode, none, d, a, g⟩
  | .iscan d a g => some ⟨0, sumNode, some false, d, a, g⟩
  | .iscanx d a g => some ⟨0, sumNode, some true, d, a, g⟩
  | .fscan d a g => some ⟨0x80000000, faddNode, some false, d, a, g⟩
  | .fscanx d a g => some ⟨0x80000000, faddNode, some true, d, a, g⟩
  | .iscanmax d a g => some ⟨0x80000000, maxNode, some false, d, a, g⟩
  | .iscanor d a g => some ⟨0, orNode, some false, d, a, g⟩
  | _ => none

/-- The value of each lane and the events of all nodes. -/
def TreeSpec.answer (r : TreeSpec) (mode : Dword) (i : Issue) (v : List (Nat → Dword)) : (Nat → Nat) × Ev :=
  let input := treeInput i r.identity v
  match r.exclusive with
  | none => (fun _ => (foldTree (r.node mode) 6 input).1, (foldTree (r.node mode) 6 input).2)
  | some exclusive =>
    let out := scanTree (r.node mode) 6 1 input
    (fun l => if exclusive && l == 0 then r.identity
      else ((out[if exclusive then l - 1 else l]?).getD (r.identity, {})).1, Ev.sum (out.map (·.2)))

/-! ### Hint words and control flow (R35 to R40, R129 to R144) -/

/-- A hint word of stream i latches: no FENCE holds it, and no loop body ends at it. -/
structure Latches (s : State) (i : Issue) : Prop where
  stream : s.cur.bind s.issue = some i
  notFenced : s.awake.fenced i = false
  inBody : (s.awake.loops i).any (·.last == i.front.pc) = false

/-- The stream after it has latched a hint. -/
def State.latched (s : State) (i : Issue) (h : Hints) (skip : Nat) : State :=
  (s.awake.setFront i { i.front with pc := i.front.pc + 4, hints := { h with count := h.count + 1 } }).issued i skip

/-- Where a branch sends the lanes of its path: the taking lanes, and the rest to the next word (R129). -/
def Issue.parts (i : Issue) (taken : List (LaneMask × Word)) : List (LaneMask × Word) :=
  if i.kind == .group then
    let rest := i.lanes &&& ~~~(taken.foldl (fun m t => m ||| t.1) 0)
    taken ++ (if rest = 0 then [] else [(rest, i.next)])
  else taken.take 1

/-- A branch may go that way: it divides no path in a LOOP body or in a trap handler, and no bound segment (R130, R144, R164,
R395). -/
structure MayBranch (s : State) (i : Issue) (taken : List (LaneMask × Word)) : Prop where
  undivided : 1 < (i.parts taken).length → i.handler = false ∧ s.loops i = []
  segments : i.kind = .group → s.divided i (taken.map (·.1)) = []

/-- The state after a branch: the whole path at the one target, or the parts as paths of their own (R129, R138). -/
def State.goTo (u : State) (i : Issue) (parts : List (LaneMask × Word)) : State :=
  match parts with
  | [(_, target)] => u.branchAll i target
  | _ => u.divide i parts

/-- The stream stands at an offset, with a loop stack (R141). -/
def State.standsAt (s : State) (i : Issue) (pc : Word) (loops : List LoopFrame) : State :=
  (((s.countMasked i).setLoops i loops).setFront i ⟨pc, Hints.none, 0, i.front.skip⟩).issued i i.front.hints.yields

/-- The lanes' targets of an indirect jump (R129). -/
def targetIn (vals : List (Nat → Dword)) (l : Nat) : Word := (nth vals 0 l).setWidth 32

/-- Where the lanes of a REFORM would continue (R145). -/
def Issue.reformTo (i : Issue) (a : RegField) (vals : List (Nat → Dword)) (l : Nat) : Word :=
  if a = 60 then i.next else targetIn vals l

/-- The active lanes in which an offset is not a multiple of 4. -/
def Issue.misaligned (i : Issue) (target : Nat → Word) : LaneMask := maskOf fun l => i.active.getLsbD l && target l % 4 != 0

/-! ### The lanyard (R160 to R170) -/

/-- An exact operation on the segments that have an active lane. -/
structure SegSpec where
  dst : RegField
  guard : GuardField
  legal : Issue → Bool
  regs : List Nat
  /-- The integer and the flags of a segment. -/
  value : State → Issue → Lanyard → Segment × Nat → Int × BitVec 5

/-- Of two segments. -/
def segTwo (d a b : RegField) (g : GuardField) (f : Int → Int → Int) : Option SegSpec :=
  some ⟨d, g, fun i => i.regOk true .pair d && i.regOk false .pair a && i.regOk false .pair b, fieldRegs .pair a ++ fieldRegs .pair b,
    fun s i l x => (f (s.segValue i l x.2 a) (s.segValue i l x.2 b), 0)⟩

/-- Of a segment and a scalar of the lowest active lane. -/
def segScalar (d a b : RegField) (g : GuardField) (f : Nat → Int → Nat → Int) : Option SegSpec :=
  some ⟨d, g, fun i => i.regOk true .pair d && i.regOk false .pair a && i.scalarOk false b, fieldRegs .pair a ++ [b.toNat],
    fun s i l x => (f l.k (s.segValue i l x.2 a) (s.source i .nat b none (lowestLane i.active)).toNat, 0)⟩

/-- A deposit of the active lanes of the segment (R169). -/
def segDeposit (f : Fmt) (c : Cls) (d a : RegField) (g : GuardField) : Option SegSpec :=
  some ⟨d, g, fun i => i.regOk true .pair d && i.regOk false c a && !isQueue a, fieldRegs .pair d ++ fieldRegs c a,
    fun s i l x =>
      let adds := (lanesOf (segLanes l.k x.2 &&& i.active)).map fun e => deposit f l.f (s.source i c a none e).toNat
      (adds.foldl (fun v y => v + y.1) (s.segValue i l x.2 d), adds.foldl (fun v y => v ||| y.2) 0)⟩

def segResult : Instr → Option SegSpec
  | .ladd d a b g => segTwo d a b g fun x y => x + y
  | .lsub d a b g => segTwo d a b g fun x y => x - y
  | .lneg d a g => some ⟨d, g, fun i => i.regOk true .pair d && i.regOk false .pair a, fieldRegs .pair a, fun s i l x => (-(s.segValue i l x.2 a), 0)⟩
  | .lshl d a b g => segScalar d a b g fun k x n => segShl k x n
  | .lshr d a b g => segScalar d a b g fun k x n => x / 2 ^ (min n (64 * k))
  | .lmuls d a b g => segScalar d a b g fun _ x n => x * (BitVec.ofNat 32 n).toInt
  | .ldep d a g => segDeposit f32 .word d a g
  | .ldepd d a g => segDeposit f64 .pair d a g
  | _ => none

/-- The unit may work on the segments of lanyard l: bound, and every segment that has an active lane is whole and not faulted
(R165, R167). -/
structure OnLanyard (s : State) (i : Issue) (l : Lanyard) : Prop where
  bound : s.lanyardOf i = some l
  sound : ∀ x ∈ l.touched i.active, x.1.faulted = false
  whole : ∀ x ∈ l.touched i.active, (segLanes l.k x.2 &&& s.live i &&& ~~~i.active) = 0

/-- What the segments hold afterwards: the integers, and the flags with OVF where one does not fit (R161, R162). -/
def State.segmentsSet (s : State) (i : Issue) (l : Lanyard) (d : RegField) (f : Segment × Nat → Int × BitVec 5) : State :=
  let segs := l.touched i.active
  segs.foldl (fun s x => (s.writeSeg i l.k x.2 d (f x).1).flagSeg i x.2 ((f x).2 ||| (if segOverflows l.k (f x).1 then 1 else 0)))
    (s.count i.core (Ev.sum (segs.map fun x => { lo := (segOverflows l.k (f x).1).toNat })))

/-- A value broadcast in the lanes of each touched segment. -/
def State.segmentsTell (s : State) (i : Issue) (l : Lanyard) (c : Cls) (d : RegField) (f : Segment × Nat → Dword) : State :=
  (l.touched i.active).foldl (fun t x => t.writeLanes i c d (segLanes l.k x.2 &&& firstLanes i.width) fun _ => f x) s

/-! ### Memory (R172 to R207) -/

/-- The accesses of an M-format word, from the values of its base register (R196). -/
def State.wordAccesses (s : State) (i : Issue) (p : Space) (sz : BitVec 2) (o : BitVec 7) (vals : List (Nat → Dword)) :
    List LaneAccess :=
  s.accesses i p (sizeOf' sz) fun l => addr32 (nth vals 0 l + i.offset sz o)

/-- The value that a load has for a lane. -/
def loaded (vals : SMap Nat) (l : Nat) : Dword := BitVec.ofNat 64 ((SMap.find vals l).getD 0)

/-- Every access lies in the issuing core, and the pages of all of them are there (R178, R220). -/
structure AllLocal (s : State) (i : Issue) (ts : List Target) : Prop where
  here : ∀ t ∈ ts, t.core = i.core
  pages : s.pages i.core i.ctx (ts.map (·.off)) (some i.waiter) = .ready

/-- The loads of local targets one after the other: the values, and the state after their events (R181, R191). -/
def State.localLoads (s : State) (i : Issue) (n : Nat) : List Target → SMap Nat × State
  | [] => ([], s)
  | t :: r =>
    let x := s.loadLocal i.agent i.core t.off n
    let more := x.2.localLoads i n r
    ((t.lane, x.1) :: more.1, more.2)

/-- Every byte of every core's local space, but the n bytes at each target in the space of context ctx, reads in w as in s. -/
def State.KeepsLocal (s w : State) (ctx n : Nat) (ts : List Target) : Prop :=
  ∀ c x a, (∀ y ∈ ts, ¬ (c = y.core ∧ x = ctx ∧ y.off ≤ a ∧ a < y.off + n)) → w.localByte c x a = s.localByte c x a

/-- The stores of local targets one after the other (R181, R192). -/
def State.localStores (s : State) (i : Issue) (n : Nat) (ts : List Target) (v : Nat → Nat) : State :=
  ts.foldl (fun s t => s.storeLocal i.agent i.core t.off n (v t.lane)) s

/-- The AT instructions and ACAS, with what each makes of the old word (R197, R198). -/
def atomicOf : Instr → Option (RegField × RegField × RegField × GuardField × Bool × (Word → AtomicOp))
  | .aadd d a b g => some (d, a, b, g, false, fun _ => .add)
  | .amin d a b g => some (d, a, b, g, false, fun _ => .min)
  | .amax d a b g => some (d, a, b, g, false, fun _ => .max)
  | .aand d a b g => some (d, a, b, g, false, fun _ => .and)
  | .aor d a b g => some (d, a, b, g, false, fun _ => .or)
  | .axor d a b g => some (d, a, b, g, false, fun _ => .xor)
  | .axch d a b g => some (d, a, b, g, false, fun _ => .xchg)
  | .afadd d a b g => some (d, a, b, g, false, fun _ => .fadd)
  | .acas d a b g => some (d, a, b, g, true, .cas)
  | _ => none

/-- The sources of an atomic: the address, B, and for ACAS the value expected, in D. -/
def atomicSrcs (d a b : RegField) (cas : Bool) : List (Cls × RegField) :=
  [(.nat, a), (.word, b)] ++ if cas then [(.word, d)] else []

/-- The lanes of targets in other cores. -/
def farLanes (c : Nat) (ts : List Target) : LaneMask := (ts.filter (·.core ≠ c)).foldl (fun m t => m ||| laneBit t.lane) 0

/-! ### E-format words (R33) -/

/-- A word with operands A and B issues, its fields are legal, and it reads x and y from the lowest active lane; u is the state
after its sources were popped. -/
structure ReadsWide (t : Attr) (g : GuardField) (a b : RegField) (write : List RegField) (s u : State) (i : Issue) (x y : Dword) : Prop where
  issues : Issues t g s i
  readable : i.regOk false .pair a = true ∧ i.regOk false .pair b = true
  writable : ∀ r ∈ write, i.regOk true .pair r = true
  operands : ∃ v, s.awake.operands i [(.pair, a), (.pair, b)] write = .ok v u ∧ nth v 0 (lowestLane i.active) = x
    ∧ nth v 1 (lowestLane i.active) = y

/-- One 64-bit answer, in every active lane (R33). -/
def State.answered (u : State) (i : Issue) (a : RegField) (v : Dword) : State := u.delivered i .pair a fun _ => v

/-- A word that waits leaves the state as it was, but for the mark that its stream is held. -/
def State.heldBack (s : State) : State := { s with stalled := true }

/-- The barrier words: identifier, scope, guard, the fields read and written, and whether the word takes `.lane` (R208, R214 to R216). -/
def barrierWord : Instr → Option (RegField × BitVec 3 × GuardField × List RegField × List RegField × Bool)
  | .bar b sc g => some (b, sc, g, [], [], true)
  | .bara a b sc g => some (b, sc, g, [], [a], true)
  | .barw a b sc g => some (b, sc, g, [a], [], true)
  | .barinit a b sc g => some (b, sc, g, [a], [], false)
  | .cntsum a b sc g => some (b, sc, g, [a], [], false)
  | _ => none

/-- A barrier word issues with legal fields, its registers written; `lane` says that it takes `.lane` (R208, R214). -/
structure NamesBarrier (g : GuardField) (s : State) (i : Issue) (sc : BitVec 3) (id : RegField) (reads writes : List RegField)
    (lane : Bool) : Prop where
  issues : Issues barrierAttr g s i
  fields : i.barrierOk sc id reads writes lane = true
  written : s.awake.tokenPending i (reads.flatMap fun r => fieldRegs .pair r) = false

/-- It passes the checks that all barrier words share (R148, R210, R217). -/
structure AtBarrier (g : GuardField) (s : State) (i : Issue) (sc : BitVec 3) (id : RegField) (reads writes : List RegField)
    (lane : Bool) : Prop extends NamesBarrier g s i sc id reads writes lane where
  passes : s.awake.barrierReason i sc.toNat id.toNat = none

/-- An entry that a queue can take now: neither faulted nor full, with room for its command (R242, R260). -/
structure TakesEntry (s : State) (i : Issue) (q : BitVec 2) : Prop where
  group : i.hank = false
  sound : (s.queue i.core i.engines q.toNat).faulted = false
  room : (s.queue i.core i.engines q.toNat).entries.length < 16
  inbox : s.ownRoom i.core = true

/-- The issuing group holds every slot of a list (R272, R287). -/
structure HoldsSlots (s : State) (i : Issue) (r : Resident) (slots : List Nat) : Prop where
  unit : s.unit i.core i.unit = some r
  group : i.hank = false
  held : ∀ k ∈ slots, (r.reservation k).isSome = true

/-- A step of descriptor A on accumulator c can be accepted (R276, R279, R287). -/
structure TakesStep (s : State) (i : Issue) (a : Dword) (c : BitVec 2) (q : Option Nat) (r : Resident) (acc : Nat) : Prop where
  field : a.toNat / 2 ^ 30 = 0
  slots : HoldsSlots s i r (stepDesc a).slots
  ready : ∀ k ∈ (stepDesc a).slots, ((s.core i.core).tile.slot k).state = .ready
  format : (r.reservation (stepDesc a).aslot).map (·.fmt) = (r.reservation (stepDesc a).bslot).map (·.fmt)
  fits : (stepDesc a).fits (((r.reservation (stepDesc a).aslot).map (·.fmt)).getD 0) q = true
  declared : r.accs[c.toNat]? = some acc
  room : s.stepRoom i.core = true

/-- The rows of a step: the active lanes of a group, or the mask that a lead gives (R276). -/
def Issue.stepMask (i : Issue) (y : Dword) : LaneMask := if i.kind == .group then i.active else y

/-- A declared accumulator that no step targets (R274). -/
structure AtAccumulator (s : State) (i : Issue) (r : Resident) (c : BitVec 2) (acc : Nat) : Prop where
  slots : HoldsSlots s i r []
  declared : r.accs[c.toNat]? = some acc
  still : ∀ x ∈ (s.core i.core).tile.steps, x.acc ≠ acc

/-- A message of a lead or group leaves at once, behind the releases that a save left pending; a run's is captured (R313, R321,
R324). -/
def State.leaves (u : State) (i : Issue) (dst : Nat) (cls : MsgClass) (m : Asker → Msg) : State :=
  if i.kind == .run then u.captured i dst cls m else (u.ahead i.core cls).emitted i dst cls m

/-- There is room for it behind the releases that a save left pending (R313, R324). -/
def State.canEmit (u : State) (i : Issue) (dst : Nat) (cls : MsgClass) : Prop :=
  i.kind ≠ .run → (u.ahead i.core cls).outRoom i.core dst cls = true

/-- The relative coordinate word names a core of the issuing context (R122, R314). -/
def State.namesCore (s : State) (i : Issue) (w : BitVec 16) (dst : Nat) : Prop :=
  (s.context i.ctx).bind (fun c => c.coreAt w) = some dst

/-- A table word's fields are legal, its registers written, and its unit has not sent its elements (R302, R310). -/
structure NamesTable (s : State) (i : Issue) (a : RegField) (write read : List RegField) (base len : Nat) : Prop where
  fields : i.tableOk a write read = true
  fresh : s.acknowledged i = none
  written : s.tokenPending i (fieldRegs .pair a ++ read.map (·.toNat)) = false
  table : s.table i a = (base, len)

/-- Its descriptor is sound: LEN is in range, and BASE names a word of a space (R302). -/
structure SoundTable (s : State) (i : Issue) (a : RegField) (write read : List RegField) (base len : Nat) : Prop
    extends NamesTable s i a write read base len where
  length : 0 < len ∧ len < 2 ^ 24
  space : namesNoSpace base = false
  aligned : base % 4 = 0

/-- It is sound, and its words have an owner (R302, R303). -/
structure OnTable (s : State) (i : Issue) (a : RegField) (write read : List RegField) (base len owner : Nat) : Prop
    extends SoundTable s i a write read base len where
  owner : (s.locate i .unified base).map (·.1) = some owner

/-- The elements of the active lanes. -/
def State.elements (s : State) (i : Issue) (base len : Nat) (b : RegField) : List (Nat × Except (Nat × Nat) Nat) :=
  (lanesOf i.active).map fun l => (l, s.element i base len (s.laneWord i b l).toNat)

/-- The element message of a unit leaves for its owner; D of the lanes it awaits is written when the reply comes, unless a younger
unit writes it first (R96, R303, R304). -/
def State.elementsSent (s : State) (i : Issue) (owner base : Nat) (d : RegField) (awaited : LaneMask) (op : ElementOp)
    (l : List Element) : State :=
  let x := s.newId i.core
  let t := x.2.sendElements i owner (base / 2 ^ 20 * 2 ^ 20) op l x.1
  if awaited = 0 then t
  else (t.modUnit i.core i.unit fun r => (lanesOf awaited).foldl (fun r l => r.overwritten l [d.toNat]) r).addPending i
    { i.pendingUnit x.1 d false awaited [] with writes := awaited, loose := true }

/-- The element message of a unit leaves, and the unit waits at its word for the reply, to trap or to have its results (R306, R308,
R309). -/
def State.elementsAwaited (s : State) (i : Issue) (owner origin : Nat) (d : RegField) (writes : LaneMask) (after : Option TrapRec)
    (op : ElementOp) (l : List Element) : State :=
  let x := s.newId i.core
  (x.2.sendElements i owner origin op l x.1).addPending i
    { i.pendingUnit x.1 d false i.lanes [] with after := after, writes := writes }

/-- The records of a GATHER, and those of a scatter. -/
def readRecords (good : List (Nat × Nat)) : List Element := good.map fun x => ⟨x.1, x.2, 0, false⟩

def updateRecords (op : AtomicOp) (v : Nat → Word) (good : List (Nat × Nat)) : List Element :=
  (offsets good).map fun off => ⟨((good.find? fun x => x.2 == off).map (·.1)).getD 0, off, combined op.apply v good off, false⟩

/-- The records of HACC and HFIND: the active lanes' keys in lane order, with their values. -/
def State.keyRecords (s : State) (i : Issue) (b : RegField) (value : Nat → Word) : List Element :=
  (lanesOf i.active).map fun l => ⟨l, (s.laneWord i b l).toNat, value l, false⟩

/-- The scatter family (R305). -/
def scatterOf : Instr → Option (AtomicOp × RegField × RegField × RegField × GuardField)
  | .scatter d a b g => some (.xchg, d, a, b, g)
  | .scadd d a b g => some (.add, d, a, b, g)
  | .scfadd d a b g => some (.fadd, d, a, b, g)
  | .scmin d a b g => some (.min, d, a, b, g)
  | .scmax d a b g => some (.max, d, a, b, g)
  | _ => none

/-- GATHER and the scatter family: what each accepts, its table, index and guard, and the registers that it writes and reads besides
(R304, R305, R310). -/
def tableWord : Instr → Option (Attr × RegField × RegField × GuardField × List RegField × List RegField)
  | .gather d a b g => some (irregularAttr, a, b, g, [d], [b])
  | x => (scatterOf x).map fun (_, d, a, b, g) => ({ irregularAttr with spin := true }, a, b, g, [], [b, d])

/-- A hash word's fields are legal, its registers written, and its unit has not sent its keys (R307, R310). -/
structure NamesHash (s : State) (i : Issue) (a b : RegField) (write read : List RegField) (base logc : Nat) : Prop where
  fields : i.tableOk a write (b :: read) = true
  fresh : s.acknowledged i = none
  written : s.tokenPending i (fieldRegs .pair a ++ (b :: read).map (·.toNat)) = false
  table : s.table i a = (base, logc)

/-- A hash table and its keys pass their checks (R307 to R309). -/
structure OnHash (s : State) (i : Issue) (a b : RegField) (write read : List RegField) (reserved : Bool) (base logc : Nat) : Prop
    extends NamesHash s i a b write read base logc where
  size : base < 2 ^ 20 ∧ 4 ≤ logc ∧ logc ≤ 17
  window : i.window.holds base (8 * 2 ^ logc) = true
  aligned : base % 8 = 0
  keys : reserved = true → ∀ l ∈ lanesOf i.active, s.laneWord i b l ≠ 0xFFFFFFFF

/-- The directory of the issuing context is in use (R344, R358). -/
def State.directoryInUse (s : State) (i : Issue) : Prop := ∃ x, s.context i.ctx = some x ∧ s.hitching x = true

/-- The blocks at the addresses in the active lanes of B. -/
def Issue.blocksAt (i : Issue) (parts : Dword → List (Nat × Nat)) (b : Nat → Dword) : List LaneAccess :=
  (lanesOf i.active).map fun l => i.blockAccess (parts (b l)) l (b l)

/-- Parts of a block at the address in each active lane of the pair B pass their checks, and their pages are there (R33, R358). -/
structure ReadsBlocks (s u : State) (i : Issue) (parts : Dword → List (Nat × Nat)) (b : RegField) (dsts : List RegField)
    (v : List (Nat → Dword)) : Prop where
  field : i.regOk false .pair b = true
  operands : s.operands i [(.pair, b)] dsts = .ok v u
  checks : i.addressTrap (i.blocksAt parts (nth v 0)) = none
  pages : AllLocal u i ((targets (i.blocksAt parts (nth v 0))).flatMap fun t =>
    (parts (nth v 0 t.lane)).map fun p => { t with off := t.off + p.1 })

/-- The parts read in lane order: what a lane has read, its bytes at their places in the block, and the state (R181, R360). -/
def State.blocksRead (u : State) (i : Issue) (parts : Dword → List (Nat × Nat)) (b : Nat → Dword) : (Nat → Nat) × State :=
  let x := u.readBlocks i (fun l => parts (b l)) (targets (i.blocksAt parts b))
  (fun l => (SMap.find x.1 l).getD 0, x.2)


/-! ### Events -/

/-- A rollback's queues: the entries of a launch on a unit are discarded (R379). -/
def State.discardEntries (s : State) (c u : Nat) (h : BitVec 32) : State :=
  (List.range 4).foldl (fun s q => ((s.queue c u q).entries.filter (·.launch == h)).foldl (fun s e =>
    (s.forgetEntry c u q e).modQueue c u q fun y => { y with entries := y.entries.erase e, done := y.done + 1 }) s) s

/-- The state after the queues and the release buffer are discarded, what a failed link has lost goes on, and the log is applied as
far as its pages are there (R379, R381). -/
def State.restored (s : State) (ctx : Nat) (h : BitVec 32) (x : Context) (l : Launch) : State :=
  let s := x.cores.foldl (fun s c => (((s.core c).units.filter fun u => u.2.info.handle == h).foldl
    (fun s u => s.discardEntries c u.1 h) s).discardEntries c 16 h) s
  ((if l.linkFailed then (s.mendFlows x).mendPages ctx else s).discardFar ctx h).restoreLog ctx x h l.log.length

/-- The state after one attempt to complete a rollback: with its log applied the launch leaves its cores, and is placed again or
fails with reason 3 after three replays, 2 or 5 without a rectangle (R373, R379, R381). -/
def State.rolledBack (s : State) (ctx : Nat) (h : BitVec 32) (x : Context) (l : Launch) : State :=
  let t := s.restored ctx h x l
  if ((t.launch ctx h).map (·.log.isEmpty)).getD true = false then t
  else
    let t := ((t.withdraw ctx x h).dismiss ctx x h).modLaunch ctx h fun l => { l with nextGroup := 0, done := 0 }
    if 3 ≤ l.replays then t.modLaunch ctx h fun l => { l with state := .failed, reason := 3 }
    else match t.replayOrigin x l with
      | none => t.modLaunch ctx h fun l => { l with state := .failed, reason := if l.linkFailed then 2 else 5 }
      | some o => t.modLaunch ctx h fun l => { l with state := .placing, replays := l.replays + 1, origin := o, linkFailed := false }

/-- The lead of a unit may take its turn at a dispatch ring: its next word is there (R368). -/
def State.resumes (s : State) (c u : Nat) : Bool :=
  match s.issue (.lead c u) with
  | some i => s.isDispatchLead i && !i.handler && s.ringHolds i
  | none => false


/-- The commit point of a commit: departing lines are gone, the new mapping is taken, held requests are answered REPLAY, and the
stations reload (R233). -/
def State.switched (s : State) (m : Commit) : State :=
  let t := (s.drained m).modL2 fun l => { l with
    active := ((List.range 16).filter fun d => m.mask.getLsbD d).foldl (fun a d => SMap.put a d (s.afterCommit m d)) l.active
    stat := (l.stat &&& 0xFFFF) ||| (BitVec.ofNat 64 m.mask.toNat <<< 16)
    commit := some { m with stage := .switched, reload := List.range 64 } }
  { t with cores := t.cores.map fun k => (k.1, t.replayCore k.2) }

/-- An entry that moves bytes in pieces (R243). -/
def EngineOp.moves : EngineOp → Bool
  | .copy .. => true
  | .tiles .. => true
  | _ => false

/-- The run that the dispatcher starts in a bank: the classes in rotation, the oldest message of each, its binding of the bank's
priority and a free context; in the high-priority bank while no run has masked it (R318 to R320, R328). -/
def State.dispatchIn (s : State) (c ctx : Nat) (x : Context) (hi : Bool) : Option State :=
  let h := (s.core c).handlers
  let masked := h.runs.any fun r => !r.2.hi && r.2.masked.isSome
  ((List.range 4).map fun j => ((if hi then h.hiTurn else h.turn) + j) % 4).findSome? fun j =>
    let cls := (dispatchOrder[j]?).getD .ctl
    if cls = .ray ∧ (s.strayRay c x).isSome = true then none else
    match (s.core c).nextHandler cls with
    | none => none
    | some m =>
      let b := h.binding m.2.1
      if b.state = .bound ∧ b.hi = hi ∧ ¬ (hi = true ∧ masked = true) then
        (h.freeContext hi).map fun free => s.startRun c ctx x cls free ((j + 1) % 4) m b
      else none

/-- A fill that is given up: its pins and its frame are gone, TEVICTs answer 1, its requests are gone, a TPIN that waits answers 4 (R347,
R365, R366). -/
def State.fillGone (s : State) (ctx c f : Nat) (t : TFrame) : State :=
  let s := ((s.modCore c (·.unpinTFrame ctx f)).dropTFrame c f).modStation (stationOf c) fun st => { st with
    stalled := st.stalled.filter fun y => match y.who with
      | .treelet c' f' _ => !(c' == c && f' == f)
      | _ => true }
  match t.forPin with
  | some a => s.answer a 4
  | none => s

/-! ### Rules of the whole machine -/

/-- The instructions marked P in the opcode map (R42, R43), with what each accepts. -/
def privileged : Instr → Option (Attr × GuardField)
  | .rte g => some (systemAttr, g)
  | .sysr _ g => some (systemAttr, g)
  | .sysw _ g => some (systemAttr, g)
  | .halt _ g => some (systemAttr, g)
  | .l2wb _ _ g => some (pageAttr, g)
  | .l2inv _ _ g => some (pageAttr, g)
  | .tsinv _ _ g => some (pageAttr, g)
  | .lspin _ _ g => some (pageAttr, g)
  | .lsunpin _ _ g => some (pageAttr, g)
  | .csaveCreate _ _ g => some (systemAttr, g)
  | .csavePlace _ _ g => some (systemAttr, g)
  | .csaveSave _ _ g => some (systemAttr, g)
  | .csaveDestroy _ _ g => some (systemAttr, g)
  | .csaveStatus _ _ g => some (systemAttr, g)
  | _ => none

/-- The operands of a privileged unit pass its own check of their values: those of registers at once, those of queues once popped. -/
def State.valuesOk (s : State) (i : Issue) (srcs : List (Cls × RegField)) (dsts : List RegField) (ok : List (Nat → Dword) → Prop) : Prop :=
  ok (srcs.map fun x => if isQueue x.2 then fun _ => 0 else s.source i x.1 x.2 none) ∧
    ∀ v u, s.operands i srcs dsts = .ok v u → ok v

/-- The fields, K and operand values with which a privileged unit is not ILLEGAL in itself (R236, R239, R399, R404, R405, R408). RTE has none:
outside a trap handler it is ILLEGAL (R398). -/
def State.legalFields (s : State) (i : Issue) : Instr → Prop
  | .sysr a _ => i.regOk true .pair a = true ∧ (s.readSystem i).isSome = true
  | .sysw a _ => i.regOk false .pair a = true ∧ (s.readSystem i).isSome = true
  | .halt a _ => i.regOk false .pair a = true ∧ i.k = 0 ∧ (isQueue a = true ∨ i.haltMode [s.source i .pair a none] = 1) ∧
      ∀ v u, s.operands i [(.pair, a)] [] = .ok v u → i.haltMode v = 1
  | .l2wb a b _ => i.regOk false .pair a = true ∧ i.regOk false .pair b = true ∧ i.k ≤ 1
  | .l2inv a b _ => i.regOk false .pair a = true ∧ i.regOk false .pair b = true ∧ i.k ≤ 3
  | .tsinv a b _ => i.regOk false .pair a = true ∧ i.regOk false .pair b = true ∧ i.k < 2 ^ 19 ∧ i.k / 2 ^ 16 % 4 ≠ 3 ∧
      (i.k.testBit 18 = true → i.k % 2 ^ 16 = 0)
  | .lspin a b _ => updates a b ∧ i.k = 0
  | .lsunpin a b _ => updates a b ∧ i.k = 0
  | .csaveCreate a b _ => updates a b ∧ i.k = 0 ∧ named a b fun y => y % 128 = 0
  | .csavePlace a b _ => updates a b ∧ i.k = 1 ∧ named a b fun y => y < 2 ^ 16
  | .csaveSave a b _ => updates a b ∧ i.k = 2 ∧ named a b fun y => y = 0
  | .csaveDestroy a b _ => updates a b ∧ i.k = 3 ∧ named a b fun y => y = 0
  | .csaveStatus a b _ => updates a b ∧ i.k = 4 ∧ named a b fun y => y = 0
  | _ => False
where
  updates (a b : RegField) : Prop := i.regOk false .pair a = true ∧ i.regOk false .pair b = true ∧ i.regOk true .pair a = true
  named (a b : RegField) (ok : Nat → Prop) : Prop := s.valuesOk i [(.pair, a), (.pair, b)] [a] fun v =>
    (nth v 0 (lowestLane i.active)).toNat < 2 ^ 16 ∧ ok (nth v 1 (lowestLane i.active)).toNat

/-- A scalar stream without its place, its loops and its registers. -/
def Scalar.rest (c : Scalar) : Scalar := { c with front := Front.at 0, regs := [], loops := [] }
def Lead.rest (l : Lead) : Lead := { l with s := l.s.rest }
def Run.rest (r : Run) : Run := { r with s := r.s.rest, masked := none }

/-- What issue i may change of its own unit. Of group code: queues, its path's place and spin count, the loops, the register writes still
to come and the bookkeeping of issue; of lead code: queues, and the lead's place, loops and registers. -/
structure Issue.Touches (i : Issue) (r r' : Resident) : Prop where
  group : i.kind = .group → r' = { r with
    queues := r'.queues, arrival := r'.arrival
    ctl := { r.ctl with paths := r'.ctl.paths, loops := r'.ctl.loops, pending := r'.ctl.pending }
    info := { r.info with ready := r'.info.ready, aged := r'.info.aged, skip := r'.info.skip } }
  paths : ∀ k, k ≠ i.path → r'.ctl.paths[k]? = r.ctl.paths[k]?
  lanes : r'.ctl.paths.map (·.lanes) = r.ctl.paths.map (·.lanes)
  lead : i.kind = .lead → r' = { r with queues := r'.queues, lead := r'.lead } ∧ r'.lead.map Lead.rest = r.lead.map Lead.rest

/-- What differs between two states lies in the issuing stream's own unit or run, and in the lane registers of its core. -/
structure SameOutside (i : Issue) (s t : State) : Prop where
  contexts : t.contexts = s.contexts
  stations : t.stations = s.stations
  l2 : t.l2 = s.l2
  hbm : t.hbm = s.hbm
  link : t.link = s.link
  host : t.host = s.host
  far : t.far = s.far
  others : ∀ c, c ≠ i.core → t.core c = s.core c
  core : t.core i.core = { s.core i.core with
    units := (t.core i.core).units
    lrf := (t.core i.core).lrf
    handlers := { (s.core i.core).handlers with runs := (t.core i.core).handlers.runs } }
  units : ∀ u, u ≠ i.unit ∨ i.kind = .run → t.unit i.core u = s.unit i.core u
  runs : ∀ k, k ≠ i.unit ∨ i.kind ≠ .run → t.run i.core k = s.run i.core k
  own : ∀ r, i.kind ≠ .run → s.unit i.core i.unit = some r → ∃ r', t.unit i.core i.unit = some r' ∧ i.Touches r r'
  run : i.kind = .run → (t.run i.core i.unit).map Run.rest = (s.run i.core i.unit).map Run.rest

/-- Of a core's lane registers, only the destination registers of the issuing group's active lanes differ. -/
def SameLanes (i : Issue) (regs : List Nat) (s t : State) : Prop :=
  ∀ (q : Resident) l n, (∀ k l' n', i.kind = .group → s.unit i.core i.unit = some k → i.active.getLsbD l' = true → n' ∈ regs → n' < 56 →
    q.lrfKey l n ≠ k.lrfKey l' n') → t.lane i.core q l n = s.lane i.core q l n

/-- Of a lead's or run's registers, only the destination differs. -/
def SameRegs (i : Issue) (d : RegField) (s t : State) : Prop :=
  i.kind ≠ .group → ∀ n, n ≠ d.toNat → SMap.word (t.scalar i).regs n = SMap.word (s.scalar i).regs n

/-- The registers of a unit fit in the core's file (R125, R126). -/
def Resident.fits (r : Resident) : Prop := r.info.base + 56 ≤ 1024

end Sys2Proof.Machine
end

