-- ==== Sys2Proof/Certificates/Slice0/Obligations.lean ====
section
/-! DEFINITION. The statements for the provers. -/

open Sys2Proof Sys2Proof.Machine

/-! ### Results in registers -/

/-- R98 to R121: an integer instruction, a move, a predicate read or a lane exchange that issues with legal fields and readable
sources completes, and delivers in each active lane the value that its rule gives.
R151: where the destination is a queue that fetches its entries, a lead pushes the W words from the local address that the
result names, or traps LS_BOUND or MISALIGN at that address.
R28, R30: a unit with a register field that its stream does not have traps ILLEGAL. -/
def Obligations.PureResults : Prop :=
  (∀ (x : Instr) (r : ResultSpec) (s u : State) (i : Issue) (vals : List (Nat → Dword)),
    pureResult x = some r → Issues r.attr r.guard s i → r.legal i = true → i.registersOk (r.cls, r.dst) (r.srcs i) →
    s.awake.operands i (r.srcs i) [r.dst] = .ok vals u → u.broadcasts i r.dst →
    exec x s = .next (i.finished r.attr (u.delivered i r.cls r.dst (r.value s.awake i vals)))) ∧
  (∀ (x : Instr) (r : ResultSpec) (s u : State) (i : Issue) (vals : List (Nat → Dword)) (q : Resident),
    pureResult x = some r → Issues r.attr r.guard s i → r.legal i = true →
    (i.registersOk (r.cls, r.dst) (r.srcs i) → s.awake.operands i (r.srcs i) [r.dst] = .ok vals u → i.kind = .lead →
      isQueue r.dst = true → u.unit i.core i.unit = some q → ((q.queues[queueIndex r.dst]?).getD QueueReg.unmapped).opt ≠ 0 →
      (let a := (r.value s.awake i vals 0).toNat % 2 ^ 20
       let n := 4 * q.info.width
       (i.window.holds a n = false →
        exec x s = .next (s.awake.takeTrap i ⟨Cause.lsBound, i.mask, BitVec.ofNat 64 a, 0⟩)) ∧
       (i.window.holds a n = true → a % 4 ≠ 0 →
        exec x s = .next (s.awake.takeTrap i ⟨Cause.misalign, i.mask, BitVec.ofNat 64 a, 0⟩)) ∧
       (i.window.holds a n = true → a % 4 = 0 → s.awake.pages i.core i.ctx [a, a + n - 1] (some i.waiter) = .ready →
        exec x s = .next (i.finished r.attr ((u.localEntry i.agent i.core a q.info.width).2.pushQueue i (queueIndex r.dst)
          (u.localEntry i.agent i.core a q.info.width).1))))) ∧
    (¬ i.registersOk (r.cls, r.dst) (r.srcs i) → exec x s = .next (s.awake.takeTrap i ⟨Cause.illegal, 0, 0, 0⟩)))

/-- R81 to R94: a floating-point instruction none of whose events is enabled completes: its events are counted on the core, its
lanes' generators advance, and it delivers the value that its rule gives in each active lane.
R77: an enabled event traps FP_TRAP before the unit has any effect, with the lanes that raised one and all events raised. -/
def Obligations.FloatResults : Prop :=
  (∀ (x : Instr) (r : FloatSpec) (s u : State) (i : Issue) (vals : List (Nat → Dword)),
    floatResult x = some r → Issues r.attr r.guard s i → i.registersOk (r.cls, r.dst) (r.srcs i) →
    s.awake.operands i (r.srcs i) [r.dst] = .ok vals u → u.broadcasts i r.dst →
    i.trappingLanes (s.modeOf i) (fun l => (r.outIn s.awake i vals l).ev) = 0 →
    exec x s = .next (i.finished r.attr
      ((State.setGens (u.count i.core (i.eventsOf fun l => (r.outIn s.awake i vals l).ev)) i
        fun l => (r.outIn s.awake i vals l).gen).delivered i r.cls r.dst (i.inLanes fun l => (r.outIn s.awake i vals l).value)))) ∧
  (∀ (x : Instr) (r : FloatSpec) (s u : State) (i : Issue) (vals : List (Nat → Dword)),
    floatResult x = some r → Issues r.attr r.guard s i → i.registersOk (r.cls, r.dst) (r.srcs i) →
    s.awake.operands i (r.srcs i) [r.dst] = .ok vals u →
    i.trappingLanes (s.modeOf i) (fun l => (r.outIn s.awake i vals l).ev) ≠ 0 →
    exec x s = .next (s.awake.takeTrap i ⟨Cause.fpTrap, i.trappingLanes (s.modeOf i) fun l => (r.outIn s.awake i vals l).ev, 0,
      BitVec.ofNat 64 (i.eventsOf fun l => (r.outIn s.awake i vals l).ev).info⟩))

/-- R112 to R116: an integer compare, predicate logic, G2P or a vote completes, and writes its predicate in each active lane.
R72, R111, R115: MODEW stores the MODE of its stream from the lowest active lane, with reserved codes stored as R70 says,
and its seed unless B is gz; PSETW writes a word of predicates in each active lane.
R113: a floating-point compare whose invalid event is not enabled completes: its predicate is written in each active lane
and its invalid events are counted.
R77, R113: one whose invalid event is enabled traps FP_TRAP with the lanes that raised it. -/
def Obligations.PredicateResults : Prop :=
  (((∀ (x : Instr) (r : PredSpec) (s u : State) (i : Issue) (vals : List (Nat → Dword)),
    predicateResult x = some r → Issues r.attr r.guard s i → (i.kind = .group ∨ ∀ p ∈ r.dst :: r.preds, p.toNat < 16) →
    (r.srcs.all fun y => i.regOk false y.1 y.2) = true → s.awake.operands i r.srcs [] = .ok vals u →
    exec x s = .next (i.finished r.attr (u.writePreds i r.dst.toNat (r.value s.awake i vals)))) ∧
  (∀ (a b n : RegField) (g : GuardField) (s u : State) (i : Issue) (vals : List (Nat → Dword)), Issues {} g s i →
    (i.regOk false .pair a = true → i.regOk false .word b = true →
      s.awake.operands i [(.pair, a), (.word, b)] [] = .ok vals u →
      exec (.modew a b g) s = .next (i.finished {}
        (let t := u.writeMode i (storedMode (nth vals 0 (lowestLane i.active)))
         if b = 60 then t else t.writeSeed i ((nth vals 1 (lowestLane i.active)).setWidth 32)))) ∧
    (i.predWordOk n = true → i.regOk false .nat a = true → s.awake.operands i [(.nat, a)] [] = .ok vals u →
      exec (.psetw a n g) s = .next (i.finished {}
        ((lanesOf i.active).foldl (fun t l => t.writePredWord i n.toNat l (nth vals 0 l)) u))))) ∧
  (∀ (x : Instr) (f : Fmt) (c : Cls) (cond : Nat) (p a b : RegField) (g : GuardField) (s u : State) (i : Issue)
    (vals : List (Nat → Dword)),
    floatCompare x = some (f, c, cond, p, a, b, g) → Issues {} g s i → (i.kind = .group ∨ p.toNat < 16) →
    i.regOk false c a = true → i.regOk false c b = true → s.awake.operands i [(c, a), (c, b)] [] = .ok vals u →
    (let out (l : Nat) := f.compare (ftz (s.modeOf i)) cond (nth vals 0 l).toNat (nth vals 1 l).toNat
     i.trappingLanes (s.modeOf i) (fun l => Ev.invalid (out l).2) = 0 →
     exec x s = .next (i.finished {} ((u.count i.core (i.eventsOf fun l => Ev.invalid (out l).2)).writePreds i p.toNat fun l =>
      (out l).1))))) ∧
  (∀ (x : Instr) (f : Fmt) (c : Cls) (cond : Nat) (p a b : RegField) (g : GuardField) (s u : State) (i : Issue)
    (vals : List (Nat → Dword)),
    floatCompare x = some (f, c, cond, p, a, b, g) → Issues {} g s i → (i.kind = .group ∨ p.toNat < 16) →
    i.regOk false c a = true → i.regOk false c b = true → s.awake.operands i [(c, a), (c, b)] [] = .ok vals u →
    (let ev (l : Nat) := Ev.invalid (f.compare (ftz (s.modeOf i)) cond (nth vals 0 l).toNat (nth vals 1 l).toNat).2
     i.trappingLanes (s.modeOf i) ev ≠ 0 →
     exec x s = .next (s.awake.takeTrap i ⟨Cause.fpTrap, i.trappingLanes (s.modeOf i) ev, 0, BitVec.ofNat 64 (i.eventsOf ev).info⟩)))

/-- R78, R120, R121: a reduction or a scan none of whose events is enabled completes with the values of its fixed tree.
R77: one with an enabled event traps FP_TRAP with all its active lanes and the events of all nodes. -/
def Obligations.TreeResults : Prop :=
  (∀ (x : Instr) (r : TreeSpec) (s u : State) (i : Issue) (vals : List (Nat → Dword)),
    treeResult x = some r → Issues groupOnly r.guard s i → i.registersOk (.nat, r.dst) [(.nat, r.src)] →
    s.awake.operands i [(.nat, r.src)] [r.dst] = .ok vals u → u.broadcasts i r.dst →
    (r.answer (s.modeOf i) i vals).2.enabled (s.modeOf i) = false →
    exec x s = .next (i.finished groupOnly ((u.count i.core (r.answer (s.modeOf i) i vals).2).delivered i .nat r.dst fun l =>
      BitVec.ofNat 64 ((r.answer (s.modeOf i) i vals).1 l)))) ∧
  (∀ (x : Instr) (r : TreeSpec) (s u : State) (i : Issue) (vals : List (Nat → Dword)),
    treeResult x = some r → Issues groupOnly r.guard s i → i.registersOk (.nat, r.dst) [(.nat, r.src)] →
    s.awake.operands i [(.nat, r.src)] [r.dst] = .ok vals u →
    (r.answer (s.modeOf i) i vals).2.enabled (s.modeOf i) = true →
    exec x s = .next (s.awake.takeTrap i ⟨Cause.fpTrap, i.active, 0, BitVec.ofNat 64 (r.answer (s.modeOf i) i vals).2.info⟩))

/-! ### Hints, branches, paths and queues -/

/-- R35 to R40: a hint word of a kind that its unit does not have yet is latched, and the stream goes to the next word. That a second of
one kind is passed like the first and makes the unit malformed, so that it traps at its word, is the model's choice (DESIGN CHOICE, log
entry 82).
R137, R140, R142: YIELD gives up an issue opportunity after its unit; END ends its active lanes, or its lead; NOP only goes
by. That a YIELD in a unit with the yield bit of SCHED gives up two opportunities is the model's choice (log entry 95).
R141 to R143: LOOP opens a frame inside the innermost one, of at most four, or goes past its body when the count is 0;
REPEAT makes the next word issue n times, unless it is of BR or JR. -/
def Obligations.HintWords : Prop :=
  ((∀ (s : State) (i : Issue) (x : BitVec 23) (sense : BitVec 1) (p : BitVec 6) (y : BitVec 1) (c : BitVec 4)
    (l : BitVec 2) (e : BitVec 1) (r : BitVec 6) (f : BitVec 1) (sat : BitVec 2) (n : BitVec 1) (m : BitVec 3), Latches s i →
    (i.front.hints.ximm = none → exec (.ximmHint x) s = .next (s.latched i { i.front.hints with ximm := some x } 0)) ∧
    (i.front.hints.guard = none → exec (.guardHint sense p) s = .next (s.latched i { i.front.hints with guard := some (sense, p) } 0)) ∧
    (i.front.hints.sched = none → exec (.schedHint y c) s = .next (s.latched i { i.front.hints with sched := some (y, c) } c.toNat)) ∧
    (i.front.hints.mod = none → exec (.modHint l e r f sat n m) s =
      .next (s.latched i { i.front.hints with mod := some (l ++ e ++ r ++ f ++ sat ++ n ++ m) } 0)) ∧
    (let malformed := s.latched i { i.front.hints with bad := true } 0
     (i.front.hints.ximm ≠ none → exec (.ximmHint x) s = .next malformed) ∧
     (i.front.hints.guard ≠ none → exec (.guardHint sense p) s = .next malformed) ∧
     (i.front.hints.sched ≠ none → exec (.schedHint y c) s = .next malformed) ∧
     (i.front.hints.mod ≠ none → exec (.modHint l e r f sat n m) s = .next malformed))) ∧
  (∀ (g : GuardField) (s : State) (i : Issue),
    (Issues groupLead g s i → exec (.yield g) s = .next ((s.awake.finish i).issued i 1)) ∧
    (Issues endAttr g s i →
      (i.kind = .group → exec (.endOp g) s = .next ((s.awake.finish i).endLanes i.core i.unit i.active)) ∧
      (i.kind = .lead → exec (.endOp g) s = .next ((s.awake.finish i).endLead i.core i.unit))) ∧
    (Issues branchAttr g s i → exec (.nop g) s = .next (i.finished branchAttr s.awake)))) ∧
  (∀ (a n : RegField) (g : GuardField) (s u v : State) (i : Issue) (vals : List (Nat → Dword)), Issues branchAttr g s i → n ≠ 0 →
    (i.regOk false .nat a = true → (i.kind = .group → s.awake.pathCount i ≤ 1) → s.awake.operands i [(.nat, a)] [] = .ok vals u →
      (let count := (nth vals 0 (lowestLane i.active)).toNat
       let last := i.front.pc + BitVec.ofNat 32 (4 * n.toNat)
       (∀ f more, u.loops i = f :: more → f.first.toNat ≤ i.front.pc.toNat + 4 ∧ i.front.pc.toNat + 4 * n.toNat ≤ f.last.toNat) →
       (count = 0 → exec (.loop a n g) s = .next (u.standsAt i (endCheck last (u.loops i)).1 (endCheck last (u.loops i)).2)) ∧
       (count ≠ 0 → (u.loops i).length < 4 →
        exec (.loop a n g) s = .next (u.standsAt i i.next (⟨i.next, last, count⟩ :: u.loops i))) ∧
       (count ≠ 0 → 4 ≤ (u.loops i).length →
        exec (.loop a n g) s = .next (s.awake.takeTrap i ⟨Cause.illegal, 0, 0, 4⟩)))) ∧
    (i.front.hints.mod = none → (s.awake.loops i).any (·.last == i.front.pc) = false →
      s.awake.repeatsBranch { i with front := { i.front with pc := i.next } } 5 = (some false, v) →
      exec (.repeatOp n g) s =
        .next (((v.countMasked i).setFront i ⟨i.next, Hints.none, n.toNat, i.front.skip⟩).issued i i.front.hints.yields)))

/-- R129, R130, R138, R139: a branch or a jump that may go its way takes its lanes to their targets; CALL and CALLR write the
offset of the next word first. R129 orders the targets of an indirect jump; that the lanes that do not jump stand behind them all is the
model's reading (DEDUCED, log entry 25).
R130, R139, R144, R158, R164, R395: what a branch, a call or a jump traps on: a misaligned target, a division in a trap handler (TINFO
28) or in a LOOP body (TINFO 5), a division of a bound segment. That MISALIGN records the misaligned lanes is the model's reading (DEDUCED,
log entry 23). -/
def Obligations.Branches : Prop :=
  (∀ (o : BitVec 18) (d a : RegField) (g : GuardField) (s u : State) (i : Issue) (vals : List (Nat → Dword)),
    Issues branchAttr g s i →
    (MayBranch s.awake i [(i.active, i.target18 o)] →
      exec (.bra o g) s = .next (s.awake.goTo i (i.parts [(i.active, i.target18 o)])) ∧
      exec (.call o g) s = .next ((s.awake.writeLanes i .word i.link i.active fun _ => i.next.setWidth 64).goTo i
        (i.parts [(i.active, i.target18 o)]))) ∧
    (i.regOk false .nat a = true → i.misaligned (targetIn vals) = 0 →
      MayBranch s.awake i (byTarget (targetIn vals) (lanesOf i.active)) →
      (s.awake.operands i [(.nat, a)] [] = .ok vals u →
        exec (.jmp a g) s = .next (u.goTo i (i.parts (byTarget (targetIn vals) (lanesOf i.active)))) ∧
        exec (.ret a g) s = .next (u.goTo i (i.parts (byTarget (targetIn vals) (lanesOf i.active))))) ∧
      (i.regOk true .nat d = true → s.awake.operands i [(.nat, a)] [d] = .ok vals u → u.broadcasts i d →
        exec (.callr d a g) s = .next ((u.delivered i .nat d fun _ => i.next.setWidth 64).goTo i
          (i.parts (byTarget (targetIn vals) (lanesOf i.active))))))) ∧
  (∀ (o : BitVec 18) (d a : RegField) (g : GuardField) (s u : State) (i : Issue) (vals : List (Nat → Dword)),
    Issues branchAttr g s i →
    (i.regOk false .nat a = true → i.misaligned (targetIn vals) ≠ 0 →
      (let bad := i.misaligned (targetIn vals)
       let trap : State := s.awake.takeTrap i
        ⟨Cause.misalign, if i.kind = .group then bad else 0, (targetIn vals (lowestLane bad)).setWidth 64, 0⟩
       (s.awake.operands i [(.nat, a)] [] = .ok vals u → exec (.jmp a g) s = .next trap ∧ exec (.ret a g) s = .next trap) ∧
       (i.regOk true .nat d = true → s.awake.operands i [(.nat, a)] [d] = .ok vals u → exec (.callr d a g) s = .next trap))) ∧
    (i.kind = .group → i.lanes &&& ~~~i.active ≠ 0 →
      (let trap (r : TrapRec) : Prop := exec (.bra o g) s = .next (s.awake.takeTrap i r) ∧ exec (.call o g) s = .next (s.awake.takeTrap i r)
       (i.handler = true → trap ⟨Cause.illegal, 0, 0, 28⟩) ∧
       (i.handler = false → s.awake.loops i ≠ [] → trap ⟨Cause.illegal, 0, 0, 5⟩) ∧
       (∀ (j : Nat) (m : LaneMask) (more : List (Nat × LaneMask)), i.handler = false → s.awake.loops i = [] →
        s.awake.divided i [i.active] = (j, m) :: more →
        trap ⟨Cause.lanyardDiverge, more.foldl (fun w x => w ||| x.2) m, 0, BitVec.ofNat 64 (16 * j)⟩))))

/-- R131, R132, R133: SPLIT pushes an entry whose members are the lanes of its path; JOIN parks its path at the innermost entry
that includes it, or completes that entry; BRK discards entries, sends its active lanes to its target, and gathers the other
members at the word after the outermost target; without such entries JOIN and BRK trap ILLEGAL.
R145: REFORM files its active lanes as strands while the bins have room for them; a lane that finds none continues at its own
offset, and the filed lanes end. -/
def Obligations.Divergence : Prop :=
  (∀ (o : BitVec 18) (n : BitVec 4) (o' : BitVec 14) (g : GuardField) (s : State) (i : Issue) (r : Resident),
    Issues pathAttr g s i → s.awake.unit i.core i.unit = some r →
    (r.ctl.joins.length < 16 → exec (.split o g) s = .next (i.finished pathAttr
      (s.awake.modCtl i.core i.unit fun k => { k with joins := ⟨i.target18 o, i.lanes, 0⟩ :: k.joins }))) ∧
    (16 ≤ r.ctl.joins.length → exec (.split o g) s = .next (s.awake.takeTrap i ⟨Cause.illegal, 0, 0, 1⟩)) ∧
    (∀ (j : Join) (k : Nat), r.ctl.joins.zipIdx.find? (fun x => x.1.includes i.lanes) = some (j, k) →
      exec (.join g) s = .next (if j.target = i.front.pc then s.awake.parkAt i k j
        else s.awake.takeTrap i ⟨Cause.illegal, 0, 0, 2⟩)) ∧
    (r.ctl.joins.zipIdx.find? (fun x => x.1.includes i.lanes) = none →
      exec (.join g) s = .next (s.awake.takeTrap i ⟨Cause.illegal, 0, 0, 2⟩)) ∧
    (discarded r.ctl.joins i.lanes (n.toNat + 1) = none → exec (.brk n o' g) s = .next (s.awake.takeTrap i ⟨Cause.illegal, 0, 0, 3⟩)) ∧
    (∀ (gone kept : List Join) (outer : Join), discarded r.ctl.joins i.lanes (n.toNat + 1) = some (gone, kept, outer) →
      (i.active = i.lanes ∨ r.ctl.loops = []) → s.awake.divided i [i.active] = [] →
      ∃ t k, exec (.brk n o' g) s = .next t ∧ t.unit i.core i.unit = some k ∧ k.ctl.joins = kept ∧
        k.ctl.loops = afterBranch (i.target14 o') r.ctl.loops ∧
        (let gathered := (gone.foldl (fun m j => m ||| j.members) 0) &&& r.lanes.live &&& ~~~i.active
         k.ctl.paths = Path.start (i.target14 o') i.active
          :: ((if gathered = 0 then [] else [Path.start (outer.target + 4) gathered])
            ++ dropLanes gathered (dropAt i.path r.ctl.paths))))) ∧
  (∀ (a n : RegField) (g : GuardField) (s u v : State) (i : Issue) (r : Resident) (vals : List (Nat → Dword)) (filed : LaneMask)
    (stay : List (Nat × Word)),
    Issues reformAttr g s i → s.awake.unsettled i = false → s.awake.unit i.core i.unit = some r → n ≠ 0 → n.toNat ≤ 16 → n.toNat ≤ i.regs →
    i.regOk false .nat a = true → s.awake.reforming i = true → s.awake.tokenPending i (List.range n.toNat) = false →
    s.awake.operands i [(.nat, a)] [] = .ok vals u → s.awake.lanesBound i = false → i.misaligned (i.reformTo a vals) = 0 →
    (u.finish i).fileLanes i r n.toNat (i.reformTo a vals) (lanesOf i.active) 0 [] = (filed, stay, v) →
    (let rest := i.lanes &&& ~~~i.active
     let stays := byTarget (fun l => ((stay.find? (·.1 == l)).map (·.2)).getD 0) (stay.map (·.1))
     exec (.reform a n g) s = .next ((v.modCtl i.core i.unit fun k => { k with
      paths := k.paths.take i.path
        ++ (match k.paths[i.path]? with
          | some p => if rest = 0 then [] else [{ p with lanes := rest }]
          | none => [])
        ++ stays.map (fun x => Path.start x.2 x.1) ++ k.paths.drop (i.path + 1)
      loops := if rest = 0 && stays.isEmpty then [] else k.loops }).endLanes i.core i.unit filed)))

/-- R152, R157: QMAP maps its queue to the endpoint in the lowest active lane of A with the option in B, or traps QUEUE_MAP with
the reason. -/
def Obligations.QueueMapping : Prop :=
  ∀ (d a b : RegField) (g : GuardField) (s u : State) (i : Issue) (r : Resident) (vals : List (Nat → Dword)),
    Issues groupLead g s i → isQueue d = true → i.regOk false .nat a = true → i.regOk false .nat b = true →
    (i.hank = true → exec (.qmap d a b g) s = .next (s.awake.takeTrap i ⟨Cause.queueMap, 0, 0, BitVec.ofNat 64 (queueIndex d)⟩)) ∧
    (i.hank = false → s.awake.operands i [(.nat, a), (.nat, b)] [] = .ok vals u → u.unit i.core i.unit = some r →
      (let ep := (nth vals 0 (lowestLane i.active)).toNat % 16
       let opt := (nth vals 1 (lowestLane i.active)).toNat % 4
       (u.mapRefused i r (queueIndex d) ep opt = none →
        exec (.qmap d a b g) s = .next (i.finished groupLead (u.mapQueue i (queueIndex d) ep opt))) ∧
       (∀ why, u.mapRefused i r (queueIndex d) ep opt = some why → exec (.qmap d a b g) s =
        .next (s.awake.takeTrap i ⟨Cause.queueMap, 0, 0, BitVec.ofNat 64 (queueIndex d + 4 * why)⟩))))

/-! ### The lanyard -/

/-- R162, R163, R168: LBIND binds a group of whole segments, LFREE frees it, LSTAT reads the status of each lane's segment and
LCLR clears flags of the touched segments (R167, R170: LCMP, LTOP, LRND and LRNDD). That LRND and LRNDD complete under a saturation
override of 0b00 is the model's choice (DESIGN CHOICE, log entry 97).
R167, R170: LCMP and LTOP broadcast the order and the significant bits of each segment; LRND and LRNDD round each segment and
count the events by segment.
R165, R168: LBIND traps LANYARD_STATE with reason 3 in a bound group, whatever its segments and its A (DESIGN CHOICE, log entry 96), and 6 for an F that no segment of its size holds, and
LANYARD_DIVERGE with reason 2 where not every live lane is active or a segment holds ended lanes beside live ones; LFREE traps
LANYARD_STATE with reason 4 where nothing is bound, and LANYARD_DIVERGE with reason 2 where not every live lane is active.
R77, R170: a rounding with an enabled event traps FP_TRAP with the lanes of the segments that raised one. -/
def Obligations.LanyardBinding : Prop :=
  ((∀ (a kk m d : RegField) (g : GuardField) (s : State) (i : Issue), Issues lanyardAttr g s i →
    ((kk = 1 ∨ kk = 2 ∨ kk = 4 ∨ kk = 8) → 8 * kk.toNat ≤ i.width → i.scalarOk false a = true →
      s.awake.tokenPending i [a.toNat] = false → s.awake.lanyardOf i = none →
      (let v := (s.awake.source i .nat a none (lowestLane i.active)).toNat
       v < 4096 → v < 512 * kk.toNat → s.awake.wholeGroup i = true →
       mixedSegment (8 * kk.toNat) i.width (s.awake.live i) = false →
       exec (.lbind a kk g) s = .next (i.finished lanyardAttr (s.awake.modUnit i.core i.unit fun r =>
        { r with lanyard := some (boundLanyard (8 * kk.toNat) v i.width (s.awake.live i)) })))) ∧
    ((s.awake.lanyardOf i).isSome = true → s.awake.wholeGroup i = true →
      exec (.lfree g) s = .next (i.finished lanyardAttr (s.awake.modUnit i.core i.unit fun r => { r with lanyard := none }))) ∧
    (i.scalarOk true d = true → exec (.lstat d g) s = .next (i.finished lanyardAttr
      (s.awake.writeLanes i .nat d i.active fun lane =>
        match s.awake.lanyardOf i with
        | some l => l.status (lane / l.k)
        | none => 0))) ∧
    (∀ l, OnLanyard s.awake i l → m.toNat ≤ 31 → exec (.lclr m g) s = .next (i.finished lanyardAttr
      ((l.touched i.active).foldl (fun t x => t.modUnit i.core i.unit fun r => { r with lanyard := r.lanyard.map fun l =>
        { l with segments := setAt x.2 (fun g => { g with flags := g.flags &&& ~~~(BitVec.ofNat 5 m.toNat) }) l.segments } }) s.awake)))) ∧
  (∀ (d a b : RegField) (g : GuardField) (s : State) (i : Issue) (l : Lanyard),
    (Issues lanyardAttr g s i → OnLanyard s.awake i l → i.regOk true .nat d = true → isQueue d = false →
      i.regOk false .pair a = true → s.awake.tokenPending i (fieldRegs .pair a) = false →
      exec (.ltop d a g) s = .next (i.finished lanyardAttr (s.awake.segmentsTell i l .nat d fun x =>
        BitVec.ofNat 64 (significant (s.awake.segValue i l x.2 a)))) ∧
      (i.regOk false .pair b = true → s.awake.tokenPending i (fieldRegs .pair a ++ fieldRegs .pair b) = false →
        exec (.lcmp d a b g) s = .next (i.finished lanyardAttr (s.awake.segmentsTell i l .nat d fun x =>
          orderWord (s.awake.segValue i l x.2 a) (s.awake.segValue i l x.2 b))))) ∧
    (Issues lanyardRound g s i → OnLanyard s.awake i l → isQueue d = false → i.regOk false .pair a = true →
      s.awake.tokenPending i (fieldRegs .pair a) = false →
      (let rounded (f : Fmt) (x : Segment × Nat) : FRes :=
        segRound f (ftz (s.modeOf i)) (i.arith (s.modeOf i)) i.modSaturation x.1 (s.awake.segValue i l x.2 a) l.f
       let counted (f : Fmt) : State := s.awake.count i.core (Ev.sum ((l.touched i.active).map fun x => (rounded f x).ev))
       (i.regOk true .nat d = true → (∀ x ∈ l.touched i.active, (rounded f32 x).ev.enabled (s.modeOf i) = false) →
        exec (.lrnd d a g) s = .next (i.finished lanyardRound
          ((counted f32).segmentsTell i l .nat d fun x => BitVec.ofNat 64 (rounded f32 x).bits))) ∧
       (i.regOk true .pair d = true → (∀ x ∈ l.touched i.active, (rounded f64 x).ev.enabled (s.modeOf i) = false) →
        exec (.lrndd d a g) s = .next (i.finished lanyardRound
          ((counted f64).segmentsTell i l .pair d fun x => BitVec.ofNat 64 (rounded f64 x).bits))))))) ∧
  ((∀ (a kk : RegField) (g : GuardField) (s : State) (i : Issue), Issues lanyardAttr g s i →
    (let trap (cause reason : Nat) := s.awake.takeTrap i ⟨cause, i.active, 0, BitVec.ofNat 64 reason⟩
     ((kk = 1 ∨ kk = 2 ∨ kk = 4 ∨ kk = 8) → 8 * kk.toNat ≤ i.width → i.scalarOk false a = true →
      s.awake.tokenPending i [a.toNat] = false →
      (let v := (s.awake.source i .nat a none (lowestLane i.active)).toNat
       ((s.awake.lanyardOf i).isSome = true → exec (.lbind a kk g) s = .next (trap Cause.lanyardState 3)) ∧
       (s.awake.lanyardOf i = none → 4096 ≤ v ∨ 512 * kk.toNat ≤ v →
        exec (.lbind a kk g) s = .next (trap Cause.lanyardState 6)) ∧
       (s.awake.lanyardOf i = none → v < 4096 → v < 512 * kk.toNat →
        s.awake.wholeGroup i = false ∨ mixedSegment (8 * kk.toNat) i.width (s.awake.live i) = true →
        exec (.lbind a kk g) s = .next (trap Cause.lanyardDiverge 2)))) ∧
     (s.awake.lanyardOf i = none → exec (.lfree g) s = .next (trap Cause.lanyardState 4)) ∧
     ((s.awake.lanyardOf i).isSome = true → s.awake.wholeGroup i = false →
      exec (.lfree g) s = .next (trap Cause.lanyardDiverge 2)))) ∧
  (∀ (d a : RegField) (g : GuardField) (s : State) (i : Issue) (l : Lanyard) (x : Instr) (f : Fmt) (c : Cls),
    (x = .lrnd d a g ∧ f = f32 ∧ c = .nat) ∨ (x = .lrndd d a g ∧ f = f64 ∧ c = .pair) →
    Issues lanyardRound g s i → OnLanyard s.awake i l → isQueue d = false → i.regOk true c d = true → i.regOk false .pair a = true →
    s.awake.tokenPending i (fieldRegs .pair a) = false →
    (let ev (y : Segment × Nat) : Ev :=
      (segRound f (ftz (s.modeOf i)) (i.arith (s.modeOf i)) i.modSaturation y.1 (s.awake.segValue i l y.2 a) l.f).ev
     let hit := (l.touched i.active).filter fun y => (ev y).enabled (s.modeOf i)
     hit ≠ [] → exec x s = .next (s.awake.takeTrap i ⟨Cause.fpTrap, hit.foldl (fun w y => w ||| segLanes l.k y.2) 0, 0,
      BitVec.ofNat 64 (Ev.sum ((l.touched i.active).map ev)).info⟩))))

/-- R161, R167, R169: an exact operation writes its integer, and its flags, to every segment that has an active lane; where an
integer does not fit and MODE enables it, the unit traps FP_TRAP instead.
R163 to R167: a lanyard instruction traps LANYARD_STATE with reason 4 where nothing is bound, with reason 5 on a faulted
segment, and LANYARD_DIVERGE with reason 1 where a live lane of a touched segment is not active. -/
def Obligations.LanyardExact : Prop :=
  (∀ (x : Instr) (r : SegSpec) (s : State) (i : Issue) (l : Lanyard), segResult x = some r → Issues lanyardAttr r.guard s i →
    r.legal i = true → s.awake.tokenPending i r.regs = false → OnLanyard s.awake i l →
    (((s.modeOf i).getLsbD 34 = false ∨ ∀ y ∈ l.touched i.active, segOverflows l.k (r.value s.awake i l y).1 = false) →
      exec x s = .next (i.finished lanyardAttr (s.awake.segmentsSet i l r.dst (r.value s.awake i l)))) ∧
    ((s.modeOf i).getLsbD 34 = true → (∃ y ∈ l.touched i.active, segOverflows l.k (r.value s.awake i l y).1 = true) →
      exec x s = .next (s.awake.takeTrap i ⟨Cause.fpTrap,
        ((l.touched i.active).filter fun y => segOverflows l.k (r.value s.awake i l y).1).foldl
          (fun w y => w ||| segLanes l.k y.2) 0, 0, 64⟩))) ∧
  (∀ (x : Instr) (r : SegSpec) (s : State) (i : Issue), segResult x = some r → Issues lanyardAttr r.guard s i →
    r.legal i = true → s.awake.tokenPending i r.regs = false →
    (s.awake.lanyardOf i = none → exec x s = .next (s.awake.takeTrap i ⟨Cause.lanyardState, i.active, 0, 4⟩)) ∧
    (∀ l y more, s.awake.lanyardOf i = some l → (l.touched i.active).filter (fun x => x.1.faulted) = y :: more →
      exec x s = .next (s.awake.takeTrap i ⟨Cause.lanyardState,
        (y :: more).foldl (fun m x => m ||| segLanes l.k x.2) 0, 0, BitVec.ofNat 64 (5 + 16 * y.2)⟩)) ∧
    (∀ l y more, s.awake.lanyardOf i = some l → (∀ x ∈ l.touched i.active, x.1.faulted = false) →
      (l.touched i.active).filter (fun x => (segLanes l.k x.2 &&& s.awake.live i &&& ~~~i.active) != 0) = y :: more →
      exec x s = .next (s.awake.takeTrap i ⟨Cause.lanyardDiverge,
        (y :: more).foldl (fun m x => m ||| segLanes l.k x.2) 0, 0, BitVec.ofNat 64 (1 + 16 * y.2)⟩)))

/-! ### Memory -/

/-- R191, R196, R202, R204: a load whose addresses pass their checks and whose lines can be read now completes with what they
hold, in each active lane. -/
def Obligations.Loads : Prop :=
  ∀ (t b d a : RegField) (o : BitVec 7) (sz : BitVec 2) (g : GuardField) (s u w : State) (i : Issue) (v : List (Nat → Dword))
    (vals : SMap Nat),
    (∀ p x, (p = Space.local ∧ x = Instr.ldl t b o sz g) ∨ (p = Space.cluster ∧ x = Instr.ldc t b o sz g) →
      Issues { memoryAttr with ximm := true } g s i → i.registersOk (sizeCls sz, t) [(.nat, b)] →
      s.awake.operands i [(.nat, b)] [t] = .ok v u → i.addressTrap (s.awake.wordAccesses i p sz o v) = none →
      u.loadLanes i (sizeOf' sz) (targets (s.awake.wordAccesses i p sz o v)) = .ready vals w → w.broadcasts i t →
      exec x s = .next (i.finished memoryAttr (w.delivered i (sizeCls sz) t (loaded vals)))) ∧
    (Issues memoryAttr g s i → i.registersOk (.word, d) [(.nat, a), (.word, b)] →
      s.awake.operands i [(.nat, a), (.word, b)] [d] = .ok v u → i.addressTrap (s.awake.indexedAccesses i v) = none →
      u.loadLanes i 4 (targets (s.awake.indexedAccesses i v)) = .ready vals w → w.broadcasts i d →
      exec (.ldx d a b g) s = .next (i.finished memoryAttr (w.delivered i .word d (loaded vals)))) ∧
    (Issues vectorAttr g s i → i.plainRegs [d] [a] = true → s.awake.operands i [(.nat, a)] [] = .ok v u →
      (let base := (nth v 0 (lowestLane i.active)).toNat
       base % 4 = 0 → i.addressTrap (i.ranked.map (s.awake.rankAccess i base)) = none →
       u.loadLanes i 4 (targets (i.ranked.map (s.awake.rankAccess i base))) = .ready vals w →
       exec (.xlde d a g) s = .next (i.finished vectorAttr (w.writeLanes i .nat d i.active (loaded vals)))))

/-- R192, R196, R202, R203: a store whose addresses pass their checks and whose pages are there completes; CSTR stores to
rising addresses and writes the number of words stored. -/
def Obligations.Stores : Prop :=
  ∀ (t b d a : RegField) (o : BitVec 7) (sz : BitVec 2) (g : GuardField) (s u w : State) (i : Issue) (v : List (Nat → Dword)),
    (∀ p x, (p = Space.local ∧ x = Instr.stl t b o sz g) ∨ (p = Space.cluster ∧ x = Instr.stc t b o sz g) →
      Issues { storeAttr with ximm := true } g s i → i.regOk false (sizeCls sz) t = true → i.regOk false .nat b = true →
      s.awake.operands i [(.nat, b), (sizeCls sz, t)] [] = .ok v u → i.addressTrap (s.awake.wordAccesses i p sz o v) = none →
      u.storeLanes i (sizeOf' sz) (targets (s.awake.wordAccesses i p sz o v)) (fun l => (nth v 1 l).toNat) = .ready () w →
      exec x s = .next (i.finished storeAttr w)) ∧
    (Issues storeAttr g s i → i.regOk false .word d = true → i.regOk false .nat a = true → i.regOk false .word b = true →
      s.awake.operands i [(.nat, a), (.word, b), (.word, d)] [] = .ok v u → i.addressTrap (s.awake.indexedAccesses i v) = none →
      u.storeLanes i 4 (targets (s.awake.indexedAccesses i v)) (fun l => (nth v 2 l).toNat) = .ready () w →
      exec (.stx d a b g) s = .next (i.finished storeAttr w)) ∧
    (Issues { vectorAttr with spin := true } g s i → i.plainRegs [d] [a, b] = true →
      s.awake.operands i [(.nat, a), (.nat, b)] [] = .ok v u →
      (let base := (nth v 0 (lowestLane i.active)).toNat
       let all := i.ranked.map (s.awake.rankAccess i base)
       base % 4 = 0 → (all.all fun x => x.isOk) = true →
       u.storeLanes i 4 (targets all) (fun l => (nth v 1 l).toNat) = .ready () w →
       exec (.cstr d a b g) s = .next (i.finished storeAttr (w.writeLanes i .nat d i.active fun _ => BitVec.ofNat 64 all.length))))

/-- R205, R206: LDT loads eight rows of each octet's block, row j into register D + j; BLDL loads one aligned block and gives each
active lane the word that B selects. -/
def Obligations.BlockLoads : Prop :=
  ∀ (d a b : RegField) (g : GuardField) (s u : State) (i : Issue) (v : List (Nat → Dword)), Issues vectorAttr g s i →
    (i.plainRegs [] [a, b] = true → (d.toNat ≤ 48 ∧ d.toNat + 7 < i.regs) → s.awake.operands i [(.nat, a), (.nat, b)] [] = .ok v u →
      (∀ j < 8, ∀ x ∈ i.blockAccesses v j, x.isOk = true) →
      AllLocal u i (((List.range 8).map (i.blockAccesses v)).flatMap targets) →
      exec (.ldt d a b g) s = .next (i.finished vectorAttr ((List.range 8).foldl (fun u j =>
        let x := u.localLoads i 4 (targets (i.blockAccesses v j))
        x.2.writeLanes i .nat (d + BitVec.ofNat 6 j) i.active (loaded x.1)) u))) ∧
    (i.plainRegs [d] [a, b] = true → s.awake.operands i [(.nat, a), (.nat, b)] [] = .ok v u →
      (let base := (nth v 0 (lowestLane i.active)).toNat
       i.window.holds base 64 = true → base % 64 = 0 → u.pages i.core i.ctx [base] (some i.waiter) = .ready →
       exec (.bldl d a b g) s = .next (i.finished vectorAttr
        ((u.loadLocal i.agent i.core base 64).2.writeLanes i .nat d i.active fun l =>
          BitVec.ofNat 64 ((u.loadLocal i.agent i.core base 64).1 / 2 ^ (32 * ((nth v 1 l).toNat % 16)) % 2 ^ 32)))))

/-- R181, R191, R192: accesses that all lie in the issuing core, in pages that are there, are performed at once, in lane order. -/
def Obligations.LocalAccesses : Prop :=
  ∀ (s : State) (i : Issue) (n : Nat) (ts : List Target) (v : Nat → Nat), AllLocal s i ts →
    s.loadLanes i n ts = .ready (s.localLoads i n ts).1 (s.localLoads i n ts).2 ∧
    s.storeLanes i n ts v = .ready () ((s.localStores i n ts v).newId i.core).2

/-- R195: where a lane's address fails a check, a load or a store traps with the first failing cause, the lanes that fail it and
the first of their addresses, and stores nothing. The records of LDX, STX, of ranges and of BLDL, which names all its active lanes, are the
model's (log entries 23 and 61, DEDUCED, and 89, DESIGN CHOICE).
R195, R202: the same of LDX, STX, the atomics, WATCH, UNWATCH, WAITW and WAITGE.
R203, R204, R206: CSTR stores to the addresses before the first that fails, writes their number, and traps LS_BOUND with the
lanes not stored; it, XLDE and BLDL trap MISALIGN at a misaligned base, BLDL traps LS_BOUND outside the window, and XLDE at an
address that fails. -/
def Obligations.AddressTraps : Prop :=
  (∀ (t b : RegField) (o : BitVec 7) (sz : BitVec 2) (g : GuardField) (s u : State) (i : Issue) (v : List (Nat → Dword))
    (p : Space) (x : Instr) (r : TrapRec),
    ((p = .local ∧ x = .ldl t b o sz g) ∨ (p = .cluster ∧ x = .ldc t b o sz g) →
      Issues { memoryAttr with ximm := true } g s i → i.registersOk (sizeCls sz, t) [(.nat, b)] →
      s.awake.operands i [(.nat, b)] [t] = .ok v u → i.addressTrap (s.awake.wordAccesses i p sz o v) = some r →
      exec x s = .next (s.awake.takeTrap i r)) ∧
    ((p = .local ∧ x = .stl t b o sz g) ∨ (p = .cluster ∧ x = .stc t b o sz g) →
      Issues { storeAttr with ximm := true } g s i → i.regOk false (sizeCls sz) t = true → i.regOk false .nat b = true →
      s.awake.operands i [(.nat, b), (sizeCls sz, t)] [] = .ok v u → i.addressTrap (s.awake.wordAccesses i p sz o v) = some r →
      exec x s = .next (s.awake.takeTrap i r))) ∧
  ((∀ (x : Instr) (d a b : RegField) (g : GuardField) (cas : Bool) (op : Word → AtomicOp) (s u : State) (i : Issue)
    (v : List (Nat → Dword)) (r : TrapRec),
    (let words := s.awake.accesses i .unified 4 fun l => addr32 (nth v 0 l)
     let traps (x : Instr) : Prop := exec x s = .next (s.awake.takeTrap i r)
     (Issues memoryAttr g s i → i.registersOk (.word, d) [(.nat, a), (.word, b)] →
      s.awake.operands i [(.nat, a), (.word, b)] [d] = .ok v u → i.addressTrap (s.awake.indexedAccesses i v) = some r →
      traps (.ldx d a b g)) ∧
     (Issues storeAttr g s i → i.regOk false .word d = true → i.regOk false .nat a = true → i.regOk false .word b = true →
      s.awake.operands i [(.nat, a), (.word, b), (.word, d)] [] = .ok v u → i.addressTrap (s.awake.indexedAccesses i v) = some r →
      traps (.stx d a b g)) ∧
     (atomicOf x = some (d, a, b, g, cas, op) → Issues storeAttr g s i → i.registersOk (.word, d) (atomicSrcs d a b cas) →
      s.awake.operands i (atomicSrcs d a b cas) [d] = .ok v u → i.addressTrap words = some r → traps x) ∧
     (Issues { memoryAttr with h := false } g s i → i.registersOk (.word, d) [(.nat, a), (.word, b)] →
      s.awake.operands i [(.nat, a), (.word, b)] [d] = .ok v u → i.addressTrap words = some r →
      traps (.waitw d a b g) ∧ traps (.waitge d a b g)) ∧
     (Issues { lease := true } g s i → i.regOk false .nat a = true → s.awake.operands i [(.nat, a)] [] = .ok v u →
      i.addressTrap words = some r → traps (.watch a g) ∧ traps (.unwatch a g)))) ∧
  (∀ (d a b : RegField) (g : GuardField) (s u w : State) (i : Issue) (v : List (Nat → Dword)) (r : TrapRec),
    (let base := (nth v 0 (lowestLane i.active)).toNat
     let all := i.ranked.map (s.awake.rankAccess i base)
     let good := all.takeWhile (·.isOk)
     let stops (cause : Nat) : State := s.awake.takeTrap i ⟨cause, i.mask, BitVec.ofNat 64 base, 0⟩
     (Issues { vectorAttr with spin := true } g s i → i.plainRegs [d] [a, b] = true →
      s.awake.operands i [(.nat, a), (.nat, b)] [] = .ok v u →
      (base % 4 ≠ 0 → exec (.cstr d a b g) s = .next (stops Cause.misalign)) ∧
      (∀ y more, base % 4 = 0 → all.drop good.length = y :: more →
       u.storeLanes i 4 (targets good) (fun l => (nth v 1 l).toNat) = .ready () w →
       exec (.cstr d a b g) s = .next (s.awake.enterTrap (w.writeLanes i .nat d i.active fun _ => BitVec.ofNat 64 good.length) i
        ⟨Cause.lsBound, (y :: more).foldl (fun m z => m ||| laneBit z.1) 0, y.2.1, BitVec.ofNat 64 good.length⟩))) ∧
     (Issues vectorAttr g s i → i.plainRegs [d] [a] = true → s.awake.operands i [(.nat, a)] [] = .ok v u →
      (base % 4 ≠ 0 → exec (.xlde d a g) s = .next (stops Cause.misalign)) ∧
      (base % 4 = 0 → i.addressTrap all = some r → exec (.xlde d a g) s = .next (s.awake.takeTrap i r))) ∧
     (Issues vectorAttr g s i → i.plainRegs [d] [a, b] = true → s.awake.operands i [(.nat, a), (.nat, b)] [] = .ok v u →
      (i.window.holds base 64 = false → exec (.bldl d a b g) s = .next (stops Cause.lsBound)) ∧
      (i.window.holds base 64 = true → base % 64 ≠ 0 → exec (.bldl d a b g) s = .next (stops Cause.misalign))))))

/-- R192, R196, R202, R203: the frame of STL, STC, STX and CSTR. Every byte of every core's local space outside the bytes stored
to the targets reads as before. The premise is the canonical form of the cores' memories and page tables, which State.reset has and
the memory operations keep (Laws/Memory). -/
def Obligations.StoreFrame : Prop :=
  ∀ (t b d a : RegField) (o : BitVec 7) (sz : BitVec 2) (g : GuardField) (s u w : State) (i : Issue) (v : List (Nat → Dword)),
    (∀ c, Memory.wf (s.core c).store = true ∧ SMap.wf (s.core c).frames = true) →
    (∀ p x, (p = Space.local ∧ x = Instr.stl t b o sz g) ∨ (p = Space.cluster ∧ x = Instr.stc t b o sz g) →
      Issues { storeAttr with ximm := true } g s i → i.regOk false (sizeCls sz) t = true → i.regOk false .nat b = true →
      s.awake.operands i [(.nat, b), (sizeCls sz, t)] [] = .ok v u → i.addressTrap (s.awake.wordAccesses i p sz o v) = none →
      u.storeLanes i (sizeOf' sz) (targets (s.awake.wordAccesses i p sz o v)) (fun l => (nth v 1 l).toNat) = .ready () w →
      ∃ z, exec x s = .next z ∧ s.KeepsLocal z i.ctx (sizeOf' sz) (targets (s.awake.wordAccesses i p sz o v))) ∧
    (Issues storeAttr g s i → i.regOk false .word d = true → i.regOk false .nat a = true → i.regOk false .word b = true →
      s.awake.operands i [(.nat, a), (.word, b), (.word, d)] [] = .ok v u → i.addressTrap (s.awake.indexedAccesses i v) = none →
      u.storeLanes i 4 (targets (s.awake.indexedAccesses i v)) (fun l => (nth v 2 l).toNat) = .ready () w →
      ∃ z, exec (.stx d a b g) s = .next z ∧ s.KeepsLocal z i.ctx 4 (targets (s.awake.indexedAccesses i v))) ∧
    (Issues { vectorAttr with spin := true } g s i → i.plainRegs [d] [a, b] = true →
      s.awake.operands i [(.nat, a), (.nat, b)] [] = .ok v u →
      (let base := (nth v 0 (lowestLane i.active)).toNat
       let all := i.ranked.map (s.awake.rankAccess i base)
       base % 4 = 0 → (all.all fun x => x.isOk) = true →
       u.storeLanes i 4 (targets all) (fun l => (nth v 1 l).toNat) = .ready () w →
       ∃ z, exec (.cstr d a b g) s = .next z ∧ s.KeepsLocal z i.ctx 4 (targets all)))

/-- R183, R197, R198: an atomic updates the words of its own core at once in lane order and writes the values replaced; where words
lie in other cores it asks their homes, and waits for the replies unless D is gz. -/
def Obligations.Atomics : Prop :=
  ∀ (x : Instr) (d a b : RegField) (g : GuardField) (cas : Bool) (op : Word → AtomicOp) (s u w : State) (i : Issue)
    (v : List (Nat → Dword)) (olds : SMap Dword),
    atomicOf x = some (d, a, b, g, cas, op) → Issues storeAttr g s i → i.registersOk (.word, d) (atomicSrcs d a b cas) →
    s.awake.operands i (atomicSrcs d a b cas) [d] = .ok v u →
    (let l := s.awake.accesses i .unified 4 fun l => addr32 (nth v 0 l)
     let ts := targets l
     i.addressTrap l = none →
     (u.newId i.core).2.atomicLanes i ts (fun l => op ((nth v 2 l).setWidth 32)) (fun l => (nth v 1 l).setWidth 32) (d != 60)
      (u.newId i.core).1 = .ready olds w →
     (farLanes i.core ts = 0 ∨ d = 60 → w.broadcasts i d → exec x s = .next (i.finished storeAttr
      (w.delivered i .word d fun l => (SMap.find olds l).getD 0))) ∧
     (farLanes i.core ts ≠ 0 → d ≠ 60 → exec x s = .next (i.finished storeAttr
      ((w.keepPlace i d 1).addPending i (i.pendingUnit (u.newId i.core).1 d false (farLanes i.core ts) olds)))))

/-- R194, R199 to R202: WATCH and UNWATCH register and release the lines that the active lanes name; WAITW and WAITGE complete with
the words read once the condition holds in every active lane, and wait otherwise; FENCE holds the next units of its path's lanes
until what any of them has sent is completed. -/
def Obligations.WatchingAndFence : Prop :=
  ∀ (d a b : RegField) (g : GuardField) (s u w : State) (i : Issue) (v : List (Nat → Dword)) (vals : SMap Nat),
    (Issues { lease := true } g s i → exec (.fence g) s = .next (i.finished {} (s.awake.raiseFence i)) ∧
      (i.regOk false .nat a = true → s.awake.operands i [(.nat, a)] [] = .ok v u →
        (let l := s.awake.accesses i .unified 4 fun l => addr32 (nth v 0 l)
         i.addressTrap l = none →
         exec (.watch a g) s = .next (i.finished {} ((targets l).foldl (fun u t => u.watchLine i t.core (t.off / 64)) u)) ∧
         exec (.unwatch a g) s = .next (i.finished {} ((targets l).foldl (fun u t => u.unwatchLine i t.core (t.off / 64)) u))))) ∧
    (Issues { memoryAttr with h := false } g s i → i.registersOk (.word, d) [(.nat, a), (.word, b)] →
      s.awake.operands i [(.nat, a), (.word, b)] [d] = .ok v u →
      (let l := s.awake.accesses i .unified 4 fun l => addr32 (nth v 0 l)
       let word (l : Nat) : Word := (loaded vals l).setWidth 32
       let value (l : Nat) : Word := (nth v 1 l).setWidth 32
       let waits : State := { s.awake with stalled := true }
       i.addressTrap l = none → u.loadLanes i 4 (targets l) = .ready vals w → w.broadcasts i d →
       ((∀ k ∈ lanesOf i.active, word k ≠ value k) →
        exec (.waitw d a b g) s = .next (i.finished memoryAttr (w.delivered i .word d fun l => (word l).setWidth 64))) ∧
       ((∃ k ∈ lanesOf i.active, word k = value k) → exec (.waitw d a b g) s = .next waits) ∧
       ((∀ k ∈ lanesOf i.active, 0 ≤ (word k - value k).toInt) →
        exec (.waitge d a b g) s = .next (i.finished memoryAttr (w.delivered i .word d fun l => (word l).setWidth 64))) ∧
       ((∃ k ∈ lanesOf i.active, (word k - value k).toInt < 0) → exec (.waitge d a b g) s = .next waits)))

/-! ### Barriers, pages and the L2 -/

/-- R209 to R216: BAR and CNTSUM arrive and wait, and complete once their party has departed; BARA arrives and goes on, a lead with
its token; BARW goes past a generation that has ended and waits for the present one; BARINIT arms a barrier that is not
collecting, in its place among the barrier's events (R212; log entry 81).
R148, R210, R211, R214 to R217: what a barrier word traps BARRIER on, with its reason, scope and identifier; CNTSUM traps LS_BOUND
and MISALIGN at a record outside the window or not aligned. A path that arrives twice adds nothing (log entry 88). -/
def Obligations.Barriers : Prop :=
  ∀ (a b : RegField) (sc : BitVec 3) (g : GuardField) (s : State) (i : Issue) (w : BarWait),
    (let scope := sc.toNat
     let id := b.toNat
     let record := (s.awake.wide i a).toNat % 2 ^ 32
     let checked := i.window.holds record 64 = true ∧ record % 64 = 0
     let arrives := s.awake.ownWait i = none ∧ s.awake.barrierIdle i scope id = false
     let idle := s.awake.ownWait i = none ∧ s.awake.barrierIdle i scope id = true
     let now := s.awake.generation i scope id
     let token : Word := (s.awake.wide i a).setWidth 32
     let arrival (sum : Bool) := s.awake.arrive i.core i.unit i.ctx scope id i.launch sum
     let stop (x : Instr) (cause addr info : Nat) : Prop :=
       exec x s = .next (s.awake.takeTrap i ⟨cause, i.mask, BitVec.ofNat 64 addr, BitVec.ofNat 64 info⟩)
     let trap (x : Instr) (reason : Nat) : Prop := stop x Cause.barrier 0 (reason + 16 * scope + 128 * id)
     (∀ x reads writes lane, barrierWord x = some (b, sc, g, reads, writes, lane) → NamesBarrier g s i sc b reads writes lane →
      s.awake.ownWait i = none →
      (let outside := scope < 2 ∧ (i.hank = true ∨ i.kind = .group ∧ s.awake.reforming i = true)
       let outsider := scope = 6 ∧ (s.core i.core).podOn = false
       (outside → trap x 0) ∧ (¬ outside → outsider → trap x 5) ∧
       (∀ r, ¬ outside → ¬ outsider → s.awake.arrival i = some r → r.scope ≠ scope ∨ r.id ≠ id → trap x 4))) ∧
     (AtBarrier g s i sc b [] [] true →
      (s.awake.ownWait i = some w → w.departed = true →
        exec (.bar b sc g) s = .next (i.finished barrierAttr (s.awake.dropWait i w))) ∧
      (s.awake.ownWait i = some w → w.departed = false → exec (.bar b sc g) s = .next s.awake.heldBack) ∧
      (idle → trap (.bar b sc g) 1) ∧
      (arrives → i.kind = .group → exec (.bar b sc g) s =
        .next ((s.awake.addWait i scope id none none).arrivePath i scope id [] none)) ∧
      (arrives → i.kind = .lead → exec (.bar b sc g) s =
        .next ((arrival false).2.addWait i scope id (some (arrival false).1) none))) ∧
     (AtBarrier g s i sc b [a] [] false →
      (i.window.holds record 64 = false → stop (.cntsum a b sc g) Cause.lsBound record 0) ∧
      (i.window.holds record 64 = true → record % 64 ≠ 0 → stop (.cntsum a b sc g) Cause.misalign record 0) ∧
      (checked → s.awake.ownWait i = some w → w.departed = true →
        exec (.cntsum a b sc g) s = .next (i.finished barrierAttr (s.awake.dropWait i w))) ∧
      (checked → s.awake.ownWait i = some w → w.departed = false → exec (.cntsum a b sc g) s = .next s.awake.heldBack) ∧
      (checked → idle → trap (.cntsum a b sc g) 1) ∧
      (checked → arrives → i.kind = .group → exec (.cntsum a b sc g) s =
        .next ((s.awake.addWait i scope id none none).arrivePath i scope id [] (some record))) ∧
      (checked → arrives → i.kind = .lead → exec (.cntsum a b sc g) s =
        .next ((arrival true).2.addWait i scope id (some (arrival true).1) (some record))) ∧
      (let parties := (s.awake.barrier i.core i.ctx scope id).parties
       let ordered := s.awake.inOrder i.core i.ctx scope id
       (parties ≠ [] → trap (.barinit a b sc g) 2) ∧
       (parties = [] → record = 0 ∨ 2 ^ 24 ≤ record → trap (.barinit a b sc g) 3) ∧
       (parties = [] → record ≠ 0 → record < 2 ^ 24 →
        exec (.barinit a b sc g) s = .next (i.finished barrierAttr (ordered.setBarrier i.core i.ctx scope id
          { ordered.barrier i.core i.ctx scope id with expected := record }))))) ∧
     (AtBarrier g s i sc b [a] [] true →
      (s.awake.ownWait i = none → 0 < (token - now).toInt → trap (.barw a b sc g) 6) ∧
      (s.awake.ownWait i = none → 0 < (now - token).toInt →
        exec (.barw a b sc g) s = .next (i.finished barrierAttr s.awake)) ∧
      (s.awake.ownWait i = some w → 0 < (now - token).toInt →
        exec (.barw a b sc g) s = .next (i.finished barrierAttr (s.awake.dropWait i w))) ∧
      (s.awake.ownWait i = some w → ¬ 0 < (now - token).toInt → exec (.barw a b sc g) s = .next s.awake.heldBack) ∧
      (s.awake.ownWait i = none → ¬ 0 < (token - now).toInt → ¬ 0 < (now - token).toInt →
        exec (.barw a b sc g) s = .next (s.awake.addWait i scope id (some token) none))) ∧
     (AtBarrier g s i sc b [] [a] true →
      (s.awake.barrierIdle i scope id = true → trap (.bara a b sc g) 1) ∧
      (s.awake.barrierIdle i scope id = false → i.kind = .group →
        exec (.bara a b sc g) s = .next (i.finished barrierAttr ((s.awake.supersede i (fieldRegs .pair a)).arrivePath i scope id
          (if a = 60 then [] else [(i.active, a.toNat, true), (i.active, a.toNat + 1, false)]) none))) ∧
      (s.awake.barrierIdle i scope id = false → i.kind = .lead →
        exec (.bara a b sc g) s = .next (i.finished barrierAttr ((arrival false).2.writeReg i .pair a 0
          ((arrival false).1.setWidth 64))))))

/-- R236 to R240: L2WB, L2INV and TSINV start their maintenance and wait for it, an empty range of L2 lines completing at once;
LSPIN pins its pages once all of them are there, or answers 1 or 2 where they do not fit or a count is full, and LSUNPIN unpins
them. -/
def Obligations.PagesAndLines : Prop :=
  ∀ (a b : RegField) (g : GuardField) (s u : State) (i : Issue) (x y : Dword),
    (ReadsWide pageAttr g a b [] s u i x y →
      (let all := i.k % 2 == 1
       let started (invalidate : Bool) : State := (u.awaiting i).2.modL2 fun l => { l with maintenance := l.maintenance
        ++ [⟨(u.awaiting i).1, all, x.toNat, x.toNat + y.toNat, invalidate, i.k / 2 % 2 == 1⟩] }
       x.toNat % 64 = 0 → y.toNat % 64 = 0 → x.toNat + y.toNat ≤ 2 ^ 40 → (all = true → x = 0 ∧ y = 0) →
       (all = false → y = 0 → (i.k ≤ 1 → exec (.l2wb a b g) s = .next (i.finished pageAttr u)) ∧
        (i.k ≤ 3 → exec (.l2inv a b g) s = .next (i.finished pageAttr u))) ∧
       (all = true ∨ y ≠ 0 → (i.k ≤ 1 → exec (.l2wb a b g) s = .next (i.finished pageAttr (started false))) ∧
        (i.k ≤ 3 → exec (.l2inv a b g) s = .next (i.finished pageAttr (started true))))) ∧
      (let base := if y = 0 then 0 else x.toNat
       let limit := if y = 0 then 2 ^ 57 else x.toNat + y.toNat
       let ctx := i.k % 2 ^ 16
       let all := i.k / 2 ^ 18 % 2 == 1
       i.k < 2 ^ 19 → i.k / 2 ^ 16 % 4 ≠ 3 → (all = true → ctx = 0) → x.toNat % 65536 = 0 → y.toNat % 65536 = 0 →
       x.toNat + y.toNat ≤ 2 ^ 57 →
       exec (.tsinv a b g) s = .next (i.finished pageAttr ((u.awaiting i).2.modL2 fun l => { l with shootdowns := l.shootdowns
        ++ [⟨(u.awaiting i).1, ctx, all, base, limit, i.k / 2 ^ 16 % 4,
          (u.awaiting i).2.stalledIn ctx all base limit⟩] })))) ∧
    (ReadsWide pageAttr g a b [a] s u i x y → i.k = 0 → x.toNat % 4096 = 0 → y ≠ 0 → y.toNat ≤ 256 →
      x.toNat + 4096 * y.toNat ≤ 2 ^ 20 → u.broadcasts i a →
      (let pages := (List.range y.toNat).map fun j => x.toNat / 4096 + j
       let k := s.awake.core i.core
       exec (.lsunpin a b g) s = .next (i.finished pageAttr ((u.modCore i.core fun k => pages.foldl (fun k p =>
          k.unpinOne i.ctx p) k).answered i a
          (if pages.any fun p => k.pins i.ctx p == 0 then 3 else 0))) ∧
       k.pinning.any i.pinning = false →
       (224 < k.pinned + (pages.filter fun p => k.pins i.ctx p == 0).length →
        exec (.lspin a b g) s = .next (i.finished pageAttr (u.answered i a 1))) ∧
       (k.pinned + (pages.filter fun p => k.pins i.ctx p == 0).length ≤ 224 → (∃ p ∈ pages, k.pins i.ctx p = 255) →
        exec (.lspin a b g) s = .next (i.finished pageAttr (u.answered i a 2))) ∧
       (k.pinned + (pages.filter fun p => k.pins i.ctx p == 0).length ≤ 224 →
        (∀ p ∈ pages, k.pins i.ctx p ≠ 255) → SMap.wf k.frames = true →
        (∀ p ∈ pages, ∃ f, k.frameOf i.ctx p = some f ∧ f.2.refused = none ∧ (f.2.state = .resident ∨ f.2.state = .dirty)) →
        exec (.lspin a b g) s = .next (i.finished pageAttr
          ((u.modCore i.core fun k => pages.foldl (fun k p => k.modFrame i.ctx p Frame.pin) k).answered i a 0)))))

/-! ### The copy engine -/

/-- R242, R255 to R258: an XF word whose operands pass their checks enters its entry in a queue that can take it.
R259, R261: XSTAT reads the status word of a queue, and with K = 1 clears one that has faulted; QFENCE enters one join entry in
every queue that it names. -/
def Obligations.EngineEntries : Prop :=
  (∀ (a b : RegField) (q : BitVec 2) (g : GuardField) (s u : State) (i : Issue) (x y : Dword),
    ReadsWide xfAttr g a b [] s u i x y → isQueue a = false → isQueue b = false → TakesEntry s.awake i q →
    (let placed (op : EngineOp) : State := s.awake.placeEntry i q.toNat op false
     let near := i.k % 2 ^ 18
     let buffer := y.toNat % 2 ^ 32
     let len := y.toNat / 2 ^ 32 % 2 ^ 21
     let len2 := 64 * 2 ^ (i.k / 2 ^ 18)
     let slot := y.toNat % 64
     let count := y.toNat / 64 % 64 + 1
     let pitch := y.toNat / 2 ^ 32
     (i.k < 2 ^ 18 → y.toNat < 2 ^ 53 → 4 ≤ len → len ≤ 2 ^ 20 → len % 4 = 0 → x.toNat % 4 = 0 →
      firstFailing [s.awake.spanAt i buffer len 4, s.awake.nearAt i near] = none →
      exec (.haul a b q g) s = .next (i.finished xfAttr (placed (.copy false x.toNat len (y.setWidth 32) none (4 * near)))) ∧
      exec (.stow a b q g) s = .next (i.finished xfAttr (placed (.copy true x.toNat len (y.setWidth 32) none (4 * near))))) ∧
     (i.k / 2 ^ 18 ≤ 14 → x.toNat % 4 = 0 →
      firstFailing [s.awake.spanAt i buffer len2 4, s.awake.spanAt i (y.toNat / 2 ^ 32) 4 4, s.awake.nearAt i near] = none →
      exec (.haul2 a b q g) s = .next (i.finished xfAttr
        (placed (.copy false x.toNat len2 (y.setWidth 32) (some ((y >>> 32).setWidth 32)) (4 * near)))) ∧
      exec (.stow2 a b q g) s = .next (i.finished xfAttr
        (placed (.copy true x.toNat len2 (y.setWidth 32) (some ((y >>> 32).setWidth 32)) (4 * near))))) ∧
     (i.k < 2 ^ 18 → y.toNat / 2 ^ 12 % 2 ^ 20 = 0 → slot + count ≤ 64 → (pitch = 0 ∨ pitch % 64 = 0 ∧ 128 ≤ pitch) →
      x.toNat % 64 = 0 → firstFailing [s.awake.nearAt i i.k] = none → s.awake.unheld i slot count = none →
      exec (.hault a b q g) s = .next (i.finished xfAttr
        ((placed (.tiles x.toNat (if pitch = 0 then 128 else pitch) slot count (4 * i.k))).modTile i.core fun t =>
          t.modSlots slot count fun x => { x with claims := x.claims + 1 }))) ∧
     (i.k = 0 → firstFailing [s.awake.spanAt i (x.toNat % 2 ^ 32) 4 4] = none →
      exec (.cbump a b q g) s = .next (i.finished xfAttr (placed (.bump (x.setWidth 32) (y.setWidth 32))))))) ∧
  (∀ (a : RegField) (q : BitVec 2) (m : BitVec 4) (g : GuardField) (s u : State) (i : Issue) (x y : Dword), i.hank = false →
    (ReadsWide xfAttr g 60 60 [a] s u i x y → isQueue a = false → i.k ≤ 1 →
      (let e := s.awake.queue i.core i.engines q.toNat
       let t := s.awake.writeLanes i .pair a i.active fun _ => BitVec.ofNat 64 e.status
       exec (.xstat a q g) s = .next (i.finished xfAttr
        (if i.k = 1 ∧ e.faulted = true then t.clearQueue i.core i.engines q.toNat else t)))) ∧
    (ReadsWide xfAttr g 60 60 [] s u i x y → m ≠ 0 → i.k = 0 →
      (let named := (List.range 4).filter fun j => m.getLsbD j
       (∀ j ∈ named, (s.awake.queue i.core i.engines j).faulted = false ∧ (s.awake.queue i.core i.engines j).entries.length < 16) →
       exec (.qfence m g) s = .next (i.finished xfAttr
        ((named.foldl (fun t j => t.placeEntry i j (.join m (s.awake.newId i.core).1) true) (s.awake.newId i.core).2).advance
          i.core i.engines 64)))))

/-! ### Tiles -/

/-- R265 to R272, R282, R284: CLAIM reserves the lowest free run, or answers that there is none; RELEASE frees a reservation that
nothing uses; TSTAT reads a slot's status; TFILL and TDRAIN accept their command; SPLICE arms an exchange. -/
def Obligations.TileSlots : Prop :=
  ∀ (a b k : RegField) (m : BitVec 2) (g : GuardField) (s u : State) (i : Issue) (x y : Dword) (r : Resident),
    (ReadsWide tileAttr g 60 b [a] s u i x y → HoldsSlots s.awake i r [] → consistent y = true → u.broadcasts i a →
      (let want := describe y 0 ((r.rgen + 1) % 2 ^ 20)
       ((s.awake.core i.core).tile.freeRun r.slotBase r.slotCount want.count = none →
        exec (.claim a b g) s = .next (i.finished tileAttr (u.answered i a (BitVec.allOnes 64)))) ∧
       (∀ first, (s.awake.core i.core).tile.freeRun r.slotBase r.slotCount want.count = some first →
        (let v := { want with first := first }
         exec (.claim a b g) s = .next (i.finished tileAttr (((u.modTile i.core (·.claim v)).modUnit i.core i.unit fun r =>
          { r with resvs := r.resvs ++ [v], rgen := r.rgen + 1 }).answered i a
            (BitVec.ofNat 64 (first + 64 * (v.count - 1) + 4096 * v.rgen)))))))) ∧
    (ReadsWide tileAttr g a 60 [] s u i x y → HoldsSlots s.awake i r [] → x.toNat < 2 ^ 32 →
      (∀ v, r.named x = some v → (∀ y ∈ (s.awake.core i.core).tile.splices, ¬ (y.unit = i.unit ∧ v.holds y.slot = true)) →
       (∀ j < v.count, let y := (s.awake.core i.core).tile.slot (v.first + j)
        y.state ≠ .filling ∧ y.state ≠ .draining ∧ y.readers = 0 ∧ y.claims = 0) →
       exec (.release a g) s = .next (i.finished tileAttr
        ((u.modTile i.core fun t => (List.range v.count).foldl (fun t j => t.free (v.first + j)) t).modUnit i.core i.unit fun r =>
          { r with resvs := r.resvs.erase v })))) ∧
    (ReadsWide tileAttr g 60 60 [a] s u i x y → HoldsSlots s.awake i r [] → u.broadcasts i a →
      exec (.tstat a k g) s = .next (i.finished tileAttr
        (u.answered i a (BitVec.ofNat 64 (slotStatus ((s.awake.core i.core).tile.slot k.toNat) (r.reservation k.toNat)))))) ∧
    (ReadsWide tileCopyAttr g a b [] s u i x y →
      (let slot := y.toNat % 64
       let count := y.toNat / 64 % 64 + 1
       let slots := (List.range count).map (slot + ·)
       let pitch := x.toNat / 2 ^ 32
       let p := if pitch = 0 then 128 else pitch
       let t := (s.awake.core i.core).tile
       let cmd (fill : Bool) : TileCmd := ⟨fill, i.unit, i.kind == .lead, BitVec.ofNat 32 (x.toNat % 2 ^ 32), p, slot, count, 4 * i.k, i.launch, false⟩
       y.toNat < 4096 → slot + count ≤ 64 → i.k < 2 ^ 18 → (pitch = 0 ∨ pitch % 64 = 0 ∧ 128 ≤ pitch) → HoldsSlots s.awake i r slots →
       firstFailing [s.awake.spanAt i (x.toNat % 2 ^ 32) ((64 * count - 1) * p + 128) 64, s.awake.nearAt i i.k] = none →
       t.cmds.length < 8 → s.awake.ownRoom i.core = true →
       (s.awake.slotsWritable i.core slots = true → exec (.tfill a b g) s = .next (i.finished tileCopyAttr
        ((u.modTile i.core fun t => { slots.foldl (fun t k => t.beginWrite k) t with
          cmds := (slots.foldl (fun t k => t.beginWrite k) t).cmds ++ [cmd true] }).command i.core (.tile i.unit)))) ∧
       ((∀ k ∈ slots, (t.slot k).state = .ready) → exec (.tdrain a b g) s = .next (i.finished tileCopyAttr
        ((u.modTile i.core fun t =>
          let t := slots.foldl (fun t k => t.modSlot k fun x => { x with state := .draining, readers := x.readers + 1 }) t
          { t with cmds := t.cmds ++ [cmd false] }).command i.core (.tile i.unit)))))) ∧
    (∀ x : Context, Issues { tileAttr with ximm := true, spin := true } g s i → m ≠ 3 → i.k < 256 → HoldsSlots s.awake i r [k.toNat] →
      s.awake.context i.ctx = some x → (m = 0 → x.record.rw = x.record.rh) →
      (∀ y ∈ (s.awake.core i.core).tile.splices, ¬ (y.launch = i.launch ∧ y.m = m.toNat ∧ y.tag = i.k)) →
      s.awake.slotsWritable i.core [k.toNat] = true → (s.awake.core i.core).tile.splices.length < 4 →
      exec (.splice k m g) s = .next (i.finished storeAttr
        (if x.partner i.core m.toNat = some i.core then s.awake.modTile i.core fun t => (t.beginWrite k.toNat).endWrite k.toNat
         else s.awake.modTile i.core fun t => { t.beginWrite k.toNat with
          splices := (t.beginWrite k.toNat).splices ++ [⟨i.unit, k.toNat, m.toNat, i.k, i.launch, false⟩] })))

/-- R276 to R281, R296: a step that passes its checks is accepted, MMAS with the program of a slot whose record is valid, or dense
with GO, asking for a missing record, for which WAIT waits; COMMIT closes the batch and WAITB goes on once no step of an older batch is left. -/
def Obligations.MatrixSteps : Prop :=
  ∀ (a b : RegField) (q c : BitVec 2) (t f : BitVec 1) (g : GuardField) (s u : State) (i : Issue) (x y : Dword) (r : Resident) (acc : Nat),
    (ReadsWide stepAttr g a b [] s u i x y → (i.kind = .group → b = 60) → TakesStep s.awake i x c none r acc →
      exec (.mma a b c g) s = .next (i.finished stepAttr (u.acceptStep i r (stepDesc x) acc false (i.stepMask y) none none)) ∧
      exec (.mmat a b c g) s = .next (i.finished stepAttr (u.acceptStep i r (stepDesc x) acc true (i.stepMask y) none none)) ∧
      (let id := (s.awake.core i.core).tile.identity i.ctx (stepDesc x).aslot
       let wants := id.state = .absent ∨ id.state = .stale
       let ask (w : State) : State := if wants ∧ (s.awake.core i.core).tile.requests.length < 8
        then (w.modTile i.core (·.request i.ctx (stepDesc x).aslot)).command i.core (.compile (stepDesc x).aslot) else w
       let used (u : State) : State := u.modCore i.core fun k => { k with
        order := k.order + 1
        tile := { k.tile with fid := SMap.alter k.tile.fid (stepDesc x).aslot fun z => { z with used := k.order + 1 } } }
       (id.state = .valid → exec (.mmas a b t f c g) s = .next (i.finished stepAttr
        ((used u).acceptStep i r (stepDesc x) acc (t == 1) (i.stepMask y) none (some (id.made, id.prog))))) ∧
       (id.state ≠ .valid → (f = 1 ∨ id.state = .refused) → (ask s.awake).stepRoom i.core = true →
        exec (.mmas a b t f c g) s = .next (i.finished stepAttr (((ask u).modCore i.core fun k => { k with
          order := k.order + 1
          tile := { k.tile with fid := SMap.alter k.tile.fid (stepDesc x).aslot fun z => z } }).acceptStep i r (stepDesc x) acc (t == 1)
            (i.stepMask y) none none))) ∧
       (wants ∨ id.state = .compiling → f = 0 → exec (.mmas a b t f c g) s = .next { (ask s.awake).heldBack with free := s.free }))) ∧
    (ReadsWide { stepAttr with l := false } g a 60 [] s u i x y → i.laneRun b 1 = true → s.awake.tokenPending i [b.toNat] = false →
      TakesStep s.awake i x c (some q.toNat) r acc →
      exec (.mmss a b q c g) s = .next (i.finished stepAttr (u.acceptStep i r (stepDesc x) acc false i.active
        (some (q.toNat, (List.range 64).map fun l => if i.active.getLsbD l then s.awake.lane i.core r l b.toNat else 0)) none))) ∧
    (ReadsWide tileAttr g 60 60 [a] s u i x y → HoldsSlots s.awake i r [] →
      (∀ n more, s.awake.stepBatches i.core i.unit = n :: more → (r.batch + 1 - n).toNat ≤ 4) →
      (u.modUnit i.core i.unit fun r => { r with batch := r.batch + 1 }).broadcasts i a →
      exec (.commit a g) s = .next (i.finished tileAttr
        ((u.modUnit i.core i.unit fun r => { r with batch := r.batch + 1 }).answered i a (r.batch.setWidth 64)))) ∧
    (ReadsWide tileAttr g a 60 [] s u i x y → HoldsSlots s.awake i r [] →
      (let n : Word := x.setWidth 32
       ¬ 0 < (n - (r.batch - 1)).toInt → (∀ k ∈ s.awake.stepBatches i.core i.unit, (n - k).toInt < 0) →
       exec (.waitb a g) s = .next (i.finished tileAttr u)))

/-- R273 to R275, R297, R300: ACCZ, ACCRD and ACCWR clear, read and write a declared accumulator that no step targets; CVTOM
converts eight registers of each active lane into a slot; PSTAT and PINV read and drop the fid's record of a slot. -/
def Obligations.AccumulatorsAndRecords : Prop :=
  ∀ (a k : RegField) (col : BitVec 4) (h : BitVec 3) (c : BitVec 2) (g : GuardField) (s u : State) (i : Issue) (x y : Dword)
    (r : Resident) (acc : Nat),
    (Issues tileAttr g s i → AtAccumulator s.awake i r c acc → exec (.accz c g) s = .next (i.finished tileAttr
      (s.awake.modTile i.core fun t => { t with acc := t.acc.filter fun x => x.1 / 4096 ≠ acc }))) ∧
    (Issues { tileAttr with l := false } g s i → AtAccumulator s.awake i r c acc → i.laneRun a 8 = true →
      exec (.accrd a h c g) s = .next (i.finished tileAttr ((List.range 8).foldl (fun t e =>
        t.writeLanes i .word (a + BitVec.ofNat 6 e) i.active fun l =>
          (SMap.word (s.awake.core i.core).tile.acc (accKey acc l (8 * h.toNat + e))).setWidth 64) s.awake)) ∧
      (s.awake.tokenPending i ((List.range 8).map (a.toNat + ·)) = false →
        exec (.accwr a h c g) s = .next (i.finished tileAttr (s.awake.modTile i.core fun t => { t with
          acc := (lanesOf i.active).foldl (fun m l => (List.range 8).foldl (fun m e =>
            SMap.setWord m (accKey acc l (8 * h.toNat + e)) (s.awake.lane i.core r l (a.toNat + e))) m) t.acc })))) ∧
    (∀ (v : Reservation) (t : TilePart) (outs : List (Nat × Ev × Word)), Issues { l := false, h := false, round := 6, sat := 4, info := 21 } g s i → i.laneRun a 8 = true →
      HoldsSlots s.awake i r [k.toNat] → r.reservation k.toNat = some v → i.satListed v.fmt = true → 8 * col.toNat < fmtRow v.fmt →
      s.awake.tokenPending i ((List.range 8).map (a.toNat + ·)) = false → s.awake.slotsWritable i.core [k.toNat] = true →
      s.awake.convertLanes i r v (k.toNat - v.first) col.toNat a.toNat (lanesOf i.active) (s.awake.core i.core).tile = (t, outs) →
      v.listWritten (s.awake.core i.core).tile t = false →
      (∀ z ∈ outs, z.2.1.enabled (s.modeOf i) = false) →
      exec (.cvtom a k col g) s = .next (i.finished {}
        ((outs.foldl (fun (w : State) (z : Nat × Ev × Word) => w.setGen i z.1 z.2.2)
          (s.awake.count i.core (Ev.sum (outs.map (·.2.1))))).modTile i.core fun _ =>
            (t.beginWrite k.toNat).endWrite k.toNat))) ∧
    (ReadsWide tileAttr g 60 60 [a] s u i x y → HoldsSlots s.awake i r [] → u.broadcasts i a →
      exec (.pstat a k g) s = .next (i.finished tileAttr (u.answered i a (BitVec.ofNat 64
        (((s.awake.core i.core).tile.record i.ctx k.toNat).status (r.reservation k.toNat).isSome))))) ∧
    (Issues tileAttr g s i → HoldsSlots s.awake i r [k.toNat] → exec (.pinv k g) s = .next (i.finished tileAttr
      (if ((s.awake.core i.core).tile.record i.ctx k.toNat).state = .absent then s.awake
       else s.awake.modTile i.core (·.dropRecord k.toNat))))

/-! ### Tables -/

/-- R302 to R306: GATHER and the scatter family send the good elements of their active lanes, in ascending address order, to the
owner of the table in one message; GATHER's D is written when the lanes' values come, a scatter combines the lanes of one address in
lane order. Where an element is bad the unit waits until its good elements are performed and traps INDEX_RANGE then, at once where it
has none; a bad LEN traps ILLEGAL with TINFO 22, a BASE that names no space CLUSTER_ADDR, one that is not aligned MISALIGN. A page that
the owner refuses is the trap that the waiting unit takes (R223).
R307 to R309, R441: HACC and HFIND send their lanes' keys in lane order to their own core and wait; with the reply HACC writes the
number of lanes done and p63 where all are, HFIND the values found, 0 elsewhere, and p63 in the lanes that found their key. That they
wait at their word for the reply is the model's reading (DEDUCED, log entry 63).
R307, R308: a bad table traps ILLEGAL with TINFO 22, LS_BOUND or MISALIGN, and HACC of the key 0xFFFFFFFF traps INDEX_RANGE with reason
3. -/
def Obligations.TableAccesses : Prop :=
  (∀ (x : Instr) (op : AtomicOp) (d a b : RegField) (t : Attr) (write read : List RegField) (g : GuardField) (s : State) (i : Issue)
    (base len owner : Nat),
    (let l := s.awake.elements i base len b
     let good := ascending (goodElements l)
     let awaited : LaneMask := if d = 60 then 0 else good.foldl (fun m x => m ||| laneBit x.1) 0
     let updates := updateRecords op (s.awake.laneWord i d) good
     let origin := base / 2 ^ 20 * 2 ^ 20
     ((owner = i.core → s.awake.ownRoom i.core = true) → good ≠ [] →
      (Issues irregularAttr g s i → OnTable s.awake i a [d] [b] base len owner →
       (indexRange l = none → exec (.gather d a b g) s = .next (i.finished irregularAttr
        (s.awake.elementsSent i owner base d awaited .read (readRecords good)))) ∧
       (∀ r, indexRange l = some r → exec (.gather d a b g) s =
        .next (s.awake.elementsAwaited i owner origin d awaited (some r) .read (readRecords good)))) ∧
      (scatterOf x = some (op, d, a, b, g) → Issues { irregularAttr with spin := true } g s i →
       OnTable s.awake i a [] [b, d] base len owner →
       (indexRange l = none → exec x s = .next (i.finished storeAttr (s.awake.elementsSent i owner base 60 0 (.update op) updates))) ∧
       (∀ r, indexRange l = some r → exec x s =
        .next (s.awake.elementsAwaited i owner origin 60 0 (some r) (.update op) updates)))) ∧
     (tableWord x = some (t, a, b, g, write, read) → Issues t g s i →
      (let stops (cause addr info : Nat) : Prop :=
        exec x s = .next (s.awake.takeTrap i ⟨cause, i.mask, BitVec.ofNat 64 addr, BitVec.ofNat 64 info⟩)
       (NamesTable s.awake i a write read base len →
        (len = 0 ∨ 2 ^ 24 ≤ len → stops Cause.illegal 0 22) ∧
        (0 < len → len < 2 ^ 24 → namesNoSpace base = true → stops Cause.clusterAddr base 0) ∧
        (0 < len → len < 2 ^ 24 → namesNoSpace base = false → base % 4 ≠ 0 → stops Cause.misalign base 0)) ∧
       (∀ r, SoundTable s.awake i a write read base len → indexRange l = some r → good = [] →
        exec x s = .next (s.awake.takeTrap i r)) ∧
       (i.tableOk a write read = false → exec x s = .next (s.awake.takeTrap i ⟨Cause.illegal, 0, 0, 0⟩)) ∧
       (∀ p r, i.tableOk a write read = true → s.awake.acknowledged i = some p → p.after = some r →
        exec x s = .next (s.awake.enterTrap (s.awake.setPending (i.asker p.id) none) i r)))))) ∧
  (∀ (x : Instr) (d a b : RegField) (t : Attr) (reserved : Bool) (read : List RegField) (g : GuardField) (s : State) (i : Issue) (base logc : Nat),
    (s.awake.ownRoom i.core = true →
      (Issues { irregularAttr with c := true, spin := true } g s i → OnHash s.awake i a b [d] [i.cField d] true base logc →
       exec (.hacc d a b g) s = .next (s.awake.elementsAwaited i i.core 0 d i.active none (.insert base logc)
        (s.awake.keyRecords i b (s.awake.laneWord i (i.cField d))))) ∧
      (Issues irregularAttr g s i → OnHash s.awake i a b [d] [] false base logc →
       exec (.hfind d a b g) s = .next (s.awake.elementsAwaited i i.core 0 d i.active none (.find base logc)
        (s.awake.keyRecords i b fun _ => 0)))) ∧
    (∀ p, s.awake.acknowledged i = some p → p.after = none →
      (let u := s.awake.setPending (i.asker p.id) none
       let done := marked p.values
       (Issues { irregularAttr with c := true, spin := true } g s i → i.tableOk a [d] [b, i.cField d] = true →
        exec (.hacc d a b g) s = .next (i.finished storeAttr
          ((u.writeLanes i .nat d i.active fun _ => BitVec.ofNat 64 done.length).writePreds i 63
            fun _ => done.length == (lanesOf i.active).length))) ∧
       (Issues irregularAttr g s i → i.tableOk a [d] [b] = true →
        exec (.hfind d a b g) s = .next (i.finished irregularAttr
          ((u.writeLanes i .nat d i.active fun l => BitVec.ofNat 64 (((SMap.find p.values l).getD 0).toNat % 2 ^ 32)).writePreds i 63
            fun l => done.contains l))))) ∧
    ((x = .hacc d a b g ∧ t = { irregularAttr with c := true, spin := true } ∧ read = [i.cField d] ∧ reserved = true) ∨
      (x = .hfind d a b g ∧ t = irregularAttr ∧ read = [] ∧ reserved = false) → Issues t g s i →
      (let size := base < 2 ^ 20 ∧ 4 ≤ logc ∧ logc ≤ 17
       let stops (cause : Nat) : Prop := exec x s = .next (s.awake.takeTrap i ⟨cause, i.mask, BitVec.ofNat 64 base, 0⟩)
       let bad := (lanesOf i.active).filter fun l => s.awake.laneWord i b l == 0xFFFFFFFF
       (NamesHash s.awake i a b [d] read base logc →
        (¬ size → exec x s = .next (s.awake.takeTrap i ⟨Cause.illegal, 0, 0, 22⟩)) ∧
        (size → i.window.holds base (8 * 2 ^ logc) = false → stops Cause.lsBound) ∧
        (size → i.window.holds base (8 * 2 ^ logc) = true → base % 8 ≠ 0 → stops Cause.misalign) ∧
        (size → i.window.holds base (8 * 2 ^ logc) = true → base % 8 = 0 → reserved = true → bad ≠ [] →
         exec x s = .next (s.awake.takeTrap i ⟨Cause.indexRange, bad.foldl (fun m l => m ||| laneBit l) 0, 0,
          BitVec.ofNat 64 (3 + 256 * bad.length)⟩))) ∧
       (i.tableOk a [d] (b :: read) = false → exec x s = .next (s.awake.takeTrap i ⟨Cause.illegal, 0, 0, 0⟩)) ∧
       (∀ p r, i.tableOk a [d] (b :: read) = true → s.awake.acknowledged i = some p → p.after = some r →
        exec x s = .next (s.awake.enterTrap (s.awake.setPending (i.asker p.id) none) i r)))))

/-! ### Messages and handlers -/

/-- R313, R321, R326 to R331: SEND, MPOST and WRET send their message, a run's being captured until HDONE; MTAKE takes a full
mailbox and waits for an empty one; WSPLIT adds 1 to a weight below 63. -/
def Obligations.Messages : Prop :=
  ∀ (a b : RegField) (m : BitVec 5) (g : GuardField) (s u : State) (i : Issue) (x y : Dword) (v : List (Nat → Dword)) (dst : Nat),
    (Issues { messageAttr with ximm := true } g s i → i.regOk false .pair a = true → s.awake.bufferFull i = false →
      s.awake.namesCore i (x.setWidth 16) dst →
      (let len := x.toNat / 2 ^ 24 % 16
       let cls := sendClass (x.toNat / 2 ^ 22 % 4)
       let out (payload : List Dword) (_ : Asker) : Msg := .handler (x.toNat / 2 ^ 16 % 64) 0 (s.awake.coordWord i) payload
       x.toNat < 2 ^ 28 → len ≤ 8 → (cls = .ray → len = 8) → nth v 0 (lowestLane i.active) = x →
       (i.k = 1 → i.kind ≠ .group → i.scalarRun b len = true → s.awake.operands i [(.pair, a)] [] = .ok v u →
        u.canEmit i dst cls →
        exec (.send a b g) s = .next (i.finished storeAttr
          (u.leaves i dst cls (out ((List.range len).map fun j => s.awake.scalarReg i (b.toNat + j)))))) ∧
       (∀ vals w, i.k = 0 → i.regOk false .pair b = true → s.awake.operands i [(.pair, a), (.pair, b)] [] = .ok v u →
        nth v 1 (lowestLane i.active) = y → y.toNat < 2 ^ 20 → u.readUnits i y.toNat 8 len = .ready vals w →
        w.canEmit i dst cls →
        exec (.send a b g) s = .next (i.finished storeAttr (w.leaves i dst cls (out (vals.map (BitVec.ofNat 64)))))))) ∧
    (ReadsWide messageAttr g a b [] s u i x y → s.awake.bufferFull i = false →
      (x.toNat < 2 ^ 16 → s.awake.namesCore i (x.setWidth 16) dst → u.canEmit i dst .ctl →
        exec (.mpost a b m g) s = .next (i.finished storeAttr (u.leaves i dst .ctl (.post m.toNat y)))) ∧
      (x.toNat / 2 ^ 20 % 2 ^ 12 = 0 → x.toNat < 2 ^ 48 → s.awake.weightWord i x.toNat = .ok dst →
        u.canEmit i dst .req →
        exec (.wret a b g) s = .next (i.finished storeAttr (u.leaves i dst .req (.weight (x.toNat % 2 ^ 20) y))))) ∧
    (Issues { messageAttr with h := false } g s i → i.regOk true .pair a = true → s.awake.operands i [] [a] = .ok v u →
      u.broadcasts i a →
      (let box := (s.awake.core i.core).handlers.mailbox m.toNat
       (box.present = true → exec (.mtake a m g) s = .next (i.finished storeAttr
        ((u.modHandlers i.core fun h => { h with mailboxes := SMap.drop h.mailboxes m.toNat }).answered i a box.value))) ∧
       (box.present = false → exec (.mtake a m g) s = .next s.heldBack))) ∧
    (Issues { noMod := true, spin := true } g s i → i.registersOk (.nat, a) [(.nat, a)] → s.awake.operands i [(.nat, a)] [a] = .ok v u →
      (∀ l ∈ lanesOf i.active, (nth v 0 l).toNat % 256 < 63) → u.broadcasts i a →
      exec (.wsplit a g) s = .next (i.finished storeAttr (u.delivered i .nat a fun l => nth v 0 l + 1)))

/-- R315 to R317, R321, R328: HBIND binds a handler number on its core and HUNBIND unbinds it, numbers from 60 up in privileged code
only; HDONE ends its run's code; MASKON opens a masked window and MASKOFF closes it. -/
def Obligations.Handlers : Prop :=
  ∀ (a b : RegField) (g : GuardField) (s u : State) (i : Issue) (x y : Dword) (r : Run),
    (ReadsWide { noMod := true, spin := true } g a b [] s u i x y →
      (let hid := y.toNat % 64
       x.toNat < 2 ^ 32 → y.toNat / 2 ^ 7 % 2 ^ 25 = 0 → y.toNat < 2 ^ 56 → x.toNat % 4 = 0 → (60 ≤ hid → i.priv = true) →
       (let cycles := y.toNat / 2 ^ 32 % 2 ^ 24
        let new : Binding := ⟨.bound, x.setWidth 32, y.getLsbD 6, if cycles = 0 then 65536 else cycles, i.launch⟩
        exec (.hbind a b g) s = .next (i.finished storeAttr
          (u.modHandlers i.core fun h => { h with bindings := SMap.put h.bindings hid new }))))) ∧
    (ReadsWide { noMod := true, spin := true } g a 60 [] s u i x y → x.toNat < 64 → (60 ≤ x.toNat → i.priv = true) →
      exec (.hunbind a g) s = .next (i.finished storeAttr
        (u.modHandlers i.core fun h => { h with bindings := SMap.drop h.bindings x.toNat }))) ∧
    (Issues { g := false, l := false, noMod := true } g s i → s.awake.run i.core i.unit = some r →
      exec (.hdone g) s = .next (((s.awake.finish i).modRun i.core i.unit fun r =>
        { r with done := true, masked := none }).releaseBuffer i.core i.unit 17) ∧
      (r.hi = true → exec (.maskon g) s = .next (i.finished {} s.awake)) ∧
      (r.hi = false → r.masked = none →
        exec (.maskon g) s = .next ((s.awake.finish i).modRun i.core i.unit fun r => { r with masked := some 0 })) ∧
      (r.hi = false → r.masked ≠ none → exec (.maskon g) s = .next (s.awake.takeTrap i ⟨Cause.illegal, 0, 0, 24⟩)) ∧
      exec (.maskoff g) s = .next ((s.awake.finish i).modRun i.core i.unit fun r => { r with masked := none }))

/-! ### Rays -/

/-- R358, R359, R363: RSEND sends a ray to a handler, or as a directory ray to the home of its treelet, and RHIT sends a hit record;
from registers in a lead or run, and from local memory. -/
def Obligations.RaySends : Prop :=
  ∀ (a b : RegField) (g : GuardField) (s u w : State) (i : Issue) (x y : Dword) (v : List (Nat → Dword)) (dst : Nat) (p : List Dword),
    Issues { messageAttr with ximm := true } g s i → s.awake.directoryInUse i → i.regOk false .pair a = true →
    s.awake.bufferFull i = false → nth v 0 (lowestLane i.active) = x → s.awake.namesCore i (x.setWidth 16) dst →
    (let fromRegisters (n : Nat) : Prop := i.k = 1 ∧ i.kind ≠ .group ∧ i.scalarRun b n = true ∧
      s.awake.operands i [(.pair, a)] [] = .ok v u ∧ w = u ∧ p = (List.range n).map fun j => s.awake.scalarReg i (b.toNat + j)
     let fromMemory (n : Nat) : Prop := i.k = 0 ∧ i.regOk false .pair b = true ∧
      s.awake.operands i [(.pair, a), (.pair, b)] [] = .ok v u ∧ nth v 1 (lowestLane i.active) = y ∧
      ∃ block, u.readUnits i (y.toNat % 2 ^ 20) (8 * n) 1 = .ready [block] w ∧ p = dwords block n
     let hid := x.toNat / 2 ^ 16 % 64
     let ray : Msg := if x.getLsbD 22 then .dirRay hid (s.awake.coordWord i) p else .handler hid 0 (s.awake.coordWord i) p
     let hit : Msg := .hit (p.flatMap fun v => bytesOfNat v.toNat 8)
     (fromRegisters 8 ∨ fromMemory 8 → x.toNat < 2 ^ 23 → rayTarget p < 2 ^ 30 →
      (x.getLsbD 22 = true → ∀ c, s.awake.context i.ctx = some c → dst = c.treeletHome (rayTarget p)) → w.canEmit i dst .ray →
      exec (.rsend a b g) s = .next (i.finished storeAttr (w.leaves i dst .ray fun _ => ray))) ∧
     (fromRegisters 4 ∨ fromMemory 4 → x.toNat < 2 ^ 16 → w.canEmit i dst .hit →
      exec (.rhit a b g) s = .next (i.finished storeAttr (w.leaves i dst .hit fun _ => hit))))

/-- R337 to R341, R360 to R362: RLD loads a 64-byte block into a run of registers of each active lane; RBOX4 and RTRI test the ray of
their register block against a node, or against one triangle of a leaf, and deliver the result word. -/
def Obligations.RayTests : Prop :=
  ∀ (a b : RegField) (f : BitVec 5) (g : GuardField) (s u : State) (i : Issue) (v : List (Nat → Dword)), Issues rayAttr g s i →
    (let node := u.blocksRead i wholeUnit (nth v 0)
     let leaf := u.blocksRead i leafParts (nth v 0)
     let count := if i.kind == .group then 16 else 8
     let width := if i.kind == .group then 32 else 64
     (i.fieldRun a.toNat 16 8 = true → ReadsBlocks s.awake u i wholeUnit b [] v →
      exec (.rld a b g) s = .next (i.finished {} ((lanesOf i.active).foldl (fun w l => (List.range count).foldl (fun w j =>
        w.writeReg i .nat (a + BitVec.ofNat 6 j) l (BitVec.ofNat 64 (node.1 l / 2 ^ (width * j) % 2 ^ width))) w) node.2))) ∧
     (s.awake.directoryInUse i → i.regOk true .pair a = true → i.fieldRun f.toNat 8 4 = true →
      s.awake.tokenPending i ((List.range 8).map (f.toNat + ·)) = false →
      (ReadsBlocks s.awake u i wholeUnit b [a] v → node.2.broadcasts i a →
       exec (.rbox4 a b f g) s = .next (i.finished {} (node.2.delivered i .pair a fun l =>
        BitVec.ofNat 64 (boxWord (node.1 l) (node.2.rayBlock i f l))))) ∧
      (ReadsBlocks s.awake u i leafParts b [a] v → (∀ l ∈ lanesOf i.active, (nth v 0 l).toNat < 2 ^ 22) → leaf.2.broadcasts i a →
       exec (.rtri a b f g) s = .next (i.finished {} (leaf.2.delivered i .pair a fun l =>
        BitVec.ofNat 64 (triangleWord (leaf.1 l) ((nth v 0 l).toNat / 2 ^ 20 % 4) (leaf.2.rayBlock i f l)))))))

/-- R364 to R366: TOWN answers where a treelet is owned as far as its core knows; TPIN answers 2 for no frame, 1 for a frame in use, 0
for the treelet's own frame, and waits for the fill of a free one; TEVICT answers 1 for a free frame, else waits. The 0 for a frame that
holds the treelet already is the model's choice: R365 names only pinned and in use (DEDUCED, log entry 67). -/
def Obligations.Treelets : Prop :=
  ∀ (a b : RegField) (g : GuardField) (s u : State) (i : Issue) (x : Context) (v : List (Nat → Dword)),
    Issues { noMod := true } g s i → s.awake.context i.ctx = some x → s.awake.hitching x = true → i.regOk true .pair a = true →
    (i.regOk false .pair b = true → s.awake.operands i [(.pair, b)] [a] = .ok v u →
      ((∀ l ∈ lanesOf i.active, (nth v 0 l).toNat < 2 ^ 30) →
        (let words := (lanesOf i.active).foldl (fun (acc : SMap Dword × State) l =>
          (acc.1 ++ [(l, (acc.2.ownerWord i x (nth v 0 l).toNat).1)], (acc.2.ownerWord i x (nth v 0 l).toNat).2)) ([], u)
         words.2.broadcasts i a →
         exec (.town a b g) s = .next (i.finished {} (words.2.delivered i .pair a fun l => (SMap.find words.1 l).getD 0))))) ∧
    (i.regOk false .pair b = true → s.awake.operands i [(.pair, b)] [a] = .ok v u →
      (let w := (nth v 0 (lowestLane i.active)).toNat
       let n := w % 2 ^ 30
       let f := w / 2 ^ 32 % 16
       let r := (s.awake.core i.core).ray
       w < 2 ^ 36 → w / 2 ^ 30 % 4 = 0 → u.broadcasts i a →
       (r.hasFrame f = false → exec (.tpin a b g) s = .next (i.finished {} (u.answered i a 2))) ∧
       (r.hasFrame f = true → SMap.find r.frames f = none →
        (let new (order : Nat) : TFrame := { TFrame.new n order with forPin := some (u.awaitAnswer i a).1 }
         exec (.tpin a b g) s = .next (i.finished {} ((((u.awaitAnswer i a).2.modCore i.core fun k => { k with
          order := k.order + 1
          ray := { k.ray with frames := SMap.put k.ray.frames f (new (k.order + 1)) } }).ahead i.core .ctl).release i.core (x.treeletHome n)
            .ctl (.pinRequest n i.core f (u.awaitAnswer i a).1))))) ∧
       (∀ t, r.hasFrame f = true → SMap.find r.frames f = some t →
        exec (.tpin a b g) s = .next (i.finished {} (if t.tid = n ∧ t.use = .resident then
          ((u.modTFrame i.core f fun t => { t with pinned := true }).delivered i .pair a fun _ => 0) else u.answered i a 1))))) ∧
    (i.regOk false .pair a = true → s.awake.operands i [(.pair, a)] [a] = .ok v u → u.broadcasts i a →
      (let f := (nth v 0 (lowestLane i.active)).toNat
       f < 16 →
       (SMap.find (s.awake.core i.core).ray.frames f = none → exec (.tevict a g) s = .next (i.finished {} (u.answered i a 1))) ∧
       (∀ t, SMap.find (s.awake.core i.core).ray.frames f = some t →
        (let w := (u.awaitAnswer i a).2.modTFrame i.core f fun t => { t with evictors := t.evictors ++ [(u.awaitAnswer i a).1] }
         exec (.tevict a g) s = .next (i.finished {} (if t.use = .resident then (w.ahead i.core .ctl).beginEvict x i.core f none else w))))))

/-! ### Kernels, traps and the system -/

/-- R382 to R384: LAUNCH accepts a valid record with the next handle and answers it, or answers the reason of a refusal, and waits
for a free index; KSTAT answers the status of a handle, and KWAIT does once the launch has retired, failed or is unknown. -/
def Obligations.Kernels : Prop :=
  ∀ (a b : RegField) (g : GuardField) (s u w : State) (i : Issue) (x y : Dword) (v : List (Nat → Dword)) (c : Context)
    (home off n : Nat) (vals : SMap Nat),
    (Issues { kernelAttr with ximm := true } g s i → (i.k = 0 ∨ 2 ^ 16 ≤ i.k ∧ i.k < 2 ^ 17 ∧ i.priv = true) →
      i.registersOk (.pair, a) [(.pair, b)] → s.awake.operands i [(.pair, b)] [a] = .ok v u →
      (let record := nth v 0 (lowestLane i.active)
       let bytes := bytesOfNat ((SMap.find vals (lowestLane i.active)).getD 0) 64
       record.toNat < 2 ^ 32 → s.awake.resolve i .unified record.toNat 64 = .ok (home, off) →
       s.awake.context i.launchTarget = some c → c.state ≠ .dead →
       (c.freeIndex = none → exec (.launch a b g) s = .next s.heldBack) ∧
       (c.freeIndex = some n → u.loadLanes i 64 [⟨lowestLane i.active, home, off, record⟩] = .ready vals w → w.broadcasts i a →
        (∀ reason, w.launchRefusal i.launchTarget c bytes = some reason →
          exec (.launch a b g) s = .next (i.finished {} (w.answered i a (BitVec.ofNat 64 (2 ^ 32 * reason))))) ∧
        (w.launchRefusal i.launchTarget c bytes = none →
          (let accepted := c.acceptLaunch n (w.core i.core).cluster.clock (LaunchRecord.parse bytes)
           exec (.launch a b g) s = .next (i.finished {} (State.answered { w with
            contexts := SMap.put w.contexts i.launchTarget accepted.2 } i a (accepted.1.setWidth 64)))))))) ∧
    (ReadsWide kernelAttr g a 60 [a] s u i x y → x.toNat < 2 ^ 32 → u.broadcasts i a →
      (let st := s.awake.launchStatus i.ctx (x.setWidth 32)
       (st % 16 = 5 ∨ st % 16 = 6 ∨ st % 16 = 8 → exec (.kwait a g) s =
        .next (i.finished {} ((u.followLaunch i.core i.ctx (x.setWidth 32)).answered i a (BitVec.ofNat 64 st)))) ∧
       (st % 16 < 5 ∨ st % 16 = 7 → exec (.kwait a g) s = .next s.heldBack))) ∧
    (ReadsWide kernelAttr g 60 b [a] s u i x y → y.toNat < 2 ^ 32 → u.broadcasts i a →
      exec (.kstat a b g) s = .next (i.finished {} (u.answered i a (BitVec.ofNat 64 (s.awake.launchStatus i.ctx (y.setWidth 32))))))

/-- R398, R399, R406: TRAP takes a software trap with the code K; RTE resumes the stream whose handler runs it; HALT with mode 0 ends
the group of a trap handler, and with mode 1 faults the context.
R393, R396: taking a trap of a lead saves the offset of its unit and the trap's record in its trap registers, and continues at
offset 0 of TVB with MODE 0 and no loops, once its older stores are performed and the pages of its spill record are there. -/
def Obligations.TrapReturnHalt : Prop :=
  (∀ (a : RegField) (g : GuardField) (s u : State) (i : Issue) (v : List (Nat → Dword)) (t : TrapRegs) (x : Context),
    (Issues { systemAttr with p := false } g s i → i.k < 2 ^ 16 →
      exec (.trap g) s = .next (s.awake.takeTrap i ⟨Cause.trapSw, i.mask, 0, BitVec.ofNat 64 i.k⟩)) ∧
    (Issues systemAttr g s i → s.awake.handled i = some t → s.awake.context i.ctx = some x → i.k ≤ 1 → t.tpc ≠ 0xFFFFFFFF →
      s.awake.pages i.core i.ctx (spillPages x.record.tsa i.unit (i.kind == .lead) i.lanes) (some i.waiter) = .ready →
      (i.kind = .lead → exec (.rte g) s = .next (s.awake.returnLead i (i.k == 1))) ∧
      (i.kind = .group → exec (.rte g) s = .next ((s.awake.returnLanes i (i.k == 1)).modUnit i.core i.unit fun r =>
        { r with info := { r.info with ready := 0, aged := false } }))) ∧
    (Issues systemAttr g s i → i.k = 0 → i.regOk false .pair a = true → s.awake.operands i [(.pair, a)] [] = .ok v u →
      ((i.haltMode v = 1 → exec (.halt a g) s = .next (u.contextFault i.ctx Cause.haltFault i.core)) ∧
       (i.haltMode v = 0 → i.handler = true → s.awake.unitUnperformed i.core i.unit = false →
        exec (.halt a g) s = .next (u.haltGroup i.core i.unit))))) ∧
  (∀ (s : State) (i : Issue) (t : TrapRec) (x : Context) (r : Resident) (l : Lead),
    i.kind = .lead → i.handler = false → s.context i.ctx = some x → s.unit i.core i.unit = some r → r.info.ctx = i.ctx → r.lead = some l →
    t.cause ≠ Cause.eccUncorr → s.spillHeld i = false →
    s.pages i.core i.ctx (spillPages x.record.tsa i.unit true i.lanes) (some i.waiter) = .ready →
    ∃ r' l', (s.takeTrap i t).unit i.core i.unit = some r' ∧ r'.lead = some l' ∧
      l'.traps = ⟨i.start, tcauseWord t.cause true false i.front.hints.count i.unit, 0, t.addr, t.info⟩ ∧
      l'.s.front = Front.at 0 ∧ l'.s.loops = [] ∧ l'.s.mode = 0 ∧ (r'.ctl.trap.map (·.lead)) = some true)

/-- R404, R407: SYSR reads the system register that K names, SYSW writes it, and to L2COMMIT starts a commit and waits for it; a
number that names no register is ILLEGAL. -/
def Obligations.SystemRegisters : Prop :=
  ∀ (a : RegField) (g : GuardField) (s u : State) (i : Issue) (x y : Dword), i.k < 2 ^ 17 →
    (ReadsWide systemAttr g 60 60 [a] s u i x y → u.broadcasts i a →
      exec (.sysr a g) s = .next (match s.awake.readSystem i with
        | some v => i.finished systemAttr (u.answered i a v)
        | none => s.awake.takeTrap i ⟨Cause.illegal, 0, 0, 28⟩)) ∧
    (ReadsWide systemAttr g a 60 [] s u i x y →
      (i.k = 2 ^ 16 + 0x600 → s.l2.commit = none → exec (.sysw a g) s = .next (i.finished systemAttr
        ((u.awaiting i).2.modL2 fun l => { l with commit := some ⟨x.setWidth 16, .requested, l.staged, [], (u.awaiting i).1⟩ }))) ∧
      (i.k ≠ 2 ^ 16 + 0x600 →
        exec (.sysw a g) s = .next (match (if i.k < 2 ^ 16 then u.writeBank0 i i.k x else u.writeBank1 (i.k - 2 ^ 16) x) with
          | some w => i.finished systemAttr w
          | none => s.awake.takeTrap i ⟨Cause.illegal, 0, 0, 28⟩)))

/-- R386 to R391, R408: each CSAVE operation acts on the context that A names and answers its status code, or the status word of the
context. The order of statuses 2, 4 and 3, status 2 for the issuing context, and 5 for a record that cannot be read are the model's
reading (DEDUCED, log entry 33).
R222, R240, R311, R324, R390, R391, R401 to R403: a preempting context is captured once its runs have ended, its engines have settled
and its save area is mapped, a faulted one whose save was asked for once its engines have settled, and either asks for the first page
that is not mapped; a restoring one takes its pins and then its image; a dead one frees its
identifier. The moment of the capture, and the byte of the image that the model leaves free, are its own (log entry 44). -/
def Obligations.ContextOperations : Prop :=
  (∀ (a b : RegField) (g : GuardField) (s u : State) (i : Issue) (x y : Dword),
    ReadsWide systemAttr g a b [a] s u i x y → x.toNat < 2 ^ 16 →
    (let known := s.awake.context x.toNat
     let lines := s.awake.recordLines i.ctx y.toNat
     let read := lines.foldl State.signalRead u
     let answers (w : State) (v : Nat) : Host.Outcome State Fault Refusal := .next (i.finished systemAttr (w.answered i a (BitVec.ofNat 64 v)))
     (∀ v w, (v, w) = (if x = 0 ∨ known.isSome = true then (1, u) else match s.awake.readRecord i.ctx y.toNat with
        | none => (5, read)
        | some bytes => if malformed bytes then (5, read)
          else (0, { read with contexts := SMap.put read.contexts x.toNat (Context.created bytes) })) →
      (x = 0 ∨ known.isSome = true ∨ ∀ line ∈ lines, s.awake.lineAnswers (dieOf i.core) line = true) →
      i.k = 0 → y.toNat % 128 = 0 → w.broadcasts i a → exec (.csaveCreate a b g) s = answers w v) ∧
     (∀ v w, (v, w) = (match known with
        | none => (1, u)
        | some c => if c.placeable = false then (2, u) else if c.record.placeOk (y.toNat % 256) (y.toNat / 256) = false then (4, u)
          else if s.awake.rectangleHeld c.record (y.toNat % 256) (y.toNat / 256) then (3, u)
          else (0, u.place x.toNat c (y.toNat % 256) (y.toNat / 256))) →
      i.k = 1 → y.toNat < 2 ^ 16 → w.broadcasts i a → exec (.csavePlace a b g) s = answers w v) ∧
     (∀ v w, (v, w) = (match known with
        | none => (1, u)
        | some c => if x.toNat = i.ctx then (2, u) else if c.issues then (0, u.modContext x.toNat fun c => { c with state := .preempting })
          else if c.state = .faulted ∧ c.midSave = false ∧ c.closing = false then (0, u.modContext x.toNat fun c => { c with closing := true })
          else (2, u)) →
      i.k = 2 → y = 0 → w.broadcasts i a → exec (.csaveSave a b g) s = answers w v) ∧
     (∀ v w, (v, w) = (match known with
        | none => (1, u)
        | some c => if c.state = .dead ∨ x.toNat = i.ctx then (2, u) else (0, u.destroy x.toNat c)) →
      i.k = 3 → y = 0 → w.broadcasts i a → exec (.csaveDestroy a b g) s = answers w v) ∧
     (i.k = 4 → y = 0 → u.broadcasts i a → exec (.csaveStatus a b g) s = answers u (s.awake.contextStatus x.toNat)))) ∧
  (∀ (s : State) (ctx : Nat) (x : Context), s.context ctx = some x →
    (x.state = .preempting ∨ (x.state = .faulted ∧ x.closing = true) →
      (let faulted := x.state == .faulted
       let t := if faulted then s else x.cores.foldl (fun s c => s.endDoneRuns c) s
       (if faulted then t.faultedReady ctx x else t.saveReady ctx x) = true →
       ((∀ va ∈ x.savePages, (t.savePlace ctx x va).isSome = true) → exec (.contextSaved ctx) s = .next (t.capture ctx x faulted)) ∧
       (∀ va, x.savePages.find? (fun va => (t.savePlace ctx x va).isNone) = some va → exec (.contextSaved ctx) s =
        .next ((t.freeValue.2).translate ((x.cores.head?).getD 0) ctx va 1 (t.freeValue.1.toNat % 256) (.save ctx)).2))) ∧
    (x.state = .restoring → (∀ d ∈ x.pinsDue, s.pinsFit d = true ∧
        s.pages d.1 ctx (d.2.map fun p => 4096 * p.1) none = .ready) →
      (let t := x.pinsDue.foldl (fun s d => s.modCore d.1 fun k => k.takePins ctx d.2) s
       (∀ g, x.image = some g → exec (.contextRestored ctx) s =
        .next ((t.loadImage ctx x g).modContext ctx fun x => { x with state := .resident })) ∧
       (x.image = none → exec (.contextRestored ctx) s = .next (t.modContext ctx fun x => { x with state := .resident })))) ∧
    (x.state = .dead → exec (.contextFreed ctx) s = .next { s with contexts := SMap.drop s.contexts ctx }))

/-! ### What the machine does by itself -/

/-- R122 to R126, R373 to R375, R378, R384: a launch waits for its predecessors, fails with one, or takes its rectangle; its next
group becomes resident where it fits when no other launch goes first; a unit of which nothing is left retires, and with the last
group of its grid the launch drains; a draining launch without strands releases its far stows, and then retires.
R379, R380, R429: an uncorrectable error that something on the cores has read poisons its line and counts in HECC.UE, and the
fills, pieces, fetches and walks that read it are told, each of which rolls its launch back or refuses its access. -/
def Obligations.LaunchEvents : Prop :=
  (∀ (s : State) (ctx c u d : Nat) (h : BitVec 32) (x : Context) (l : Launch) (r : Resident) (f : Fit), s.context ctx = some x →
    s.launch ctx h = some l →
    (x.state ≠ .dead → l.state = .queued ∨ l.state = .waiting →
      (let states := l.record.preds.filterMap fun p => (x.launch p).map (·.state)
       (LaunchState.failed ∈ states → exec (.launchPlacing ctx h) s =
        .next (s.modLaunch ctx h fun l => { l with state := .failed, reason := 1 })) ∧
       (LaunchState.failed ∉ states → (∃ y ∈ states, y ≠ LaunchState.retired) → exec (.launchPlacing ctx h) s =
        .next (s.modLaunch ctx h fun l => { l with state := .waiting })) ∧
       ((∀ y ∈ states, y = LaunchState.retired) → x.placed = true → x.issues = true →
        (∀ m ∈ x.launches, x.eligible m.2 = true → m.2.ahead l = false) → exec (.launchPlacing ctx h) s =
        .next (s.modLaunch ctx h fun l => { l with state := .placing, origin := s.chooseOrigin x l.record })))) ∧
    (l.pending = true → x.issues = true → (∀ m ∈ x.launches, x.before m.2 l = false) → s.placeFor x l = some (d, f) →
      exec (.groupPlacement ctx h) s = .next ((State.raiseClock (State.settle (s.modCore d fun k => { k with order := k.order + 1 }) d f.unit
        (Resident.group ctx l l.nextGroup ((s.core d).order + 1) f)) d l.clock).modLaunch ctx h fun l =>
          { l with state := .running, nextGroup := l.nextGroup + 1 })) ∧
    (s.unit c u = some r → r.info.ctx = ctx → r.info.handle = h → s.unitDone c u r = true → x.issues = true → x.launchRuns h = true →
      (r.info.hank = true → exec (.groupRetirement c u) s = .next (s.retireUnit c u)) ∧
      (r.info.hank = false → exec (.groupRetirement c u) s = .next ((s.retireUnit c u).modLaunch ctx h fun l =>
        if l.state = .running ∧ l.done + 1 = l.record.total then { l with done := l.done + 1, state := .draining }
        else { l with done := l.done + 1 }))) ∧
    (l.state = .draining → s.strandsOf x h = false →
      (l.release ≠ [] → exec (.launchRetirement ctx h) s = .next (s.releaseFar ctx h)) ∧
      (l.release = [] → s.releasing ⟨ctx, h⟩ = false → exec (.launchRetirement ctx h) s =
        .next ((s.unbind x h).modLaunch ctx h fun l => { l with state := .retired, log := [], clock := s.latest x }))) ∧
    (l.state = .replaying → s.rollbackQuiet x h = true → exec (.rollbackComplete ctx h) s = .next (s.rolledBack ctx h x l))) ∧
  (∀ (s : State) (pa : Nat),
    (let line := pa / 64
     let cores := s.cores.map (·.1)
     let pieces := cores.flatMap (s.piecesReading line)
     let fills := cores.flatMap fun c => ((s.core c).fillsReading line).map fun f => (c, f)
     let fetches := cores.flatMap (s.fetchesReading line)
     let poisoned := (s.modL2 fun l => { l with
        poisoned := if l.poisoned.contains line then l.poisoned else line :: l.poisoned }).modHost fun h => { h with ue := bumpCount h.ue }
     let walks := s.stations.flatMap fun t => t.2.stalled.filter (s.walkReading line)
     (pieces ≠ [] ∨ fills ≠ [] ∨ fetches ≠ [] ∨ walks ≠ [] ∨ (cores.any fun c => (s.core c).treeletsReading line) = true) →
     (s.cached line = true → s.l2.poisoned.contains line = true) → (s.cached line = false → s.lineFetches line = true) →
     exec (.uncorrectableError pa) s =
      .next (walks.foldl State.poisonWalk
        (fetches.foldl State.poisonFetch (pieces.foldl State.poisonPiece (fills.foldl (fun s f => s.poisonFill f.1 f.2) poisoned))))))

/-- R146, R147, R149, R343, R368, R376, R400: a bin of 2,048 cycles is drawn, and a drawn bin becomes a hank where its registers
are free; hit records arrive and are filed or removed; a unit ready for 4,096 cycles ages; a lead that has used its budget is to
trap; a dispatch lead whose ring holds its next word takes its turn. -/
def Obligations.CoreEvents : Prop :=
  ∀ (s : State) (c u b base ctx : Nat) (x : Bin) (y : Context) (l : Launch) (r : Resident) (e : Lead) (bytes : List Byte)
    (more : List (List Byte)),
    (SMap.find (s.core c).bins b = some x →
      (x.drawn = false → x.born + 2048 ≤ (s.core c).cycle → exec (.binAgeExpiry c b) s =
        .next (s.modCore c fun k => { k with bins := SMap.put k.bins b { x with drawn := true } })) ∧
      (x.drawn = true → s.holder c = some (ctx, y) → y.launch x.launch = some l → (s.core c).freeUnit = some u →
        (s.core c).baseFor 0 8 l.record.regs = some base → y.issues = true → y.launchRuns x.launch = true →
        exec (.hankPlacement c b) s = .next (x.strands.zipIdx.foldl (fun t z => z.1.regs.zipIdx.foldl (fun t v =>
          if v.2 < l.record.regs then t.setLane c (Resident.hankOf ctx l x base) z.2 v.2 v.1 else t) t)
          (State.settle (s.modCore c fun k => { k with bins := SMap.drop k.bins b }) c u (Resident.hankOf ctx l x base))))) ∧
    (∀ src run rest, (s.core c).inbox .hit = ⟨src, .hit bytes, run⟩ :: rest → (s.core c).hitQueue.length < 256 →
      exec (.hitArrival c) s = .next ((s.take c .hit 0).modCore c fun k => { k with hitQueue := k.hitQueue ++ [bytes] })) ∧
    ((s.core c).hitQueue = bytes :: more → s.holder c = some (ctx, y) → y.issues = true →
      (let gone (t : State) : State := t.modCore c fun k => { k with hitQueue := more }
       (∀ code, y.hitFate ((s.core c).ray.rcfg2.setWidth 32) bytes = .removed code → exec (.hitRecordFiling c) s =
        .next ((gone s).faultReport ctx c [BitVec.ofNat 64 (code + 65536), BitVec.ofNat 64 (recField bytes 0 8)])) ∧
       (∀ h entry t, y.hitFate ((s.core c).ray.rcfg2.setWidth 32) bytes = .files h entry →
        s.fileStrand c h entry (hitStrand bytes) = some t → exec (.hitRecordFiling c) s = .next (gone t)))) ∧
    (s.unit c u = some r → 4096 ≤ r.info.ready → exec (.priorityAging c u) s =
      .next (s.modUnit c u fun r => { r with info := { r.info with aged := true } })) ∧
    (s.unit c u = some r → r.lead = some e → e.budget ≠ 0 → 2 ^ (e.budget + 8) ≤ e.readyFor → exec (.budgetLead c u) s =
      .next (s.modLead c u fun l => { l with due := true })) ∧
    (∀ die, (s.core (dispatchCore die)).units.find? (fun z => s.resumes (dispatchCore die) z.1) = some (u, r) →
      exec (.dispatchFetchResume die) s = .next { s with agenda := .poll (.lead (dispatchCore die) u) :: s.agenda })

/-- R180 to R183, R190 to R194, R197, R200 to R202, R223, R303 to R306, R419, R441: what homes and requesters do with the oldest
messages of cluster space that may be taken: a renewal, a store and the atomics of a unit are performed at their home and
answered; the reply or the acknowledgement reaches its stream; an element message is performed by its owner once its whole train is
there, and so is its reply taken, or the refusal of its page (R441); a watched line that a
home pushes enters the cache unless it is older or the watcher's own, and every stream of the watching core polls; a clock ticks; an arrival at this package's own root is counted.
R211 to R216, R419: the parties of a barrier whose generation has ended depart, each storing its sums where its page is there;
at a package that is not the root of a pod barrier the release from outside ends the generation first; records that no party
still owes are dropped. -/
def Obligations.ClusterEvents : Prop :=
  (∀ (s : State) (c n ctx src line clock : Nat) (x : Context) (run : Option Nat) (a : Asker),
    (s.message c .req n = some ⟨src, .renew line clock, run⟩ → s.holder c = some (ctx, x) → s.inTurn c .req n = true →
      s.replyRoom c src = true →
      (s.pages c ctx [64 * line] (some (.reader src line)) = .ready →
        (let h := ((s.core c).cluster.home line).renew clock
         let t := ((s.take c .req n).touch c ctx (64 * line)).modCluster c fun p => { p with homes := SMap.put p.homes line h }
         exec (.leaseRenewal c n) s = .next (t.reply c src (.renewed line (t.localBytes c ctx (64 * line) 64) h.wts h.rts)))) ∧
      (∀ addr cause t, s.pages c ctx [64 * line] (some (.reader src line)) = .refused addr cause t →
        exec (.leaseRenewal c n) s = .next ((t.take c .req n).reply c src (.renewed line [] cause 0)))) ∧
    (∀ bytes wts rts, s.message c .rsp n = some ⟨src, .renewed line bytes wts rts, run⟩ →
      (let key := lineKey src line
       let waiting := ((s.core c).cluster.readers.filter (·.1 == key)).map (·.2)
       let t := (s.take c .rsp n).modCluster c fun p => { p with
        asked := p.asked.erase (src, line), readers := p.readers.filter (·.1 != key) }
       (bytes ≠ [] → exec (.clusterLoadReply c n) s = .next (t.cacheLine c key ⟨bytes, wts, rts, none, []⟩)) ∧
       (bytes = [] → waiting ≠ [] → exec (.clusterLoadReply c n) s = .next (t.cacheLine c key ⟨[], 0, 0, some wts, waiting⟩)) ∧
       (bytes = [] → waiting = [] → exec (.clusterLoadReply c n) s = .next t))) ∧
    (∀ w : Nat × Byte, ∀ more : List (Nat × Byte), s.message c .req n = some ⟨src, .store (w :: more) clock a, run⟩ →
      s.inTurn c .req n = true → s.replyRoom c a.core = true →
      s.pages c a.agent.ctx (w.1 :: more.map (·.1)) (some a.waiter) = .ready →
      (let t := (s.take c .req n).storeBytes a.agent c (w.1 / 64) (w :: more) clock
       let time := ((t.core c).cluster.home (w.1 / 64)).wts
       exec (.storeAtHome c n) s = .next (((t.mayOwn c (w.1 / 64) a.core).performed a time).reply c a.core (.ack time [] a)))) ∧
    (∀ ops olds time t, ∀ answer : Bool, s.message c .req n = some ⟨src, .atomics ops answer clock a, run⟩ →
      s.inTurn c .req n = true → s.replyRoom c a.core = true → s.pages c a.agent.ctx (ops.map (·.2.1)) (some a.waiter) = .ready →
      (s.take c .req n).performAtomics a.agent c clock ops = (olds, time, t) → exec (.storeAtHome c n) s =
        .next ((t.performed a time).reply c a.core (.ack time (if answer then olds else []) a))) ∧
    (∀ writes addr cause t, s.message c .req n = some ⟨src, .store writes clock a, run⟩ → s.inTurn c .req n = true →
      s.replyRoom c a.core = true → s.pages c a.agent.ctx (writes.map (·.1)) (some a.waiter) = .refused addr cause t →
      exec (.storeAtHome c n) s = .next ((t.take c .req n).refuseAtHome c a cause addr)) ∧
    (∀ olds, s.message c .rsp n = some ⟨src, .ack clock olds a, run⟩ →
      (let t := ((s.take c .rsp n).acknowledge a).raiseClock c clock
       exec (.storeAcknowledgement c n) s = .next (if olds = [] then t else t.takeValues a olds))) ∧
    (∀ m v, ∀ accepted : Bool, s.message c .rsp n = some ⟨src, .postAnswer accepted m v a, run⟩ →
      exec (.storeAcknowledgement c n) s = .next ((s.take c .rsp n).postAnswered c src accepted m a)) ∧
    exec (.logicalClockTick c) s = .next (s.modCluster c fun p => { p with clock := p.clock + 1 }) ∧
    (∀ home bytes wts rts, s.message c .ctl n = some ⟨src, .watched home line bytes wts rts, run⟩ → s.inTurn c .ctl n = true →
      (let t := s.take c .ctl n
       let newer := ∀ l, SMap.find (t.core c).cluster.cache (lineKey home line) = some l → l.wts ≤ wts
       let told (u : State) : State := { u with agenda := ((u.core c).streams c).map Turn.poll ++ u.agenda }
       (newer → home ≠ c → exec (.watchRenewal c n) s = .next (told (t.cacheLine c (lineKey home line) ⟨bytes, wts, rts, none, []⟩))) ∧
       (¬(newer ∧ home ≠ c) → exec (.watchRenewal c n) s = .next (told t)))) ∧
    (∀ ref, exec (.waitPoll ref) s = .next { s with agenda := .poll ref :: s.agenda }) ∧
    (∀ setId id, s.cores.findSome? (fun k => ((k.2.inbox .ctl).findIdx? fun m => m.msg == .podArrive setId id).map fun n => (k.1, n)) =
      some (c, n) → s.inTurn c .ctl n = true → exec (.podArrival setId id) s = .next ((s.take c .ctl n).countPod setId id)) ∧
    (∀ part op origin l, s.message c .req n = some ⟨src, .elements part op origin l clock a, run⟩ → s.inTurn c .req n = true →
      s.replyRoom c a.core = true →
      (part.whole = false → exec (.elementMessage c n) s = .next s) ∧
      (∀ done t, part.whole = true → s.performMessage c clock a op origin l = .ready done t → exec (.elementMessage c n) s =
        .next ((t.take c .req n).replyTrain c (t.latestWrite c clock op done) a none done)) ∧
      (∀ r t, part.whole = true → s.performMessage c clock a op origin l = .refused r t → exec (.elementMessage c n) s =
        .next ((t.take c .req n).replyTrain c clock a (some r) l))) ∧
    (∀ part l u p r, s.message c .rsp n = some ⟨src, .elementsDone part none l clock a, run⟩ → part.whole = true → a.who = .lanes u →
      (let t := (s.take c .rsp n).raiseClock c clock
       t.pendingOf a = some p → t.unit a.core u = some r →
       exec (.elementReply c n) s = .next (((l.foldl (fun (t : State) e =>
        if p.writes.getLsbD e.lane && decide (p.dest.toNat < 56) && (p.loose || p.after.isSome) then
          t.setLane a.core r e.lane p.dest.toNat e.value
        else t) t).setPending a (if p.loose then none else some { p with
          missing := 0
          values := l.foldl (fun m e => SMap.put m e.lane (e.value.setWidth 64 + (if e.ok then 2 ^ 32 else 0))) [] })).acknowledge a))) ∧
    (∀ part refused l, s.message c .rsp n = some ⟨src, .elementsDone part (some refused) l clock a, run⟩ → part.whole = true →
      exec (.elementReply c n) s = .next ((((s.take c .rsp n).raiseClock c clock).elementsRefused a refused).acknowledge a))) ∧
  (∀ (s : State) (ctx scope inst id : Nat) (x : Context), s.context ctx = some x → x.placed = true → id < 16 → scope < 7 →
    (let t := (s.instanceUnits x scope inst).foldl (fun t y => t.departUnit ctx scope id y.1 y.2) (s.podReleased ctx x scope inst id)
     (scope = 0 → exec (.barrierDeparture ctx scope inst id) s = .next t) ∧
     (scope ≠ 0 → exec (.barrierDeparture ctx scope inst id) s = .next (t.settleRecords x ctx scope inst id))))

/-- R219 to R223, R224 to R229, R238: a filling local page takes the bytes of its backing page, and a draining one is written and
freed, or kept when an access came, where the lines that it needs answer; either asks for its translation anew once its address has
left every domain; a station's walk gives its translation to the request that waits, or stalls it with the
reason; held fault records are posted as the queue gets room; a TSINV drops the translations of its range and walks again or
refuses the requests that stood under a record. -/
def Obligations.PageEvents : Prop :=
  ∀ (s : State) (c ctx page i stn n : Nat) (f : Frame) (p : Place) (x : Context) (y : Stalled) (m : Shootdown) (more : List Shootdown),
    (((s.core c).framesIn ctx page .filling).find? (fun f => f.2.refused.isNone && f.2.place.isSome) = some (i, f) → f.place = some p →
      (s.mapped p = true → s.pagePoisoned p = false → f.lost = false → s.placeRead (dieOf c) p f.answered = true →
        exec (.lsPageFillComplete c ctx page) s = .next (s.fillPage c i f p)) ∧
      (s.mapped p = false → exec (.lsPageFillComplete c ctx page) s = .next (s.unmapFrame c i f))) ∧
    (((s.core c).framesIn ctx page .draining).find? (fun f => f.2.place.isSome) = some (i, f) → f.place = some p →
      (s.mapped p = false → exec (.lsPageWritebackComplete c ctx page) s = .next (s.unmapFrame c i f)) ∧
      (s.mapped p = true → f.lost = false → s.placeAnswers (dieOf c) p 4096 = true →
       (f.touched = true → exec (.lsPageWritebackComplete c ctx page) s =
        .next ((s.writePage c i ctx p).modCore c fun k => { k with frames := SMap.put k.frames i f.kept })) ∧
       (f.touched = false → exec (.lsPageWritebackComplete c ctx page) s = .next ((s.writePage c i ctx p).dropFrame c i)))) ∧
    ((s.station stn).stalled[n]? = some y → y.state ≠ .recorded → s.walkAnswers (stn / 16) y.ctx y.va = true →
      (let w := s.walkRead y.ctx y.va
       (∀ t, w.walk y.ctx y.va y.acc = .ok t → exec (.translationWalk stn n) s =
        .next ((w.modStation stn fun st => Station.keep { st with stalled := dropAt n st.stalled } t).resume y.who (t.place! y.va))) ∧
       (∀ e, w.walk y.ctx y.va y.acc = .error e → exec (.translationWalk stn n) s =
        .next (w.stallRequest stn n { y with kind := e.kind, level := e.level })))) ∧
    (s.context ctx = some x → exec (.faultQueueRecheck stn ctx) s = .next (s.postHeld stn ctx x (s.station stn).held.length)) ∧
    (s.l2.shootdowns = m :: more →
      (let t := (s.modL2 fun l => { l with shootdowns := more }).mapStations (·.shotDown m)
       (m.action = 0 → exec .tsinvComplete s = .next (t.setPending m.who none)) ∧
       (m.action = 1 → exec .tsinvComplete s = .next ((t.mapStations (·.walkAgain m)).setPending m.who none)) ∧
       (m.action = 2 → exec .tsinvComplete s = .next (((t.stations.flatMap fun st => st.2.stalled.filter m.acts).foldl
        State.refuseRequest (t.mapStations (·.refused m))).setPending m.who none))))

/-- R230 to R235, R237, R245, R429, R438 to R440: a commit is refused with its ERR or begins; its commit point takes the new mapping and
answers REPLAY; its last station's reload completes it; maintenance completes while no commit is under way; a slice serves, holds or
replays a request; a REPLAY names the domain and its GEN, and the station folds the request under its copy of it, reloaded where it is
older; a missed line is read from HBM4 and enters its slice, which makes room when it is full; a stow is then served. -/
def Obligations.SliceEvents : Prop :=
  ∀ (s : State) (c u q p line k stn : Nat) (corrected : Bool) (m : Commit) (w : Maintenance) (more : List Maintenance) (r : LineRequest),
    (s.l2.commit = some m →
      (m.stage = .requested → (s.commitErr m = 0 → exec (.l2commit m.mask) s =
          .next ((s.modL2 fun l => { l with stat := s.l2Status }).modL2 fun l => { l with commit := some { m with stage := .draining } })) ∧
        (s.commitErr m ≠ 0 → exec (.l2commit m.mask) s =
          .next (((s.modL2 fun l => { l with stat := s.l2Status }).modL2 fun l => { l with commit := none }).setPending m.who none))) ∧
      (m.stage = .draining → s.stacksTake (s.l2.lines.filter fun y => s.departs m (y.1 / 512) (y.1 % 512)) = true → exec .l2CommitPoint s = .next (s.switched m)) ∧
      (m.stage = .switched → stn ∈ m.reload →
        (let t := (List.range 16).foldl (fun t d => t.reloadCopy stn d) s
         (m.reload.erase stn = [] → exec (.stationReload stn) s = .next
          ((t.modL2 fun l => { l with commit := none, stat := l.stat &&& ~~~(1 : Dword) }).setPending m.who none)) ∧
         (m.reload.erase stn ≠ [] → exec (.stationReload stn) s = .next
          (t.modL2 fun l => { l with commit := some { m with reload := m.reload.erase stn } }))))) ∧
    (s.l2.maintenance = w :: more → s.l2.commit = none →
      s.stacksTake (s.l2.lines.filter fun y => (!w.invalidate || w.writeBack) && w.covers (y.1 / 512)) = true → exec .l2MaintenanceDone s =
      .next (((s.maintained w).modL2 fun l => { l with maintenance := more }).setPending w.who none)) ∧
    (s.lineRequest c u q p line = some r →
      (r.state.pending = true →
        (let asked := (s.station (stationOf c)).fold r.state (64 * r.line)
         (s.sliceOf (64 * r.line) = none → exec (.sliceRequest c u q p line) s = .next (s.unmapPiece c u q p)) ∧
         (∀ j, s.sliceOf (64 * r.line) = some k → asked = some j → s.routeUp (dieOf c) (j / 128) = true → j ≠ k →
          exec (.sliceRequest c u q p line) s = .next (s.setLine c u q p line (s.replayAnswer r.line))) ∧
         (s.sliceOf (64 * r.line) = some k → asked = some k → s.routeUp (dieOf c) (k / 128) = true →
          ((∀ m, s.l2.commit = some m → m.stage = .draining → s.departs m r.line k = false) → exec (.sliceRequest c u q p line) s =
            .next (s.serve c u q p line k r)) ∧
          (∀ m, s.l2.commit = some m → m.stage = .draining → s.departs m r.line k = true → exec (.sliceRequest c u q p line) s =
            .next (s.setLine c u q p line .held))))) ∧
      (r.state = .replayed none → exec (.l2Replay c u q p line) s = .next (s.unmapPiece c u q p)) ∧
      (∀ d gen, r.state = .replayed (some (d, gen)) →
        (let older := 0 < (gen - ((s.station (stationOf c)).copy d).gen).toInt
         (older → exec (.l2Replay c u q p line) s = .next ((s.reloadCopy (stationOf c) d).setLine c u q p line (.under d))) ∧
         (¬ older → exec (.l2Replay c u q p line) s = .next (s.setLine c u q p line (.under d))))) ∧
      (r.state = .missed → r.line ∉ s.l2.poisoned → s.sliceOf (64 * r.line) = some k → s.lineAnswers (dieOf c) r.line = true →
        (let read := if corrected then s.modHost fun h => { h with ce := bumpCount h.ce } else s
         let t := if s.cached r.line = true then s else read.install r.line k ⟨s.deviceLine r.line, false⟩
         (r.entry.op.stows = true → exec (.hbm4ReadComplete c u q p line corrected) s = .next (t.setLine c u q p line .asked)) ∧
         (r.entry.op.stows = false → exec (.hbm4ReadComplete c u q p line corrected) s = .next (t.readLine c u q p line r)))))

/-- R12, R233 to R235, R244 to R247, R252, R257, R271, R423: the engine takes a command in its turn, and the fid and a treelet fill theirs; a HAULT at its turn begins to fill its slots;
a piece of the head entry asks for its translation, waits, or moves its bytes once its lines are answered, and is performed; the
host's completion performs a write; a trap left for a unit is due to its stream, or to the unit's other stream where that has ended, at
its next unit; when no stream is left a new handler path of all its lanes takes it. -/
def Obligations.EngineEvents : Prop :=
  ∀ (s : State) (c n u q p src : Nat) (seq : Word) (run : Option Nat) (e : Entry) (b : Nat) (r : Resident) (x : Context) (lead : Bool)
    (t : TrapRec) (more : List (Bool × TrapRec)),
    (n < 32 → s.message c .req n = some ⟨src, .entry u q seq, run⟩ → s.inTurn c .req n = true → exec (.engineCommand c n) s =
      .next (((s.take c .req n).modQueue c u q fun y => { y with
        entries := y.entries.map fun e => if e.seq = seq then { e with commanded := true } else e }).advance c u 64)) ∧
    (n < 32 → s.message c .req n = some ⟨src, .tile u, run⟩ → s.inTurn c .req n = true → ∃ t, exec (.engineCommand c n) s = .next t ∧
      ((s.take c .req n).core c).tile.cmds.length = (t.core c).tile.cmds.length ∧
      ∀ j y, ((s.take c .req n).core c).tile.cmds.findIdx? (fun x => x.unit == u && !x.commanded) = some j →
        ((s.take c .req n).core c).tile.cmds[j]? = some y → (t.core c).tile.cmds[j]? = some { y with commanded := true }) ∧
    (n < 32 → s.message c .req n = some ⟨src, .step u, run⟩ → s.inTurn c .req n = true → ∃ t, exec (.engineCommand c n) s = .next t ∧
      ((s.take c .req n).core c).tile.steps.length = (t.core c).tile.steps.length ∧
      ∀ j y, ((s.take c .req n).core c).tile.steps.findIdx? (fun x => x.unit == u && !x.commanded) = some j →
        ((s.take c .req n).core c).tile.steps[j]? = some y → (t.core c).tile.steps[j]? = some { y with commanded := true }) ∧
    (∀ k, n < 32 → s.message c .req n = some ⟨src, .compile k, run⟩ → s.inTurn c .req n = true → exec (.engineCommand c n) s =
      .next ((s.take c .req n).modTile c fun t => { t with requests := t.requests.map fun x => if x.1 = k then (k, true) else x })) ∧
    (∀ f ctx, s.message c .page n = some ⟨src, .fill f, run⟩ → s.inTurn c .page n = true → s.holder c = some (ctx, x) →
      exec (.engineCommand c (n + 32)) s = .next (s.startFill ctx c n f)) ∧
    (s.working c u q = some e →
      (∀ va pitch slot count near, e.op = .tiles va pitch slot count near → e.filling = false →
        ((List.range count).all fun j => ((s.core c).tile.slot (slot + j)).writable) = true →
        exec (.haultSlotWrite c u q) s = .next ((s.modQueue c u q fun y => { y with
          entries := setAt 0 (fun e => { e with filling := true }) y.entries }).modTile c fun t =>
            (List.range count).foldl (fun t j => t.beginWrite (slot + j)) t)) ∧
      (e.op.blocks[p]? = some b → e.op.moves = true → ((∃ va pitch slot count near, e.op = .tiles va pitch slot count near) → e.filling = true) →
        ((e.piece p).state = .untranslated → ((s.context (s.queueCtx c u)).map (·.issues)) = some true →
          s.unreachable c u e = false →
          (∀ place t, s.translate c (s.queueCtx c u) (e.op.firstVa b) (if e.op.stows then 1 else 0) q (.piece c u q p e.seq) =
              (some (.hbm place), t) →
            exec (.enginePiecePerformed c u q p) s = .next (t.modPiece c u q p fun y => { y with
              state := .ready, place := some (Place.block (.hbm place) (e.op.firstVa b)) })) ∧
          (∀ t, s.translate c (s.queueCtx c u) (e.op.firstVa b) (if e.op.stows then 1 else 0) q (.piece c u q p e.seq) = (none, t) →
            exec (.enginePiecePerformed c u q p) s = .next (t.modPiece c u q p id))) ∧
        (∀ pa home pages, (e.piece p).state = .ready → (e.piece p).place = some (.hbm pa) →
          s.piecePages c u e.op b = some (home, pages) → s.pages home (s.queueCtx c u) pages (some (.queue c u q)) = .ready →
          (∀ l ∈ e.op.lines b, SMap.find (e.piece p).lines (l % 64) = some .done) →
          exec (.enginePiecePerformed c u q p) s = .next
            ((if e.op.stows then s else s.landPiece c u e b (e.piece p).data).performPiece c u q p))) ∧
      (∀ a, (e.piece p).place = some (.host a) → (e.piece p).sent = true → e.op.stows = true → (e.piece p).state = .ready →
        s.routeUp (dieOf c) 0 = true → exec (.hostWriteCompletion c u q p) s = .next (s.performPiece c u q p))) ∧
    (s.unit c u = some r → r.ctl.waiting = (lead, t) :: more → s.context r.info.ctx = some x → r.ctl.trap = none → x.issues = true →
      (r.lanes.live = 0 → (r.lead.map (!·.ended)).getD false = false →
        s.pages c r.info.ctx (spillPages x.record.tsa u false (firstLanes r.info.width)) none = .ready →
        exec (.engineTrapDelivery c u) s = .next ((s.modCtl c u fun k => { k with waiting := more }).vectorLanes c u 0
          (firstLanes r.info.width) 0xFFFFFFFF (Front.at 0xFFFFFFFF) true { t with mask := 0 })) ∧
      (∀ toLead, toLead = ((r.lead.map (!·.ended)).getD false && (lead || r.lanes.live == 0)) → (toLead || r.lanes.live != 0) = true →
        exec (.engineTrapDelivery c u) s = .next (s.modCtl c u fun k => { k with waiting := (toLead, t) :: more })))

/-- R268, R271 to R281, R291 to R296: TFILL and TDRAIN copy their rows and free their slots; the engine starts the next accepted step, and completes
it by adding its product to its accumulator; two armed SPLICEs pair, and each slot takes the other's bytes; the fid starts the
next identity, and its record becomes valid, once the store has room, or refused. -/
def Obligations.TileEvents : Prop :=
  ∀ (s : State) (c n d k src slot home off : Nat) (run : Option Nat) (x : TileCmd) (g : Agent) (y z : Splice) (bytes : List Byte)
    (m : MatrixStep) (rest : List MatrixStep) (r : Resident) (a b : Reservation),
    ((s.core c).tile.cmds[n]? = some x → x.commanded = true → s.tileReady c x = .ok (home, off, g) →
      (x.fill = true → exec (.tfillComplete c n) s = .next (State.endTileCmd ((x.rows off).foldl (fun s r =>
        (s.engineLoad g c home r.1 128).2.modTile c fun t => { t with
          opmem := Memory.writeBytes t.opmem r.2 (s.engineLoad g c home r.1 128).1 }) s) g c n x)) ∧
      (x.fill = false → exec (.tdrainComplete c n) s = .next (State.endTileCmd ((x.rows off).foldl (fun s r =>
        s.engineStore g c home r.1 (Memory.readBytes (s.core c).tile.opmem r.2 128) 4) s) g c n x))) ∧
    ((s.core c).tile.steps = m :: rest →
      (m.commanded = true → m.started = false → exec (.matrixStepStart c) s =
        .next (s.modTile c fun t => { t with steps := { m with started := true } :: rest })) ∧
      (m.started = true → s.unit c m.unit = some r → r.reservation m.aslot = some a → r.reservation m.bslot = some b →
        exec (.matrixStepComplete c) s = .next (s.modTile c fun t => { (StepDesc.slots ⟨m.aslot, m.bslot, m.aoff, m.boff, m.k⟩).foldl
          (fun t k => t.modSlot k fun y => { y with readers := y.readers - 1 }) t with
            steps := rest, acc := (Operand.mk (s.core c).tile a b m).apply }))) ∧
    ((s.core c).tile.splices[n]? = some y → y.paired = false → s.splicePartner c y = some (d, k, z) → s.room c d .req = true →
      s.room d c .req = true →
      (let pair (s : State) (c n : Nat) : State :=
        s.modTile c fun t => { t with splices := setAt n (fun y => { y with paired := true }) t.splices }
       let t := pair (pair s c n) d k
       let v := t.send c d .req (.splice z.slot ((t.core c).tile.bytes y.slot 0 8192))
       exec (.splicePairing c n) s = .next (v.send d c .req (.splice y.slot ((v.core d).tile.bytes z.slot 0 8192))))) ∧
    (s.message c .req n = some ⟨src, .splice slot bytes, run⟩ →
      (((s.take c .req n).core c).tile.splices.any fun y => y.paired && y.slot == slot) = true → exec (.spliceExchangeComplete c n) s =
      .next ((s.take c .req n).modTile c fun t => { (t.putBytes slot 0 bytes).endWrite slot with
        splices := ((t.putBytes slot 0 bytes).endWrite slot).splices.filter fun y => !(y.paired && y.slot == slot) })) ∧
    ((s.core c).tile.compiling = false → (s.core c).tile.requests.head? = some (k, true) → exec (.fidCompileStart c) s =
      .next (s.modTile c fun t => { t with compiling := true })) ∧
    (∀ f v ops columns, ∀ more : List (Nat × Bool), ∀ asked : Bool, (s.core c).tile.requests = (k, asked) :: more → (s.core c).tile.compiling = true →
      SMap.find (s.core c).tile.fid k = some f → f.state = .compiling → (s.core c).reservation k = some v →
      (s.core c).tile.pack v (k - v.first) = (ops, columns) →
      (3 * fmtRow v.fmt < 4 * ops.length → exec (.fidCompileComplete c) s = .next (s.modTile c fun t => { t with
        fid := SMap.put t.fid k { f with state := .refused, nops := ops.length, columns := columns }
        requests := more, compiling := false })) ∧
      (∀ t, 4 * ops.length ≤ 3 * fmtRow v.fmt → (s.core c).tile.makeRoom (ops.length + 1) 65 = some t →
        exec (.fidCompileComplete c) s = .next (s.modCore c fun j => { j with order := j.order + 1, tile := { t with
          fid := SMap.put t.fid k { f with
            state := .valid, nops := ops.length, columns := columns, prog := ops, made := j.order + 1, used := j.order + 1 }
          requests := more, compiling := false } })))

/-- R318 to R330: the dispatcher starts one run a cycle in the lowest free context of its bank, high priority first; a run whose HDONE
has issued releases its messages in order; a run at its budget is aborted at its next unit, and one past its masked window traps; a post is accepted by
an empty mailbox, else refused, and is sent again; a weight is added to its generator's word. -/
def Obligations.HandlerEvents : Prop :=
  ∀ (s : State) (c n k src m ctx : Nat) (run : Option Nat) (x : Context) (r : Run) (a : Asker) (v : Dword) (o : OutMsg),
    (s.holder c = some (ctx, x) → x.issues = true →
      (∀ j home y, s.strayRay c x = some (j, home, y) → (s.take c .ray j).outRoom c home .ray = false) → (s.core c).handlers.dispatched ≠ (s.core c).cycle + 1 →
      (∀ t, s.dispatchIn c ctx x true = some t → exec (.handlerDispatch c) s = .next t) ∧
      (∀ t, s.dispatchIn c ctx x true = none → s.dispatchIn c ctx x false = some t → exec (.handlerDispatch c) s = .next t)) ∧
    (∀ j home hid from' payload, s.holder c = some (ctx, x) → x.issues = true →
      s.strayRay c x = some (j, home, .dirRay hid from' payload) →
      (s.take c .ray j).outRoom c home .ray = true →
      exec (.handlerDispatch c) s = .next (((s.take c .ray j).modRay c fun r => { r with
        owners := r.owners.filter (·.1 ≠ rayTarget payload) }).release c home .ray (.dirRay hid from' payload))) ∧
    ((s.releasePending c 16).run c k = some r → r.done = true → exec (.hdoneRelease c k) s =
      .next ((s.releasePending c 16).releaseBuffer c k 17)) ∧
    (∀ i, s.run c k = some r → s.issue (.run c k) = some i → r.budget ≤ r.count → exec (.budget c k) s =
      .next (s.takeTrap i ⟨Cause.budget, 0, 0, 0⟩)) ∧
    (∀ i, s.issue (.run c k) = some i → s.maskExceeded i = true → i.front.hints.count = 0 → exec (.maskWindow c k) s =
      .next (s.takeTrap i ⟨Cause.maskWindow, 0, 0, 256⟩)) ∧
    (s.message c .ctl n = some ⟨src, .post m v a, run⟩ → s.inTurn c .ctl n = true → s.replyRoom c src = true →
      (((s.core c).handlers.mailbox m).present = true → exec (.mailboxPost c n) s =
        .next ((s.take c .ctl n).reply c src (.postAnswer false m v a))) ∧
      (((s.core c).handlers.mailbox m).present = false → exec (.mailboxPost c n) s =
        .next ((((s.take c .ctl n).modHandlers c fun h => { h with mailboxes := SMap.put h.mailboxes m ⟨true, v⟩ }).performed a 0).reply c
          src (.postAnswer true m v a)))) ∧
    ((s.core c).handlers.posts[n]? = some (o, true) → o.msg = .post m v a →
      HandlerPart.posting { (s.core c).handlers with posts := (s.core c).handlers.posts.take n } o.dst m = false →
      s.outRoom c o.dst o.cls = true → exec (.mailboxResend c n) s =
        .next ((s.modHandlers c fun h => { h with posts := setAt n (fun p => (p.1, false)) h.posts }).release c o.dst o.cls o.msg)) ∧
    (∀ off, s.message c .req n = some ⟨src, .weight off v a, run⟩ → s.inTurn c .req n = true → s.replyRoom c a.core = true →
      s.pages c a.agent.ctx [off] (some a.waiter) = .ready →
      (let t := (s.take c .req n).storeAt a.agent c off (bytesOfNat (natOfBytes (s.localBytes c a.agent.ctx off 8) + v.toNat) 8)
        (s.core a.core).cluster.clock
       let time := ((t.core c).cluster.home (off / 64)).wts
       exec (.weightReturn c n) s = .next ((t.performed a time).reply c a.core (.ack time [] a))))

/-- R344 to R352, R445 to R448: what a home of the directory does: a ray to a treelet without an entry makes one and searches for a frame, a
ray to a paging or evicting entry is parked, and one to a held entry goes on to the next owner; the parked rays of an entry that has an owner go to the owners in turn, each once RAY has room; a lookup is
answered; a core asked for a frame grants a free one, evicts one that it may take, or grants none; the home then commands the fill or
asks on, and an answer to a search that has ended comes to nothing; TPIN is decided, and restarts the counter where it makes a copy; a search without a victim is repeated; arrival counters of past windows stand at 0. -/
def Obligations.DirectoryEvents : Prop :=
  ∀ (s : State) (c n ctx tid hid src d f : Nat) (run : Option Nat) (x : Context) (from' : BitVec 16) (payload : List Dword)
    (e : DirEntry) (a : Asker),
    s.holder c = some (ctx, x) →
    (let r := (s.core c).ray
     let park (t : State) : State :=
      (t.modEntry x tid fun e => { e with parked := e.parked ++ [(hid, from', payload)] }).countArrival x tid
     s.message c .ray n = some ⟨src, .dirRay hid from' payload, run⟩ → rayTarget payload = tid → x.treeletHome tid = c →
     x.issues = true →
     (∀ m ∈ ((s.core c).inbox .ray).take n, ∀ h b q, m.msg = .dirRay h b q → r.holdsBack (rayTarget q) = true) →
      (SMap.find r.entries tid = none → 512 ≤ r.entries.length → exec (.directoryRay c n) s = .next (s.makePlace x c)) ∧
      (SMap.find r.entries tid = none → r.entries.length < 512 → r.parked < 512 → exec (.directoryRay c n) s =
        .next ((park ((s.take c .ray n).newEntry c tid)).search x tid)) ∧
      (SMap.find r.entries tid = some e → e.held = false → e.parked.length < 64 → r.parked < 512 →
        exec (.directoryRay c n) s = .next (park (s.take c .ray n))) ∧
      (SMap.find r.entries tid = some e → e.held = true →
        exec (.directoryRay c n) s = .next (((s.take c .ray n).forward x tid hid from' payload).countArrival x tid))) ∧
    ((s.core c).ray.forwards.find? (fun y => y.1 = tid) = some (tid, (d, f), hid, from', payload) → x.treeletHome tid = c →
      s.outRoom c d .ray = true → exec (.parkedRayRelease c tid) s =
        .next ((s.modRay c fun r => { r with forwards := dropFirst (fun y => y.1 == tid) r.forwards }).forwardTo x tid (d, f) hid from'
          payload)) ∧
    (∀ asker, s.message c .ctl n = some ⟨src, .lookup tid asker, run⟩ → s.inTurn c .ctl n = true →
      (let owner := (s.take c .ctl n).nextOwner x tid
       let t := if owner.isSome then (s.take c .ctl n).modEntry x tid fun e => (e.takeOwner).2 else s.take c .ctl n
       exec (.treeletLookup c n) s = .next ((t.countArrival x tid).release c asker .ctl (.lookupReply tid owner)))) ∧
    (∀ home ticket, ∀ evict copy : Bool, s.message c .ctl n = some ⟨src, .frameRequest tid home evict copy ticket, run⟩ →
      s.inTurn c .ctl n = true →
      (let t := s.take c .ctl n
       let free := (List.range 16).find? fun f => (t.core c).ray.hasFrame f && (SMap.find (t.core c).ray.frames f).isNone
       let none' : State := t.release c home .ctl (.frameGrant tid c none ticket)
       (copy = true → (t.core c).ray.touches tid = true → exec (.frameRequest c n) s = .next none') ∧
       (copy = false ∨ (t.core c).ray.touches tid = false →
       (free = some f → exec (.frameRequest c n) s = .next (t.grantFrame x c f tid copy ticket)) ∧
       (free = none → evict = true → t.takableFrame x c tid = some f → exec (.frameRequest c n) s =
        .next (t.beginEvict x c f (some (tid, copy, ticket)))) ∧
       (free = none → evict = false ∨ t.takableFrame x c tid = none → exec (.frameRequest c n) s = .next none')))) ∧
    (∀ ticket frame, s.message c .ctl n = some ⟨src, .frameGrant tid d frame ticket, run⟩ → s.inTurn c .ctl n = true →
      (let entry := SMap.find ((s.take c .ctl n).core c).ray.entries tid
       (∀ j, frame = none → entry = some e → e.ticket = ticket → e.asking = some j →
        exec (.frameGrant c n) s = .next ((s.take c .ctl n).askFrom x tid (j + 1))) ∧
       (frame = some f → entry = some e → e.ticket = ticket →
        (let t := (s.take c .ctl n).modEntry x tid fun e => { e with asking := none, taking := false }
         exec (.frameGrant c n) s = .next (if 4 ≤ e.owners.length + t.fillsOf x tid then
            (t.dropTFrame d f).modEntry x tid fun e => { e with copying := false }
          else t.commandFill c d f))) ∧
       ((∀ y, entry = some y → y.ticket ≠ ticket) → exec (.frameGrant c n) s = .next (match frame with
        | some f => (s.take c .ctl n).dropTFrame d f
        | none => s.take c .ctl n)))) ∧
    (SMap.find (s.core c).ray.entries tid = some e → x.treeletHome tid = c → e.state = .paging → e.asking = none →
      (∀ k ∈ x.cores, ∀ y ∈ (s.core k).ray.frames, ¬ (y.2.tid = tid ∧ y.2.use = .filling) ∧ (y.2.taker.map (·.1)) ≠ some tid) →
      exec (.victimRetry c tid) s = .next (s.search x tid)) ∧
    (s.message c .ctl n = some ⟨src, .pinRequest tid d f a, run⟩ → s.inTurn c .ctl n = true →
      (SMap.find (s.core c).ray.entries tid = none → (s.core c).ray.entries.length < 512 → exec (.tpinRequest c n) s =
        .next (((s.take c .ctl n).newEntry c tid).commandFill c d f)) ∧
      (SMap.find (s.core c).ray.entries tid = some e → exec (.tpinRequest c n) s =
        .next (if 4 ≤ e.owners.length + (s.take c .ctl n).fillsOf x tid then
            ((s.take c .ctl n).dropTFrame d f).answer a 3
          else ((s.take c .ctl n).restartCounter x tid).commandFill c d f))) ∧
    exec (.arrivalWindowRestart c) s = .next (s.modRay c fun r => { r with entries := r.entries.map fun y =>
      (y.1, if y.2.state == .paging || y.2.counted / 2 ^ r.rwin = (s.core c).cycle / 2 ^ r.rwin then y.2
        else { y.2 with arrivals := 0, counted := (s.core c).cycle }) })

/-- R347, R353 to R355, R364 to R366, R447: a core's side of the directory: replies and updates fill its owner cache; a fill writes
its pages as they come, and with the last its owner is recorded, and one that has failed is given up; from the home's message on the frame holds its
treelet; a frame being evicted is freed once no live run uses it, and the home is told; a
home's message begins an eviction, and a core's tells the home that an owner leaves, or has left; rays go to the ring and come back from it in order. -/
def Obligations.FrameEvents : Prop :=
  ∀ (s : State) (c n ctx tid src d f cause : Nat) (run : Option Nat) (x : Context) (t : TFrame) (e : DirEntry),
    s.holder c = some (ctx, x) →
    (s.inTurn c .ctl n = true →
      (∀ owner, s.message c .ctl n = some ⟨src, .lookupReply tid owner, run⟩ → exec (.lookupReply c n) s =
        .next ((s.take c .ctl n).modRay c fun r => match owner with
          | some o => RayPart.cacheOwner { r with lookups := r.lookups.filter (· ≠ tid) } tid o.1 o.2
          | none => { r with lookups := r.lookups.filter (· ≠ tid) })) ∧
      (s.message c .ctl n = some ⟨src, .ownerUpdate tid d f, run⟩ → exec (.ownerUpdate c n) s =
        .next ((s.take c .ctl n).modRay c fun r => r.cacheOwner tid d f)) ∧
      (s.message c .ctl n = some ⟨src, .frameHolds tid f, run⟩ → SMap.find ((s.take c .ctl n).core c).ray.frames f = some t →
        t.tid = tid → t.use = .filled →
        (let v := (s.take c .ctl n).modTFrame c f fun t => { t with use := .resident, forPin := none }
         let w := match t.forPin with
          | some a => v.answer a 0
          | none => v
         exec (.frameHoldsTreelet c n) s = .next (if t.evictors = [] then w else w.beginEvict x c f none)))) ∧
    (SMap.find (s.core c).ray.frames f = some t →
      (let paging := ((SMap.find (s.core (x.treeletHome t.tid)).ray.entries t.tid).map (·.state == .paging)).getD false
       let w := (List.range 16).foldl (fun (s : State) p => s.landTreelet ctx c f p) s
       t.use = .filling → t.held = true → t.refused = none →
        s.pages c ctx (((s.core c).ray.framePages f).map (4096 * ·)) none = .ready →
        ∀ y, SMap.find (w.core c).ray.frames f = some y →
        (let next : State := if y.full = true then w.finishFill x c f y else w
         (paging = true → exec (.treeletFillComplete c f) s = .next next) ∧
         (paging = false → exec (.treeletCopyComplete c f) s = .next next))) ∧
      (t.use = .filling → t.held = true → t.refused = some cause ∨
          (t.refused = none ∧ (t.pages.any fun p => s.pagePoisoned p.2) = true ∧ cause = Cause.eccUncorr) →
        SMap.find ((s.fillGone ctx c f t).core (x.treeletHome t.tid)).ray.entries t.tid = some e →
        (e.state = .paging ∧ e.asking = none ∧ (s.fillGone ctx c f t).fillsOf x t.tid = 0 → exec (.treeletFillFailed c f) s =
          .next (((s.fillGone ctx c f t).modRay (x.treeletHome t.tid) fun r => { r with entries := SMap.drop r.entries t.tid }).faultReport
            ctx c [BitVec.ofNat 64 (cause + 2 * 65536), BitVec.ofNat 64 (t.tid % 2 ^ 30), BitVec.ofNat 64 e.parked.length])) ∧
        (¬ (e.state = .paging ∧ e.asking = none ∧ (s.fillGone ctx c f t).fillsOf x t.tid = 0) → exec (.treeletFillFailed c f) s =
          .next ((s.fillGone ctx c f t).modEntry x t.tid fun e => { e with copying := if t.copy then false else e.copying }))) ∧
      (f < 16 → t.use = .evicting → (s.core c).handlers.rayLive t.tid = false →
        (let u := (s.modCore c fun k => k.unpinTFrame ctx f).modRay c fun r => { r with frames := SMap.drop r.frames f }
         let w := t.evictors.foldl (fun s a => s.answer a 0) (u.release c (x.treeletHome t.tid) .ctl (.evicted t.tid c f))
         exec (.treeletEviction c f) s = .next (match t.taker with
          | some y => w.grantFrame x c f y.1 y.2.1 y.2.2
          | none => w)))) ∧
    (s.inTurn c .ctl n = true →
      (let u := s.take c .ctl n
       (s.message c .ctl n = some ⟨src, .evict tid f, run⟩ → SMap.find (u.core c).ray.frames f = some t → t.tid = tid → t.use = .resident →
        exec (.treeletEviction c (n + 16)) s = .next (u.modTFrame c f fun t => { t with use := .evicting })) ∧
       (s.message c .ctl n = some ⟨src, .evicting tid d f, run⟩ → exec (.treeletEviction c (n + 16)) s =
        .next (u.modEntry x tid fun e => if e.owners.contains (d, f) then
          { e with state := .evicting, leaving := (d, f) :: e.leaving.filter (· != (d, f)) } else e)) ∧
       (s.message c .ctl n = some ⟨src, .evicted tid d f, run⟩ →
        exec (.treeletEviction c (n + 16)) s = .next (u.dropOwner x tid d f)))) ∧
    (∀ j p, (s.flow src c .ray).packets.findIdx? (fun p => p.seq == (s.flow src c .ray).expected && (p.state == .flying || p.state == .early)) =
        some j → j < 4 → (s.flow src c .ray).packets[j]? = some p →
      (let r := (s.core c).ray
       let at' := 4096 * r.spb + 128 * ((r.spillHead + r.spill.length) % 2 ^ r.spl)
       let bytes := spillBytes (x.relative c) p.msg
       let stored := (s.storeAt ⟨ctx, 0⟩ c at' (bytes.take 64) (s.core c).cluster.clock).storeAt ⟨ctx, 0⟩ c (at' + 64) (bytes.drop 64)
        (s.core c).cluster.clock
       s.routeUp (dieOf src) (dieOf c) = true → r.spl ≠ 0 → r.spill.length < 2 ^ r.spl → (msgDepth .ray ≤ ((s.core c).inbox .ray).length ∨ r.spill ≠ []) →
       s.pages c ctx [at'] none = .ready →
       exec (.raySpill src c) s = .next (((stored.setFlow src c .ray { s.flow src c .ray with
          packets := setAt j (fun p => { p with state := .delivered }) (s.flow src c .ray).packets
          expected := ((s.flow src c .ray).expected + 1) % 64 }).modRay c fun r => { r with spill := r.spill ++ [⟨src, p.msg, none⟩] }).follow c src))) ∧
    (∀ m more, (s.core c).ray.spill = m :: more → ((s.core c).inbox .ray).length < msgDepth .ray → exec (.spillRingFeed c) s =
      .next (s.modCore c fun k => { k.setInbox .ray (k.inbox .ray ++ [m]) with
        ray := { k.ray with spill := more, spillHead := (k.ray.spillHead + 1) % 2 ^ k.ray.spl } }))

/-- R154, R155, R410 to R413, R416, R426: packets of the mesh: the next expected of a flow enters its inbox and those that waited for it
follow, a later one waits in the reorder store, or is refused when that holds eight; an acknowledgement frees the oldest, a refused
packet is sent again, one 512 cycles old has slack 0; the oldest entry of an outbound neighbour queue crosses its wire, or is discarded when its
receiver has ended. -/
def Obligations.PacketEvents : Prop :=
  ∀ (s : State) (src dst seq j c u q d v k : Nat) (cls : MsgClass) (p : Packet) (rest : List Packet) (r w : Resident) (x y : QueueReg)
    (e : List Word) (more : List (List Word)),
    (let f := s.flow src dst cls
     (f.packets.findIdx? (·.seq == seq) = some j → f.packets[j]? = some p → j < 4 → s.routeUp (dieOf src) (dieOf dst) = true →
      (p.state = .flying ∨ p.state = .early → seq = f.expected → s.enters dst cls p.msg = true → exec (.packetArrival src dst cls seq) s =
        .next ((s.setFlow src dst cls { f with packets := setAt j (fun p => { p with state := .early }) f.packets }).placeInOrder
          src dst cls j 4)) ∧
      (p.state = .flying → seq ≠ f.expected → exec (.packetArrival src dst cls seq) s = .next (s.setFlow src dst cls { f with
        packets := setAt j (fun p => { p with state := if s.reordered dst cls < 8 then .early else .refused }) f.packets }))) ∧
     (f.packets = p :: rest →
      (p.state = .refused → exec (.packetRefusal src dst cls) s = .next (s.setFlow src dst cls { f with
        packets := { p with state := .flying } :: rest })) ∧
      (p.state = .delivered → exec (.flowAcknowledgement src dst cls) s = .next (s.setFlow src dst cls { f with packets := rest }))) ∧
     ((f.packets.any fun p => p.seq == seq && p.slack != 0 && decide (p.born + 512 ≤ (s.core src).cycle)) = true → exec (.slackPromotion src dst cls seq) s =
      .next (s.setFlow src dst cls { f with packets := f.packets.map fun p => if p.seq = seq then { p with slack := 0 } else p }))) ∧
    (s.unit c u = some r → r.queues[q]? = some x → x.entries = e :: more → 4 ≤ x.ep → x.ep % 2 = 0 →
      (let sent := s.modQueueReg c u q fun x => { x with entries := more }
       (s.readerEnded c r x = true → exec (.nnLinkDelivery c u q) s = .next sent) ∧
       (s.readerEnded c r x = false → s.wireUp c x.ep = true → s.peer c x = some (d, v, k) → s.unit d v = some w → w.queues[k]? = some y →
        y.entries.length + y.kept < 8 → exec (.nnLinkDelivery c u q) s =
          .next ((sent.modQueueReg d v k fun y => { y with entries := y.entries ++ [e] }).follow d c))))

/-- R246, R381, R415, R416, R418, R419, R421, R424: a link trains, errs, retrains and fails, each change told to the host; a failed die edge
loses what it may hold, and the launches that cross it are told; FPCTL.EN takes effect; a fabric packet that is the next expected is
performed and its reply kept, and a duplicate is answered with the reply that is kept; an acknowledgement frees every packet up to it, one is returned, and unacknowledged packets whose ports have
all failed make their package unreachable at the eighth expiry in a row. -/
def Obligations.LinkEvents : Prop :=
  ∀ (s : State) (l p pkg seq j : Nat) (en : Bool) (op : FabricOp),
    (l < 72 →
      (s.edge l = .training → exec (.linkTrained l) s = .next (s.setLink l .up)) ∧
      (s.edge l = .retraining → exec (.linkRetrained l) s = .next (s.setLink l .up)) ∧
      (s.edge l = .up → exec (.linkError l) s = .next (s.setLink l .retraining)) ∧
      (s.edge l = .training ∨ s.edge l = .retraining → exec (.linkFailureTimeout l) s =
        .next (((((s.setLink l .failed).loseFlows l).losePieces l).losePages l).linkDown l))) ∧
    (let q := s.port p
     let told (x : Port) : State := (s.modLink fun k => { k with ports := SMap.put k.ports p x }).hostEvent 1
     (q.state = .training → exec (.linkTrained (72 + p)) s = .next (told { q with state := .up })) ∧
     (q.state = .retraining → exec (.linkRetrained (72 + p)) s = .next (told { q with state := .up })) ∧
     (q.state = .up → ∃ t, exec (.linkError (72 + p)) s = .next t ∧
      t.port p = { q with state := .retraining, retrainings := q.retrainings + 1 }) ∧
     (q.state = .training ∨ q.state = .retraining → exec (.linkFailureTimeout (72 + p)) s = .next (told { q with state := .failed })) ∧
     (q.en = en → q.written = true →
      (let state : LinkState := if en then (if q.state = .disabled then .training else q.state)
        else if q.state = .up ∨ q.state = .failed then .disabled else q.state
       (state ≠ q.state → exec (.fpctlWrite p en) s = .next (told { q with written := false, state := state })) ∧
       (state = q.state → exec (.fpctlWrite p en) s =
        .next (s.modLink fun k => { k with ports := SMap.put k.ports p { q with written := false } }))))) ∧
    ((∃ n < 64, s.portUp n = true) → pkg ≠ ownPackage → (s.fabricFlow pkg).duplicate seq = true →
      exec (.fabricPacket pkg seq op) s = .next (s.setFabric pkg { s.fabricFlow pkg with
        answer := some (seq, (SMap.find (s.fabricFlow pkg).replies seq).getD []) })) ∧
    (seq = (s.fabricFlow pkg).nextExpected → (∃ n < 64, s.portUp n = true) → s.fabricReady op = true → pkg ≠ ownPackage →
      (let t := (s.performFabric op).2
       let f := t.fabricFlow pkg
       exec (.fabricPacket pkg seq op) s = .next (t.setFabric pkg { f with
        nextExpected := (seq + 1) % 2 ^ 24
        answer := some (seq, (s.performFabric op).1)
        replies := SMap.drop (SMap.put f.replies seq (s.performFabric op).1) ((seq + 2 ^ 24 - 256) % 2 ^ 24) }))) ∧
    (let f := s.fabricFlow pkg
     ((f.replay.take 256).findIdx? (·.1 == seq) = some j → s.reachable pkg = true → exec (.fabricAcknowledgement pkg seq) s =
      .next ((f.replay.take (j + 1)).foldl (fun t x => t.fabricDone pkg x.2)
        (s.setFabric pkg { f with replay := f.replay.drop (j + 1), expiries := 0 }))) ∧
     (f.acked ≠ f.nextExpected → exec (.fabricAckTimer pkg) s = .next (s.setFabric pkg { f with acked := f.nextExpected })) ∧
     (f.replay ≠ [] →
      (s.portsFailed pkg = false → exec (.fabricResendTimeout pkg) s = .next (s.setFabric pkg { f with expiries := 0 })) ∧
      (s.portsFailed pkg = true → exec (.fabricResendTimeout pkg) s = .next
        (if f.expiries = 7 then (s.setFabric pkg { f with expiries := 8 }).hostEvent 2
          else s.setFabric pkg { f with expiries := f.expiries + 1 }))))

/-- R424, R430 to R433, R436: host writes to registers have effect only in the phase that reaches them: windows before the lock, HAPBASE and
the nonce from phase 3 on; HEVT and HECC clear the ones written; HWLOCK locks and enters phase 3; FACCEPT keeps what is offered; FCOMMIT enters phase
4; ACMD starts a report, for the nonce as it then stands (DESIGN CHOICE, log entry 35), and the report is the body that is measured, the
signature, of free values, and zeros.
R230, R368, R422, R423, R429, R430, R432: a host access to BAR2 reads or writes a dispatch context's local space, in phase 4, once its page is there and
the way from die 0 is up (R19); elsewhere a read returns all ones; one to BAR4 reads or writes device memory above HAPBASE once the
slices of its lines answer. That an access is dropped, or reads all ones, where no dispatch context holds the core is the model's reading
(DEDUCED, log entry 78). -/
def Obligations.HostRegisters : Prop :=
  (∀ (s : State) (v : Dword) (k w : Nat),
    (let h := s.host
     let page : Dword := v &&& ~~~(0xFFF : Dword)
     (k < 8 → h.phase = 2 → h.hwlock = false →
      exec (.hostRegWrite (0x200 + 16 * k) v) s = .next (s.modHost fun h => { h with hwinBase := SMap.setWord h.hwinBase k page }) ∧
      exec (.hostRegWrite (0x208 + 16 * k) v) s = .next (s.modHost fun h => { h with hwinLim := SMap.setWord h.hwinLim k page })) ∧
     (k < 8 → h.phase ≠ 2 ∨ h.hwlock = true → ∃ t, exec (.hostRegWrite (0x200 + 16 * k) v) s = .next t ∧ t.host = h) ∧
     (h.phase = 3 ∨ h.phase = 4 →
      exec (.hostRegWrite 0x1000 v) s = .next (s.modHost fun h => { h with hapBase := v &&& 0xF000000000 }) ∧
      (k < 4 → exec (.hostRegWrite (0x300 + 8 * k) v) s = .next (s.modHost fun h => { h with anonce := SMap.setWord h.anonce k v })) ∧
      exec (.hevtWrite v) s = .next (s.modHost fun h => { h with hevt := h.hevt &&& ~~~(v &&& 7) }) ∧
      exec (.heccWrite v) s = .next (s.modHost fun h => { h with
        ce := h.ce &&& ~~~(v.setWidth 32), ue := h.ue &&& ~~~((v >>> 32).setWidth 32) }) ∧
      (v.getLsbD 0 = true → h.attesting = false → exec (.acmdWrite v) s =
        .next (s.modHost fun h => { h with attesting := true, nonce := h.anonce })) ∧
      (h.attesting = true → ∃ t, exec .attestationReportDone s = .next t ∧ t.host.attesting = false ∧ t.host.astat = true ∧
        t.host.msix = 0 :: h.msix ∧ t.host.report = some (h.wholeReport s.freeValue.1))) ∧
     (h.phase = 2 → v.getLsbD 0 = true → exec (.hwlockWrite v) s = .next (s.modHost fun h => { h with hwlock := true, phase := 3 })) ∧
     (h.phase = 3 →
      (w < 4 → exec (.facceptWrite w v) s = .next (s.modHost fun h => { h with
        facc := SMap.setWord h.facc w (v &&& if w = 0 then Config.features.setWidth 64 else 0) })) ∧
      (v.getLsbD 0 = true → exec (.fcommitWrite v) s = .next (s.modHost fun h => { h with msix := 0 :: h.msix, phase := 4 }))))) ∧
  (∀ (s : State) (addr size off ctx c a : Nat) (v : Dword) (bytes : List Byte),
    (s.dispatchWindow addr size = none →
      exec (.hostBar2Write addr size v) s = .next s ∧
      exec (.hostBar2Read addr size) s = .next (s.answerHost (List.replicate size 0xFF))) ∧
    (s.dispatchWindow addr size = some (ctx, c, a) → s.routeUp 0 (dieOf c) = true → s.pages c ctx [a] none = .ready →
      exec (.hostBar2Write addr size v) s = .next (s.storeLocal ⟨ctx, 0⟩ c a size v.toNat) ∧
      exec (.hostBar2Read addr size) s = .next ((s.loadLocal ⟨ctx, 0⟩ c a size).2.answerHost
        (bytesOfNat (s.loadLocal ⟨ctx, 0⟩ c a size).1 size))) ∧
    (let base := s.host.hapBase.toNat + off
     (s.apertureOpen off bytes.length = true → (linesOf base bytes.length).all (s.lineAnswers 0) = true → exec (.hostBar4Write off bytes) s =
      .next (s.checkedWrite base (bytes.take (hbmTop - base)))) ∧
     (s.apertureOpen off size = false → exec (.hostBar4Read off size) s = .next (s.answerHost (List.replicate size 0xFF))) ∧
     (s.apertureOpen off size = true → (linesOf base (min size (hbmTop - base))).all (s.lineAnswers 0) = true →
      exec (.hostBar4Read off size) s = .next ((s.apertureBytes base size).2.answerHost (s.apertureBytes base size).1))))

/-- R6, R424, R430, R431, R433: a host read of BAR0 answers all ones where the phase does not reach the register; HSTAT gives the
phase and the clock, and what a write has stored reads back. (That such a read is no step of the machine is the model's choice:
log entry 84.) -/
def Obligations.HostReads : Prop :=
  ∀ (s : State) (v : Dword) (addr k : Nat),
    (s.host.phase = 0 ∨ ((s.host.phase = 1 ∨ s.host.phase = 5) ∧ addr ≠ 0 ∧ addr ≠ 8) ∨
      (s.host.phase = 2 ∧ addr ≠ 0 ∧ addr ≠ 8 ∧ (addr < 0x200 ∨ 0x280 < addr)) →
      s.host.readRegister addr = some (BitVec.allOnes 64)) ∧
    (0 < s.host.phase → s.host.phase ≤ 5 → s.host.clk < 65536 → ∃ w, s.host.readRegister 8 = some w ∧
      w.toNat % 8 = s.host.phase ∧ w.toNat / 2 ^ 48 = s.host.clk ∧ (w.getLsbD 33 = s.host.tclamp)) ∧
    (k < 8 → s.host.phase = 2 → s.host.hwlock = false → ∃ t, exec (.hostRegWrite (0x200 + 16 * k) v) s = .next t ∧
      t.host.readRegister (0x200 + 16 * k) = some (v &&& ~~~(0xFFF : Dword))) ∧
    (s.host.phase = 3 ∨ s.host.phase = 4 → ∃ t, exec (.hevtWrite v) s = .next t ∧
      t.host.readRegister 0x1008 = some (s.host.hevt &&& ~~~(v &&& 7)) ∧ t.host.readRegister 0x320 = some 0)

/-- R415, R427, R428, R430, R434, R437: a released reset starts bring-up and the training of the die edges and ports; bring-up ends in phase 2, or failed in
phase 5; the refresh of a stack is taken over, caught up, and returned; alerts stop and resume activates; the clamps follow the sensed
power and temperature, and the clock steps within 700 to 1,400 MHz. That a clamp stands exactly while the last sense exceeds its limit is
the model's reading (DEDUCED, log entry 36). -/
def Obligations.PackageEvents : Prop :=
  ∀ (s : State) (k power celsius : Nat) (fail : BitVec 4),
    (∃ t, exec .packageReset s = .next t ∧ t.host.phase = 1 ∧ t.cores = [] ∧ t.contexts = [] ∧ (∀ l < 72, t.edge l = .training) ∧
      ∀ p < 64, (t.port p).state = .training) ∧
    (s.host.phase = 1 →
      exec (.bringUpDone 0) s = .next (s.modHost fun h => { h with phase := 2 }) ∧
      (fail ≠ 0 → fail.toNat ≤ 2 → exec (.bringUpDone fail) s =
        .next (s.modHost fun h => { h with msix := 0 :: h.msix, phase := 5, fail := fail.toNat }))) ∧
    (s.host.tko.getLsbD k = false → exec (.heartbeatTimeout k) s =
      .next (s.modHost fun h => { h with msix := 0 :: h.msix, tko := putBit h.tko k true, owed := putBit h.owed k true })) ∧
    (s.host.tko.getLsbD k = true →
      exec (.stackRefresh k) s = .next (s.modHost fun h => { h with owed := putBit h.owed k false }) ∧
      (s.host.owed.getLsbD k = false → exec (.heartbeatResumed k) s =
        .next (s.modHost fun h => { h with msix := 0 :: h.msix, tko := putBit h.tko k false }))) ∧
    exec (.neighbourRefreshAlert k) s = .next (s.modHost fun h => { h with alerts := putBit h.alerts k true }) ∧
    exec (.alertCleared k) s = .next (s.modHost fun h => { h with alerts := putBit h.alerts k false }) ∧
    (1 ≤ s.host.phase → s.host.phase ≤ 4 →
      (∃ t, exec (.powerSense power celsius) s = .next t ∧ t.host.pclamp = decide (3600000 < power) ∧ t.host.tclamp = decide (105 < celsius) ∧
        t.host.clk = if 3600000 < power ∨ 105 < celsius then max 700 (s.host.clk - 50) else s.host.clk) ∧
      (power < 3420000 → celsius < 100 → exec (.clockStepUp power celsius) s =
        .next (s.modHost fun h => { h with clk := min 1400 (h.clk + 50) })))

/-! ### The step, the encoding, and rules of the whole machine -/

/-- A step runs the decoded instruction (R23, R25, R40, R127, R368, R370, R377, R392, R430): the next turn of the agenda fetches the word
at its stream's place and executes it, or lets an agent act, or is a core's cycle, which lets its blocked streams ask for what they
wait for and chooses the streams that issue, in phase 4 only; an empty agenda takes the next turn that nature gives (log entry 1).
The word is the four bytes at the code address, once its translation is there: the launch's code base plus the offset, or TVB plus the
offset in a trap handler. That an event that is not well formed, may not run, or is an instruction word is skipped is the model's choice
(DESIGN CHOICE, log entry 12), and the order of what a core does in its cycle its reading (DEDUCED, log entry 80). -/
def Obligations.StepRunsDecoded : Prop :=
  ∀ (s u : State) (ref : StreamRef) (more : List Turn) (i : Issue) (w va pa : Nat) (x : Instr) (e : DecodeError) (c : Nat) (y : Context)
    (l : Launch),
    (s.agenda = .stream ref :: more → State.issue { s with agenda := more, stalled := false } ref = some i →
      State.fetchNext { s with agenda := more, stalled := false } i = .word w u →
      (decodeWord i.front.k w = .ok x → step s = exec x { u with cur := some ref }) ∧
      (decodeWord i.front.k w = .error e → step s =
        .next (runIllegal w (w / 2 ^ 26 == 0x3F || e == .reservedHint) (e == .unusedField) { u with cur := some ref }))) ∧
    (s.agenda = .event x :: more →
      (x.wellFormed = true → encode x = none → s.eventRuns x = true → step s = exec x { s with agenda := more }) ∧
      (x.wellFormed = false ∨ (encode x).isSome = true ∨ s.eventRuns x = false → step s = .next { s with agenda := more })) ∧
    (s.agenda = .cycle c :: more →
      (s.host.phase = 4 →
        (let begun := (State.modCore { s with agenda := more } c CoreState.begin).pushDue c
         let asked := ((begun.core c).streams c).foldl attempt begun
         step s = .next (asked.coreCycle (ready asked) (takesMailbox asked) c))) ∧
      (s.host.phase ≠ 4 → step s = .next { s with agenda := more })) ∧
    (s.agenda = .poll ref :: more → step s = .next (attempt { s with agenda := more } ref)) ∧
    (s.agenda = [] → step s = .next { s with tick := s.tick + 1, agenda := [(Config.nature s.tick).turn] }) ∧
    (s.codeAddress i = some va → s.isDispatchLead i = false ∨ i.handler = true →
      (s.core i.core).fetchRefused.find? (·.1 == i.ref) = none → (s.station (stationOf i.core)).hit i.ctx va 4 = some (.hbm pa) →
      (s.sliceOf pa).isSome = true → pa / 64 ∉ s.l2.poisoned →
      (let t := s.modStation (stationOf i.core) (·.touch i.ctx va 4)
       t.lineAnswers (dieOf i.core) (pa / 64) = true → s.fetchNext i = .word (t.deviceNat pa 4) (t.readThrough (pa / 64)))) ∧
    (s.context i.ctx = some y →
      (i.handler = true → s.codeAddress i = some (y.record.tvb + i.front.pc.toNat)) ∧
      (i.handler = false → s.isDispatchLead i = false → y.launch i.launch = some l →
        s.codeAddress i = some (l.record.code + i.front.pc.toNat)))

/-- Words that the spec writes out decode to the instructions for which it writes them (R23, R35, R42). -/
def Obligations.WrittenWords : Prop :=
  decodeWord 0 0x00108300 = .ok (.add 1 2 3 0) ∧ decodeWord 0 0x20104200 = .ok (.shi 1 1 0 16 0) ∧
  decodeWord 0 0x28404235 = .ok (.sel 4 1 2 0b10101) ∧ decodeWord 0 0x2C310540 = .ok (.icmpLt 3 4 5 0) ∧
  decodeWord 0 0x38404200 = .ok (.plopAnd 4 1 2 0) ∧ decodeWord 0 0x3C80C040 = .ok (.ballot 8 3 0) ∧
  decodeWord 0 0x40518700 = .ok (.fadd 5 6 7 0) ∧ decodeWord 0 0x403101E0 = .ok (.fabsn 3 4 1 0) ∧
  decodeWord 0 0x58A18080 = .ok (.confl 10 6 0) ∧ decodeWord 0 0x5C2040A0 = .ok (.fredadd 2 1 0) ∧
  decodeWord 0 0x70018000 = .ok (.jmp 6 0) ∧ decodeWord 0 0x70004380 = .ok (.loop 1 3 0) ∧
  decodeWord 0 0x738001C0 = .ok (.qmap 56 0 1 0) ∧ decodeWord 0 0x84218300 = .ok (.aadd 2 6 3 0) ∧
  decodeWord 0 0x88018020 = .ok (.watch 6 0) ∧ decodeWord 0 0x8C918300 = .ok (.cstr 9 6 3 0) ∧
  decodeWord 0 0x90210020 = .ok (.haul 2 4 1 0) ∧ decodeWord 0 0xB0211000 = .ok (.l2wb 2 4 0) ∧
  decodeWord 0 0xFC000001 = .ok (.ximmHint 1) ∧ decodeWord 0 0xFD802189 = .ok (.modHint 0 1 3 0 0 1 1)

/-- The decoder reads back what the encoder writes (R23 to R25, R35, R42): for every well-formed instruction word, with every operand at
every value, the encoding has 32 bits and decodes to it; of the CSAVE operations, which share a word, in a unit whose K names it
(R408), of every other word in every unit. -/
def Obligations.DecodeEncode : Prop :=
  ∀ (x : Instr) (w k : Nat), x.wellFormed = true → encode x = some w →
    w < 2 ^ 32 ∧ (k % 8 = selectorK x → decodeWord k w = .ok x) ∧ (w / 2 ^ 26 ≠ 0x2C ∨ w / 2 ^ 10 % 16 ≠ 10 → decodeWord k w = .ok x)

/-- The machine after reset holds the values that the reset columns give (R231, R233, R242, R270, R344, R369, R419, R424, R427, R430 to
R434), has no context, and its memories are in canonical form (log entries 4 and 5 say what they read). -/
def Obligations.ResetState : Prop :=
  (let h := State.reset.host
   h.phase = 0 ∧ h.fail = 0 ∧ h.tko = 0 ∧ h.pclamp = false ∧ h.tclamp = false ∧ h.clk = 1400 ∧ h.ce = 0 ∧ h.ue = 0 ∧ h.hwlock = false ∧
    h.hwCount = 0 ∧ h.hapBase = 0 ∧ h.hevt = 0 ∧ h.msix = [] ∧ h.alerts = 0 ∧
    ∀ w, SMap.word h.facc w = 0 ∧ SMap.word h.hwinBase w = 0 ∧ SMap.word h.hwinLim w = 0) ∧
  (∀ d, State.reset.domain d = if d = 0 then ⟨0, 2 ^ 40, 0, 9, true, 0x1FF000, BitVec.allOnes 512⟩ else ⟨0, 0, 0, 0, false, 0, 0⟩) ∧
  State.reset.l2.stat = 0 ∧ State.reset.l2.commit = none ∧ (∀ k, SMap.find State.reset.l2.lines k = none) ∧
  (∀ p, State.reset.port p = ⟨true, false, .reset, 0⟩) ∧ (∀ l, State.reset.edge l = .reset) ∧ State.reset.contexts = [] ∧
  (∀ c, State.reset.core c = CoreState.reset ∧ (State.reset.core c).dqReg 0 = 0 ∧ (State.reset.core c).dqReg 1 = 12 ∧
    (State.reset.core c).dqReg 2 = 0 ∧ (∀ k, ((State.reset.core c).tile.slot k).state = .free) ∧
    (∀ q < 4, State.reset.queue c 16 q = EngineQueue.idle) ∧ (∀ m, ((State.reset.core c).handlers.mailbox m).present = false) ∧
    (∀ n, ((State.reset.core c).handlers.binding n).state = .unbound) ∧ Memory.wf (State.reset.core c).store = true) ∧
  Memory.wf State.reset.hbm = true

/-- R28, R29: an instruction word whose guard, in GD or in a GUARD hint, holds in no lane only goes by, whatever the instruction; SEL alone
is never guarded (R27). R42: an instruction with one result traps ILLEGAL where its code may not issue it. -/
def Obligations.GuardedOff : Prop :=
  (∀ (x : Instr) (w : Nat) (s : State) (j : Issue), encode x = some w → w / 2 ^ 26 ≠ 0x3F → (∀ d a b q, x ≠ .sel d a b q) →
    Reaches {} (BitVec.ofNat 5 w) s j → s.activeLanes {} (BitVec.ofNat 5 w) j = 0 →
    exec x s = .next ((s.awake.countMasked j).finish j)) ∧
  (∀ (x : Instr) (r : ResultSpec) (s : State) (j : Issue), pureResult x = some r → Reaches r.attr r.guard s j →
    s.activeLanes r.attr r.guard j ≠ 0 → r.attr.legalIn j.kind = false →
    exec x s = .next (s.awake.takeTrap { j with active := s.activeLanes r.attr r.guard j } ⟨Cause.illegal, 0, 0, 0⟩))

/-- R43, in the order of R236 and R405 (log entry 45, DEDUCED): an instruction marked P, issued by code that is not privileged, has no effect
but a trap. A unit whose hints, fields, K and operand values are legal traps PRIV; one that its hints make ILLEGAL, and RTE outside a
trap handler (R398), trap ILLEGAL; every other traps PRIV or ILLEGAL. -/
def Obligations.PrivilegedTraps : Prop :=
  ∀ (x : Instr) (t : Attr) (g : GuardField) (s : State) (j : Issue), privileged x = some (t, g) → Reaches t g s j →
    s.activeLanes t g j ≠ 0 → t.legalIn j.kind = true → (t.noHandler && j.handler) = false → j.priv = false →
    let i : Issue := { j with active := s.activeLanes t g j }
    (t.acceptsHints i.front.hints = true → s.awake.legalFields i x → exec x s = .next (s.awake.takeTrap i ⟨Cause.priv, 0, 0, 0⟩)) ∧
    (t.acceptsHints i.front.hints = false → exec x s = .next (s.awake.takeTrap i ⟨Cause.illegal, 0, 0, 0⟩)) ∧
    (t.acceptsHints i.front.hints = true → x = .rte g → exec x s = .next (s.awake.takeTrap i ⟨Cause.illegal, 0, 0, 28⟩)) ∧
    ∃ r, exec x s = .next (s.awake.takeTrap i r) ∧ (r.cause = Cause.priv ∨ r.cause = Cause.illegal)

/-- R30, R32: a write to a register reads back, and changes no other register of the unit, or of the lead or run; gz and sz read zero and
discard what is written. -/
def Obligations.RegisterWrites : Prop :=
  ∀ (s : State) (i : Issue) (c : Cls) (f : RegField) (lane : Nat) (v : Dword) (r : Resident),
    (f = 60 → s.writeReg i c f lane v = s ∧ s.laneReg i r lane 60 = 0 ∧ s.scalarReg i 60 = 0) ∧
    (f.toNat < 56 → i.kind = .group → s.unit i.core i.unit = some r → r.fits → SMap.wf (s.core i.core).lrf = true → c ≠ .pair →
      (s.writeReg i c f lane v).laneReg i r lane f.toNat = v.setWidth 32 ∧
      ∀ l n, n < 56 → ¬ (l = lane ∧ n = f.toNat) → (s.writeReg i c f lane v).laneReg i r l n = s.laneReg i r l n) ∧
    (f.toNat < 55 → i.kind = .group → s.unit i.core i.unit = some r → r.fits → SMap.wf (s.core i.core).lrf = true →
      (s.writeReg i .pair f lane v).laneReg i r lane f.toNat = v.setWidth 32 ∧
      (s.writeReg i .pair f lane v).laneReg i r lane (f.toNat + 1) = (v >>> 32).setWidth 32 ∧
      ∀ l n, n < 56 → ¬ (l = lane ∧ (n = f.toNat ∨ n = f.toNat + 1)) → (s.writeReg i .pair f lane v).laneReg i r l n = s.laneReg i r l n) ∧
    (f.toNat < 56 → ((i.kind = .run ∧ (s.run i.core i.unit).isSome = true) ∨
        (i.kind = .lead ∧ ((s.unit i.core i.unit).bind (·.lead)).isSome = true)) → SMap.wf (s.scalar i).regs = true →
      (s.writeReg i c f lane v).scalarReg i f.toNat = (if c = .word then v &&& 0xFFFFFFFF else v) ∧
      ∀ n, n ≠ f.toNat → n < 56 → (s.writeReg i c f lane v).scalarReg i n = s.scalarReg i n)

/-- The frame of the instructions with one result (R98 to R121): besides its destination registers in its active lanes, its queues and its
stream's place and loops, an instruction that completes changes nothing: no byte of memory, no other unit, run, core or context, no lane
register of any unit, no other path, no predicate, MODE, trap register or accumulator of its own unit, lead or run. -/
def Obligations.ComputeFrame : Prop :=
  ∀ (x : Instr) (r : ResultSpec) (s u : State) (i : Issue) (vals : List (Nat → Dword)),
    pureResult x = some r → Issues r.attr r.guard s i → r.legal i = true → i.registersOk (r.cls, r.dst) (r.srcs i) →
    s.awake.operands i (r.srcs i) [r.dst] = .ok vals u → u.broadcasts i r.dst →
    ∃ t, exec x s = .next t ∧ SameOutside i s t ∧
      (∀ c x a, t.localByte c x a = s.localByte c x a) ∧
      (SMap.wf (s.core i.core).lrf = true → SameLanes i (fieldRegs r.cls r.dst) s t) ∧
      (∀ k : Resident, i.kind = .group → s.unit i.core i.unit = some k → k.fits → SMap.wf (s.core i.core).lrf = true → ∀ l n, n < 56 →
        ¬ (i.active.getLsbD l = true ∧ n ∈ fieldRegs r.cls r.dst) → t.lane i.core k l n = s.lane i.core k l n) ∧
      (SMap.wf (s.scalar i).regs = true → SameRegs i r.dst s t) ∧
      (∀ q : Issue, q.core = i.core → q.unit = i.unit → q.kind = i.kind →
        t.modeOf q = s.modeOf q ∧ t.trapRegs q = s.trapRegs q ∧ ∀ l p, t.pred q l p = s.pred q l p)

/-- R27, whole: SEL has its major opcode, is never guarded, selects by the predicate that GD names with its sense, writes B always with GD
0b10000, and is ILLEGAL after a GUARD hint. -/
def Obligations.SelSelects : Prop :=
  ∀ (d a b : RegField) (q : GuardField) (s u : State) (i : Issue) (vals : List (Nat → Dword)),
    (∃ w, encode (.sel d a b q) = some w ∧ w / 2 ^ 26 = 0x0A) ∧
    (Issues { guard := false } q s i → i.registersOk (.nat, d) [(.nat, a), (.nat, b)] →
      s.awake.operands i [(.nat, a), (.nat, b)] [d] = .ok vals u → u.broadcasts i d → i.active = i.lanes ∧
      exec (.sel d a b q) s = .next (i.finished {} (u.delivered i .nat d fun l =>
        if s.awake.pred i l (q.toNat % 16) = decide (q.toNat < 16) then nth vals 0 l else nth vals 1 l)) ∧
      (q = 0b10000 → exec (.sel d a b q) s = .next (i.finished {} (u.delivered i .nat d fun l => nth vals 1 l)))) ∧
    (s.cur.bind s.issue = some i → s.awake.dueTrap i = none → s.awake.fenced i = false → s.awake.maskExceeded i = false →
      i.front.hints.guard ≠ none →
      exec (.sel d a b q) s = .next (s.awake.takeTrap i ⟨Cause.illegal, 0, 0, 0⟩))

/-- R44, whole: SHI with an amount of 32 to 63 traps ILLEGAL in group code; in lead and handler code every amount from 0 to 63 is legal; a shift by
register reads its amount modulo the operand width. -/
def Obligations.ShiftAmounts : Prop :=
  ∀ (d a b : RegField) (k : BitVec 2) (n : BitVec 6) (g : GuardField) (s u v : State) (i : Issue) (x y : List (Nat → Dword)),
    Issues {} g s i → i.registersOk (.nat, d) [(.nat, a), (.nat, b)] → u.broadcasts i d → v.broadcasts i d →
    (i.kind = .group → 32 ≤ n.toNat → exec (.shi d a k n g) s = .next (s.awake.takeTrap i ⟨Cause.illegal, 0, 0, 0⟩)) ∧
    (i.kind ≠ .group → s.awake.operands i [(.nat, a)] [d] = .ok x u → exec (.shi d a k n g) s =
      .next (i.finished {} (u.delivered i .nat d fun l => shiValue k.toNat 64 (nth x 0 l) n.toNat))) ∧
    (s.awake.operands i [(.nat, a), (.nat, b)] [d] = .ok y v →
      (let amount (l : Nat) : Nat := (nth y 1 l).toNat % i.w
       exec (.shl d a b g) s = .next (i.finished {} (v.delivered i .nat d fun l => shlValue i.w (nth y 0 l) (amount l))) ∧
       exec (.shr d a b g) s = .next (i.finished {} (v.delivered i .nat d fun l => shrValue i.w (nth y 0 l) (amount l))) ∧
       exec (.sar d a b g) s = .next (i.finished {} (v.delivered i .nat d fun l => sarValue i.w (nth y 0 l) (amount l))) ∧
       exec (.rotl d a b g) s = .next (i.finished {} (v.delivered i .nat d fun l => rotlValue i.w (nth y 0 l) (amount l))))) ∧
    (∀ w p q c, fshrValue w p q c = fshrValue w p q (BitVec.ofNat 64 (c.toNat % w)))

/-- R430, R435: a thermal stop stops the clock and holds the package in reset with PHASE 5 and FAIL 3, raises MSI-X vector 0, and leaves every
other part of the machine, its memories among it (DESIGN CHOICE, log entry 4), as reset leaves it. -/
def Obligations.ThermalStop : Prop :=
  ∀ (s : State), 1 ≤ s.host.phase → s.host.phase ≤ 4 → ∃ t, exec .thermalStop s = .next t ∧
    t.host = { State.reset.host with phase := 5, fail := 3, msix := [0] } ∧ t.host.clocked = false ∧
    t.contexts = State.reset.contexts ∧ t.cores = State.reset.cores ∧ t.stations = State.reset.stations ∧ t.l2 = State.reset.l2 ∧
    t.hbm = State.reset.hbm ∧ t.far = State.reset.far ∧ t.link = State.reset.link ∧ t.agenda = [] ∧ t.cur = none
end

