-- ==== Sys2Proof/Laws/Memory.lean ====
section
/-! SUPPORT. Maps and byte memories: read after write, and that every memory operation keeps the canonical form. -/

namespace Sys2Proof.Machine

variable {β : Type}

/-! ### Maps -/

@[simp] theorem SMap.find_put_self (m : SMap β) (k : Nat) (v : β) : SMap.find (SMap.put m k v) k = some v := by
  induction m with
  | nil => simp [SMap.put, SMap.find]
  | cons x r ih =>
    obtain ⟨i, w⟩ := x
    simp only [SMap.put]
    split
    · simp [SMap.find]
    · split
      · simp [SMap.find]
      · simp [SMap.find, *]

theorem SMap.find_put_other (m : SMap β) {k j : Nat} (v : β) (h : j ≠ k) : SMap.find (SMap.put m k v) j = SMap.find m j := by
  induction m with
  | nil => simp [SMap.put, SMap.find, Ne.symm h]
  | cons x r ih =>
    obtain ⟨i, w⟩ := x
    simp only [SMap.put]
    split
    · subst i; simp [SMap.find, Ne.symm h]
    · split
      · simp only [SMap.find, if_neg (Ne.symm h)]
        grind
      · simp only [SMap.find, ih]

theorem SMap.find_put (m : SMap β) (k j : Nat) (v : β) : SMap.find (SMap.put m k v) j = if j = k then some v else SMap.find m j := by
  split
  · subst j; exact SMap.find_put_self m k v
  · exact SMap.find_put_other m v ‹_›

theorem SMap.find_alter (m : SMap β) (k j : Nat) (f : β → β) :
    SMap.find (SMap.alter m k f) j = if j = k then (SMap.find m k).map f else SMap.find m j := by
  unfold SMap.alter
  cases e : SMap.find m k with
  | none => simp only [Option.map_none]; split <;> simp_all
  | some v => simp only [SMap.find_put, Option.map_some]

theorem SMap.find_of_above {m : SMap β} {lo k : Nat} (h : SMap.above lo m = true) (hk : k ≤ lo) : SMap.find m k = none := by
  cases m with
  | nil => rfl
  | cons x r =>
    obtain ⟨i, w⟩ := x
    simp only [SMap.above, Bool.and_eq_true, decide_eq_true_eq] at h
    simp only [SMap.find]
    rw [if_neg (by omega), if_pos (by omega)]

theorem SMap.wf_of_above {m : SMap β} {lo : Nat} (h : SMap.above lo m = true) : SMap.wf m = true := by
  cases m with
  | nil => rfl
  | cons x r => simp only [SMap.above, Bool.and_eq_true] at h; exact h.2

theorem SMap.above_of_le {m : SMap β} {lo lo' : Nat} (h : SMap.above lo m = true) (hl : lo' ≤ lo) : SMap.above lo' m = true := by
  cases m with
  | nil => rfl
  | cons x r => simp only [SMap.above, Bool.and_eq_true, decide_eq_true_eq] at *; exact ⟨by omega, h.2⟩

theorem SMap.find_drop {m : SMap β} (w : SMap.wf m = true) (k j : Nat) :
    SMap.find (SMap.drop m k) j = if j = k then none else SMap.find m j := by
  induction m with
  | nil => simp [SMap.drop, SMap.find]
  | cons x r ih =>
    obtain ⟨i, v⟩ := x
    have a : SMap.above i r = true := w
    simp only [SMap.drop]
    split
    · subst i
      simp only [SMap.find]
      split
      · subst j; exact SMap.find_of_above a (Nat.le_refl _)
      · rw [if_neg (Ne.symm ‹_›)]
        split
        · exact SMap.find_of_above a (by omega)
        · rfl
    · have e := ih (SMap.wf_of_above a)
      split <;> simp only [SMap.find, e] <;> grind

theorem SMap.above_put {m : SMap β} {lo k : Nat} (h : SMap.above lo m = true) (hk : lo < k) (v : β) :
    SMap.above lo (SMap.put m k v) = true := by
  induction m generalizing lo with
  | nil => simp [SMap.put, SMap.above, hk]
  | cons x r ih =>
    obtain ⟨i, w⟩ := x
    simp only [SMap.above, Bool.and_eq_true, decide_eq_true_eq] at h
    simp only [SMap.put]
    split
    · subst i; simp [SMap.above, h]
    · split
      · simp [SMap.above, *]
      · simp only [SMap.above, Bool.and_eq_true, decide_eq_true_eq]; exact ⟨h.1, ih h.2 (by omega)⟩

theorem SMap.wf_put {m : SMap β} (h : SMap.wf m = true) (k : Nat) (v : β) : SMap.wf (SMap.put m k v) = true := by
  cases m with
  | nil => rfl
  | cons x r =>
    obtain ⟨i, w⟩ := x
    simp only [SMap.wf] at h
    simp only [SMap.put]
    split
    · subst i; exact h
    · split
      · simp [SMap.wf, SMap.above, *]
      · exact SMap.above_put h (by omega) v

theorem SMap.above_drop {m : SMap β} {lo : Nat} (h : SMap.above lo m = true) (k : Nat) : SMap.above lo (SMap.drop m k) = true := by
  induction m generalizing lo with
  | nil => rfl
  | cons x r ih =>
    obtain ⟨i, w⟩ := x
    have h' := h
    simp only [SMap.above, Bool.and_eq_true, decide_eq_true_eq] at h
    simp only [SMap.drop]
    split
    · exact SMap.above_of_le h.2 (by omega)
    · split
      · exact h'
      · simp only [SMap.above, Bool.and_eq_true, decide_eq_true_eq]; exact ⟨h.1, ih h.2⟩

theorem SMap.wf_drop {m : SMap β} (h : SMap.wf m = true) (k : Nat) : SMap.wf (SMap.drop m k) = true := by
  cases m with
  | nil => rfl
  | cons x r =>
    obtain ⟨i, w⟩ := x
    simp only [SMap.drop]
    split
    · exact SMap.wf_of_above h
    · split
      · exact h
      · exact SMap.above_drop h k

theorem SMap.wf_alter {m : SMap β} (h : SMap.wf m = true) (k : Nat) (f : β → β) : SMap.wf (SMap.alter m k f) = true := by
  unfold SMap.alter
  split
  · exact SMap.wf_put h _ _
  · exact h

/-! ### Words -/

theorem SMap.word_setWord {n : Nat} {m : SMap (BitVec n)} (h : SMap.wf m = true) (k j : Nat) (v : BitVec n) :
    SMap.word (SMap.setWord m k v) j = if j = k then v else SMap.word m j := by
  unfold SMap.word SMap.setWord
  split
  · rw [SMap.find_drop h]; split <;> simp_all
  · rw [SMap.find_put]; split <;> simp_all

theorem SMap.wf_setWord {n : Nat} {m : SMap (BitVec n)} (h : SMap.wf m = true) (k : Nat) (v : BitVec n) :
    SMap.wf (SMap.setWord m k v) = true := by
  unfold SMap.setWord
  split
  · exact SMap.wf_drop h k
  · exact SMap.wf_put h k v

/-! ### Byte memories -/

theorem Memory.noBlank_put {m : Memory} (h : Memory.noBlank m = true) (k : Nat) {b : Byte} (hb : b ≠ Memory.blank) :
    Memory.noBlank (SMap.put m k b) = true := by
  induction m with
  | nil => simp [SMap.put, Memory.noBlank, hb]
  | cons x r ih =>
    obtain ⟨i, w⟩ := x
    simp only [Memory.noBlank, Bool.and_eq_true, bne_iff_ne] at h
    simp only [SMap.put]
    split
    · simp [Memory.noBlank, hb, h]
    · split
      · simp [Memory.noBlank, hb, h]
      · simp [Memory.noBlank, h, ih h.2]

theorem Memory.noBlank_drop {m : Memory} (h : Memory.noBlank m = true) (k : Nat) : Memory.noBlank (SMap.drop m k) = true := by
  induction m with
  | nil => rfl
  | cons x r ih =>
    obtain ⟨i, w⟩ := x
    have h' := h
    simp only [Memory.noBlank, Bool.and_eq_true, bne_iff_ne] at h
    simp only [SMap.drop]
    split
    · exact h.2
    · split
      · exact h'
      · simp [Memory.noBlank, h, ih h.2]

/-- A write reads back, and leaves every other byte. -/
theorem Memory.read_write {m : Memory} (h : Memory.wf m = true) (a c : Nat) (b : Byte) :
    Memory.read (Memory.write m a b) c = if c = a then b else Memory.read m c := by
  simp only [Memory.wf, Bool.and_eq_true] at h
  unfold Memory.read Memory.write
  split
  · rw [SMap.find_drop h.1]; split <;> simp_all
  · rw [SMap.find_put]; split <;> simp_all

theorem Memory.wf_write {m : Memory} (h : Memory.wf m = true) (a : Nat) (b : Byte) : Memory.wf (Memory.write m a b) = true := by
  simp only [Memory.wf, Bool.and_eq_true] at *
  unfold Memory.write
  split
  · exact ⟨SMap.wf_drop h.1 a, Memory.noBlank_drop h.2 a⟩
  · exact ⟨SMap.wf_put h.1 a b, Memory.noBlank_put h.2 a ‹_›⟩

theorem Memory.wf_writeBytes {m : Memory} (h : Memory.wf m = true) (a : Nat) (bs : List Byte) :
    Memory.wf (Memory.writeBytes m a bs) = true := by
  induction bs generalizing m a with
  | nil => exact h
  | cons b r ih => exact ih (Memory.wf_write h a b) (a + 1)

theorem Memory.wf_writeNat {m : Memory} (h : Memory.wf m = true) (a n v : Nat) : Memory.wf (Memory.writeNat m a n v) = true :=
  Memory.wf_writeBytes h a _

/-- Bytes written read back, and no other byte changes. -/
theorem Memory.read_writeBytes {m : Memory} (h : Memory.wf m = true) (a c : Nat) (bs : List Byte) :
    Memory.read (Memory.writeBytes m a bs) c = if a ≤ c ∧ c < a + bs.length then (bs[c - a]?).getD 0 else Memory.read m c := by
  induction bs generalizing m a with
  | nil => simp only [Memory.writeBytes, List.length_nil]; rw [if_neg (by omega)]
  | cons b r ih =>
    simp only [Memory.writeBytes, ih (Memory.wf_write h a b) (a + 1), Memory.read_write h, List.length_cons]
    by_cases e : c = a
    · subst c; rw [if_neg (by omega), if_pos (by omega)]; simp
    · by_cases l : a ≤ c ∧ c < a + (r.length + 1)
      · rw [if_pos (by omega), if_pos l, show c - a = (c - (a + 1)) + 1 from by omega]; rfl
      · rw [if_neg (by omega), if_neg l, if_neg e]

theorem bytesOfNat_length (v n : Nat) : (bytesOfNat v n).length = n := by
  induction n generalizing v with
  | zero => rfl
  | succ n ih => simp [bytesOfNat, ih]

theorem natOfBytes_bytesOfNat (v n : Nat) : natOfBytes (bytesOfNat v n) = v % 256 ^ n := by
  induction n generalizing v with
  | zero => simp [bytesOfNat, natOfBytes, Nat.mod_one]
  | succ n ih =>
    simp only [bytesOfNat, natOfBytes, ih, BitVec.toNat_ofNat]
    rw [show 256 ^ (n + 1) = 256 * 256 ^ n from by rw [Nat.pow_succ, Nat.mul_comm], Nat.mod_mul]

end Sys2Proof.Machine
end

