-- ==== Sys2Proof/Laws/State.lean ====
section
/-! SUPPORT. One lemma for each field and update of the state: what an update leaves of the fields, and what the parts by name
are after it. -/

namespace Sys2Proof.Machine

variable (s : State)

/-! ### Fields -/

@[simp] theorem State.setCore_contexts (c : Nat) (k : CoreState) : (s.setCore c k).contexts = s.contexts := rfl
@[simp] theorem State.setCore_stations (c : Nat) (k : CoreState) : (s.setCore c k).stations = s.stations := rfl
@[simp] theorem State.setCore_l2 (c : Nat) (k : CoreState) : (s.setCore c k).l2 = s.l2 := rfl
@[simp] theorem State.setCore_hbm (c : Nat) (k : CoreState) : (s.setCore c k).hbm = s.hbm := rfl
@[simp] theorem State.setCore_link (c : Nat) (k : CoreState) : (s.setCore c k).link = s.link := rfl
@[simp] theorem State.setCore_host (c : Nat) (k : CoreState) : (s.setCore c k).host = s.host := rfl
@[simp] theorem State.setCore_far (c : Nat) (k : CoreState) : (s.setCore c k).far = s.far := rfl
@[simp] theorem State.setCore_agenda (c : Nat) (k : CoreState) : (s.setCore c k).agenda = s.agenda := rfl
@[simp] theorem State.setCore_cur (c : Nat) (k : CoreState) : (s.setCore c k).cur = s.cur := rfl
@[simp] theorem State.setCore_stalled (c : Nat) (k : CoreState) : (s.setCore c k).stalled = s.stalled := rfl
@[simp] theorem State.setCore_tick (c : Nat) (k : CoreState) : (s.setCore c k).tick = s.tick := rfl
@[simp] theorem State.setCore_free (c : Nat) (k : CoreState) : (s.setCore c k).free = s.free := rfl

@[simp] theorem State.modCore_contexts (c : Nat) (f : CoreState → CoreState) : (s.modCore c f).contexts = s.contexts := rfl
@[simp] theorem State.modCore_stations (c : Nat) (f : CoreState → CoreState) : (s.modCore c f).stations = s.stations := rfl
@[simp] theorem State.modCore_l2 (c : Nat) (f : CoreState → CoreState) : (s.modCore c f).l2 = s.l2 := rfl
@[simp] theorem State.modCore_hbm (c : Nat) (f : CoreState → CoreState) : (s.modCore c f).hbm = s.hbm := rfl
@[simp] theorem State.modCore_link (c : Nat) (f : CoreState → CoreState) : (s.modCore c f).link = s.link := rfl
@[simp] theorem State.modCore_host (c : Nat) (f : CoreState → CoreState) : (s.modCore c f).host = s.host := rfl
@[simp] theorem State.modCore_far (c : Nat) (f : CoreState → CoreState) : (s.modCore c f).far = s.far := rfl
@[simp] theorem State.modCore_agenda (c : Nat) (f : CoreState → CoreState) : (s.modCore c f).agenda = s.agenda := rfl
@[simp] theorem State.modCore_cur (c : Nat) (f : CoreState → CoreState) : (s.modCore c f).cur = s.cur := rfl
@[simp] theorem State.modCore_stalled (c : Nat) (f : CoreState → CoreState) : (s.modCore c f).stalled = s.stalled := rfl
@[simp] theorem State.modCore_tick (c : Nat) (f : CoreState → CoreState) : (s.modCore c f).tick = s.tick := rfl
@[simp] theorem State.modCore_free (c : Nat) (f : CoreState → CoreState) : (s.modCore c f).free = s.free := rfl

@[simp] theorem State.setUnit_contexts (c u : Nat) (r : Resident) : (s.setUnit c u r).contexts = s.contexts := rfl
@[simp] theorem State.setUnit_stations (c u : Nat) (r : Resident) : (s.setUnit c u r).stations = s.stations := rfl
@[simp] theorem State.setUnit_l2 (c u : Nat) (r : Resident) : (s.setUnit c u r).l2 = s.l2 := rfl
@[simp] theorem State.setUnit_hbm (c u : Nat) (r : Resident) : (s.setUnit c u r).hbm = s.hbm := rfl
@[simp] theorem State.setUnit_link (c u : Nat) (r : Resident) : (s.setUnit c u r).link = s.link := rfl
@[simp] theorem State.setUnit_host (c u : Nat) (r : Resident) : (s.setUnit c u r).host = s.host := rfl
@[simp] theorem State.setUnit_far (c u : Nat) (r : Resident) : (s.setUnit c u r).far = s.far := rfl
@[simp] theorem State.setUnit_agenda (c u : Nat) (r : Resident) : (s.setUnit c u r).agenda = s.agenda := rfl
@[simp] theorem State.setUnit_cur (c u : Nat) (r : Resident) : (s.setUnit c u r).cur = s.cur := rfl
@[simp] theorem State.setUnit_stalled (c u : Nat) (r : Resident) : (s.setUnit c u r).stalled = s.stalled := rfl
@[simp] theorem State.setUnit_tick (c u : Nat) (r : Resident) : (s.setUnit c u r).tick = s.tick := rfl
@[simp] theorem State.setUnit_free (c u : Nat) (r : Resident) : (s.setUnit c u r).free = s.free := rfl

@[simp] theorem State.modUnit_contexts (c u : Nat) (f : Resident → Resident) : (s.modUnit c u f).contexts = s.contexts := rfl
@[simp] theorem State.modUnit_stations (c u : Nat) (f : Resident → Resident) : (s.modUnit c u f).stations = s.stations := rfl
@[simp] theorem State.modUnit_l2 (c u : Nat) (f : Resident → Resident) : (s.modUnit c u f).l2 = s.l2 := rfl
@[simp] theorem State.modUnit_hbm (c u : Nat) (f : Resident → Resident) : (s.modUnit c u f).hbm = s.hbm := rfl
@[simp] theorem State.modUnit_link (c u : Nat) (f : Resident → Resident) : (s.modUnit c u f).link = s.link := rfl
@[simp] theorem State.modUnit_host (c u : Nat) (f : Resident → Resident) : (s.modUnit c u f).host = s.host := rfl
@[simp] theorem State.modUnit_far (c u : Nat) (f : Resident → Resident) : (s.modUnit c u f).far = s.far := rfl
@[simp] theorem State.modUnit_agenda (c u : Nat) (f : Resident → Resident) : (s.modUnit c u f).agenda = s.agenda := rfl
@[simp] theorem State.modUnit_cur (c u : Nat) (f : Resident → Resident) : (s.modUnit c u f).cur = s.cur := rfl
@[simp] theorem State.modUnit_stalled (c u : Nat) (f : Resident → Resident) : (s.modUnit c u f).stalled = s.stalled := rfl
@[simp] theorem State.modUnit_tick (c u : Nat) (f : Resident → Resident) : (s.modUnit c u f).tick = s.tick := rfl
@[simp] theorem State.modUnit_free (c u : Nat) (f : Resident → Resident) : (s.modUnit c u f).free = s.free := rfl

@[simp] theorem State.modCtl_contexts (c u : Nat) (f : Control → Control) : (s.modCtl c u f).contexts = s.contexts := rfl
@[simp] theorem State.modCtl_stations (c u : Nat) (f : Control → Control) : (s.modCtl c u f).stations = s.stations := rfl
@[simp] theorem State.modCtl_l2 (c u : Nat) (f : Control → Control) : (s.modCtl c u f).l2 = s.l2 := rfl
@[simp] theorem State.modCtl_hbm (c u : Nat) (f : Control → Control) : (s.modCtl c u f).hbm = s.hbm := rfl
@[simp] theorem State.modCtl_link (c u : Nat) (f : Control → Control) : (s.modCtl c u f).link = s.link := rfl
@[simp] theorem State.modCtl_host (c u : Nat) (f : Control → Control) : (s.modCtl c u f).host = s.host := rfl
@[simp] theorem State.modCtl_far (c u : Nat) (f : Control → Control) : (s.modCtl c u f).far = s.far := rfl
@[simp] theorem State.modCtl_agenda (c u : Nat) (f : Control → Control) : (s.modCtl c u f).agenda = s.agenda := rfl
@[simp] theorem State.modCtl_cur (c u : Nat) (f : Control → Control) : (s.modCtl c u f).cur = s.cur := rfl
@[simp] theorem State.modCtl_stalled (c u : Nat) (f : Control → Control) : (s.modCtl c u f).stalled = s.stalled := rfl
@[simp] theorem State.modCtl_tick (c u : Nat) (f : Control → Control) : (s.modCtl c u f).tick = s.tick := rfl
@[simp] theorem State.modCtl_free (c u : Nat) (f : Control → Control) : (s.modCtl c u f).free = s.free := rfl

@[simp] theorem State.modLead_contexts (c u : Nat) (f : Lead → Lead) : (s.modLead c u f).contexts = s.contexts := rfl
@[simp] theorem State.modLead_stations (c u : Nat) (f : Lead → Lead) : (s.modLead c u f).stations = s.stations := rfl
@[simp] theorem State.modLead_l2 (c u : Nat) (f : Lead → Lead) : (s.modLead c u f).l2 = s.l2 := rfl
@[simp] theorem State.modLead_hbm (c u : Nat) (f : Lead → Lead) : (s.modLead c u f).hbm = s.hbm := rfl
@[simp] theorem State.modLead_link (c u : Nat) (f : Lead → Lead) : (s.modLead c u f).link = s.link := rfl
@[simp] theorem State.modLead_host (c u : Nat) (f : Lead → Lead) : (s.modLead c u f).host = s.host := rfl
@[simp] theorem State.modLead_far (c u : Nat) (f : Lead → Lead) : (s.modLead c u f).far = s.far := rfl
@[simp] theorem State.modLead_agenda (c u : Nat) (f : Lead → Lead) : (s.modLead c u f).agenda = s.agenda := rfl
@[simp] theorem State.modLead_cur (c u : Nat) (f : Lead → Lead) : (s.modLead c u f).cur = s.cur := rfl
@[simp] theorem State.modLead_stalled (c u : Nat) (f : Lead → Lead) : (s.modLead c u f).stalled = s.stalled := rfl
@[simp] theorem State.modLead_tick (c u : Nat) (f : Lead → Lead) : (s.modLead c u f).tick = s.tick := rfl
@[simp] theorem State.modLead_free (c u : Nat) (f : Lead → Lead) : (s.modLead c u f).free = s.free := rfl

@[simp] theorem State.modHandlers_contexts (c : Nat) (f : HandlerPart → HandlerPart) : (s.modHandlers c f).contexts = s.contexts := rfl
@[simp] theorem State.modHandlers_stations (c : Nat) (f : HandlerPart → HandlerPart) : (s.modHandlers c f).stations = s.stations := rfl
@[simp] theorem State.modHandlers_l2 (c : Nat) (f : HandlerPart → HandlerPart) : (s.modHandlers c f).l2 = s.l2 := rfl
@[simp] theorem State.modHandlers_hbm (c : Nat) (f : HandlerPart → HandlerPart) : (s.modHandlers c f).hbm = s.hbm := rfl
@[simp] theorem State.modHandlers_link (c : Nat) (f : HandlerPart → HandlerPart) : (s.modHandlers c f).link = s.link := rfl
@[simp] theorem State.modHandlers_host (c : Nat) (f : HandlerPart → HandlerPart) : (s.modHandlers c f).host = s.host := rfl
@[simp] theorem State.modHandlers_far (c : Nat) (f : HandlerPart → HandlerPart) : (s.modHandlers c f).far = s.far := rfl
@[simp] theorem State.modHandlers_agenda (c : Nat) (f : HandlerPart → HandlerPart) : (s.modHandlers c f).agenda = s.agenda := rfl
@[simp] theorem State.modHandlers_cur (c : Nat) (f : HandlerPart → HandlerPart) : (s.modHandlers c f).cur = s.cur := rfl
@[simp] theorem State.modHandlers_stalled (c : Nat) (f : HandlerPart → HandlerPart) : (s.modHandlers c f).stalled = s.stalled := rfl
@[simp] theorem State.modHandlers_tick (c : Nat) (f : HandlerPart → HandlerPart) : (s.modHandlers c f).tick = s.tick := rfl
@[simp] theorem State.modHandlers_free (c : Nat) (f : HandlerPart → HandlerPart) : (s.modHandlers c f).free = s.free := rfl

@[simp] theorem State.modRun_contexts (c x : Nat) (f : Run → Run) : (s.modRun c x f).contexts = s.contexts := rfl
@[simp] theorem State.modRun_stations (c x : Nat) (f : Run → Run) : (s.modRun c x f).stations = s.stations := rfl
@[simp] theorem State.modRun_l2 (c x : Nat) (f : Run → Run) : (s.modRun c x f).l2 = s.l2 := rfl
@[simp] theorem State.modRun_hbm (c x : Nat) (f : Run → Run) : (s.modRun c x f).hbm = s.hbm := rfl
@[simp] theorem State.modRun_link (c x : Nat) (f : Run → Run) : (s.modRun c x f).link = s.link := rfl
@[simp] theorem State.modRun_host (c x : Nat) (f : Run → Run) : (s.modRun c x f).host = s.host := rfl
@[simp] theorem State.modRun_far (c x : Nat) (f : Run → Run) : (s.modRun c x f).far = s.far := rfl
@[simp] theorem State.modRun_agenda (c x : Nat) (f : Run → Run) : (s.modRun c x f).agenda = s.agenda := rfl
@[simp] theorem State.modRun_cur (c x : Nat) (f : Run → Run) : (s.modRun c x f).cur = s.cur := rfl
@[simp] theorem State.modRun_stalled (c x : Nat) (f : Run → Run) : (s.modRun c x f).stalled = s.stalled := rfl
@[simp] theorem State.modRun_tick (c x : Nat) (f : Run → Run) : (s.modRun c x f).tick = s.tick := rfl
@[simp] theorem State.modRun_free (c x : Nat) (f : Run → Run) : (s.modRun c x f).free = s.free := rfl

@[simp] theorem State.modTile_contexts (c : Nat) (f : TilePart → TilePart) : (s.modTile c f).contexts = s.contexts := rfl
@[simp] theorem State.modTile_stations (c : Nat) (f : TilePart → TilePart) : (s.modTile c f).stations = s.stations := rfl
@[simp] theorem State.modTile_l2 (c : Nat) (f : TilePart → TilePart) : (s.modTile c f).l2 = s.l2 := rfl
@[simp] theorem State.modTile_hbm (c : Nat) (f : TilePart → TilePart) : (s.modTile c f).hbm = s.hbm := rfl
@[simp] theorem State.modTile_link (c : Nat) (f : TilePart → TilePart) : (s.modTile c f).link = s.link := rfl
@[simp] theorem State.modTile_host (c : Nat) (f : TilePart → TilePart) : (s.modTile c f).host = s.host := rfl
@[simp] theorem State.modTile_far (c : Nat) (f : TilePart → TilePart) : (s.modTile c f).far = s.far := rfl
@[simp] theorem State.modTile_agenda (c : Nat) (f : TilePart → TilePart) : (s.modTile c f).agenda = s.agenda := rfl
@[simp] theorem State.modTile_cur (c : Nat) (f : TilePart → TilePart) : (s.modTile c f).cur = s.cur := rfl
@[simp] theorem State.modTile_stalled (c : Nat) (f : TilePart → TilePart) : (s.modTile c f).stalled = s.stalled := rfl
@[simp] theorem State.modTile_tick (c : Nat) (f : TilePart → TilePart) : (s.modTile c f).tick = s.tick := rfl
@[simp] theorem State.modTile_free (c : Nat) (f : TilePart → TilePart) : (s.modTile c f).free = s.free := rfl

@[simp] theorem State.modRay_contexts (c : Nat) (f : RayPart → RayPart) : (s.modRay c f).contexts = s.contexts := rfl
@[simp] theorem State.modRay_stations (c : Nat) (f : RayPart → RayPart) : (s.modRay c f).stations = s.stations := rfl
@[simp] theorem State.modRay_l2 (c : Nat) (f : RayPart → RayPart) : (s.modRay c f).l2 = s.l2 := rfl
@[simp] theorem State.modRay_hbm (c : Nat) (f : RayPart → RayPart) : (s.modRay c f).hbm = s.hbm := rfl
@[simp] theorem State.modRay_link (c : Nat) (f : RayPart → RayPart) : (s.modRay c f).link = s.link := rfl
@[simp] theorem State.modRay_host (c : Nat) (f : RayPart → RayPart) : (s.modRay c f).host = s.host := rfl
@[simp] theorem State.modRay_far (c : Nat) (f : RayPart → RayPart) : (s.modRay c f).far = s.far := rfl
@[simp] theorem State.modRay_agenda (c : Nat) (f : RayPart → RayPart) : (s.modRay c f).agenda = s.agenda := rfl
@[simp] theorem State.modRay_cur (c : Nat) (f : RayPart → RayPart) : (s.modRay c f).cur = s.cur := rfl
@[simp] theorem State.modRay_stalled (c : Nat) (f : RayPart → RayPart) : (s.modRay c f).stalled = s.stalled := rfl
@[simp] theorem State.modRay_tick (c : Nat) (f : RayPart → RayPart) : (s.modRay c f).tick = s.tick := rfl
@[simp] theorem State.modRay_free (c : Nat) (f : RayPart → RayPart) : (s.modRay c f).free = s.free := rfl

@[simp] theorem State.modCluster_contexts (c : Nat) (f : ClusterPart → ClusterPart) : (s.modCluster c f).contexts = s.contexts := rfl
@[simp] theorem State.modCluster_stations (c : Nat) (f : ClusterPart → ClusterPart) : (s.modCluster c f).stations = s.stations := rfl
@[simp] theorem State.modCluster_l2 (c : Nat) (f : ClusterPart → ClusterPart) : (s.modCluster c f).l2 = s.l2 := rfl
@[simp] theorem State.modCluster_hbm (c : Nat) (f : ClusterPart → ClusterPart) : (s.modCluster c f).hbm = s.hbm := rfl
@[simp] theorem State.modCluster_link (c : Nat) (f : ClusterPart → ClusterPart) : (s.modCluster c f).link = s.link := rfl
@[simp] theorem State.modCluster_host (c : Nat) (f : ClusterPart → ClusterPart) : (s.modCluster c f).host = s.host := rfl
@[simp] theorem State.modCluster_far (c : Nat) (f : ClusterPart → ClusterPart) : (s.modCluster c f).far = s.far := rfl
@[simp] theorem State.modCluster_agenda (c : Nat) (f : ClusterPart → ClusterPart) : (s.modCluster c f).agenda = s.agenda := rfl
@[simp] theorem State.modCluster_cur (c : Nat) (f : ClusterPart → ClusterPart) : (s.modCluster c f).cur = s.cur := rfl
@[simp] theorem State.modCluster_stalled (c : Nat) (f : ClusterPart → ClusterPart) : (s.modCluster c f).stalled = s.stalled := rfl
@[simp] theorem State.modCluster_tick (c : Nat) (f : ClusterPart → ClusterPart) : (s.modCluster c f).tick = s.tick := rfl
@[simp] theorem State.modCluster_free (c : Nat) (f : ClusterPart → ClusterPart) : (s.modCluster c f).free = s.free := rfl

@[simp] theorem State.setLane_contexts (c : Nat) (u : Resident) (i r : Nat) (v : Word) : (s.setLane c u i r v).contexts = s.contexts := rfl
@[simp] theorem State.setLane_stations (c : Nat) (u : Resident) (i r : Nat) (v : Word) : (s.setLane c u i r v).stations = s.stations := rfl
@[simp] theorem State.setLane_l2 (c : Nat) (u : Resident) (i r : Nat) (v : Word) : (s.setLane c u i r v).l2 = s.l2 := rfl
@[simp] theorem State.setLane_hbm (c : Nat) (u : Resident) (i r : Nat) (v : Word) : (s.setLane c u i r v).hbm = s.hbm := rfl
@[simp] theorem State.setLane_link (c : Nat) (u : Resident) (i r : Nat) (v : Word) : (s.setLane c u i r v).link = s.link := rfl
@[simp] theorem State.setLane_host (c : Nat) (u : Resident) (i r : Nat) (v : Word) : (s.setLane c u i r v).host = s.host := rfl
@[simp] theorem State.setLane_far (c : Nat) (u : Resident) (i r : Nat) (v : Word) : (s.setLane c u i r v).far = s.far := rfl
@[simp] theorem State.setLane_agenda (c : Nat) (u : Resident) (i r : Nat) (v : Word) : (s.setLane c u i r v).agenda = s.agenda := rfl
@[simp] theorem State.setLane_cur (c : Nat) (u : Resident) (i r : Nat) (v : Word) : (s.setLane c u i r v).cur = s.cur := rfl
@[simp] theorem State.setLane_stalled (c : Nat) (u : Resident) (i r : Nat) (v : Word) : (s.setLane c u i r v).stalled = s.stalled := rfl
@[simp] theorem State.setLane_tick (c : Nat) (u : Resident) (i r : Nat) (v : Word) : (s.setLane c u i r v).tick = s.tick := rfl
@[simp] theorem State.setLane_free (c : Nat) (u : Resident) (i r : Nat) (v : Word) : (s.setLane c u i r v).free = s.free := rfl

@[simp] theorem State.modHost_contexts (f : HostPart → HostPart) : (s.modHost f).contexts = s.contexts := rfl
@[simp] theorem State.modHost_cores (f : HostPart → HostPart) : (s.modHost f).cores = s.cores := rfl
@[simp] theorem State.modHost_stations (f : HostPart → HostPart) : (s.modHost f).stations = s.stations := rfl
@[simp] theorem State.modHost_l2 (f : HostPart → HostPart) : (s.modHost f).l2 = s.l2 := rfl
@[simp] theorem State.modHost_hbm (f : HostPart → HostPart) : (s.modHost f).hbm = s.hbm := rfl
@[simp] theorem State.modHost_link (f : HostPart → HostPart) : (s.modHost f).link = s.link := rfl
@[simp] theorem State.modHost_far (f : HostPart → HostPart) : (s.modHost f).far = s.far := rfl
@[simp] theorem State.modHost_agenda (f : HostPart → HostPart) : (s.modHost f).agenda = s.agenda := rfl
@[simp] theorem State.modHost_cur (f : HostPart → HostPart) : (s.modHost f).cur = s.cur := rfl
@[simp] theorem State.modHost_stalled (f : HostPart → HostPart) : (s.modHost f).stalled = s.stalled := rfl
@[simp] theorem State.modHost_tick (f : HostPart → HostPart) : (s.modHost f).tick = s.tick := rfl
@[simp] theorem State.modHost_free (f : HostPart → HostPart) : (s.modHost f).free = s.free := rfl

@[simp] theorem State.modL2_contexts (f : L2Part → L2Part) : (s.modL2 f).contexts = s.contexts := rfl
@[simp] theorem State.modL2_cores (f : L2Part → L2Part) : (s.modL2 f).cores = s.cores := rfl
@[simp] theorem State.modL2_stations (f : L2Part → L2Part) : (s.modL2 f).stations = s.stations := rfl
@[simp] theorem State.modL2_hbm (f : L2Part → L2Part) : (s.modL2 f).hbm = s.hbm := rfl
@[simp] theorem State.modL2_link (f : L2Part → L2Part) : (s.modL2 f).link = s.link := rfl
@[simp] theorem State.modL2_host (f : L2Part → L2Part) : (s.modL2 f).host = s.host := rfl
@[simp] theorem State.modL2_far (f : L2Part → L2Part) : (s.modL2 f).far = s.far := rfl
@[simp] theorem State.modL2_agenda (f : L2Part → L2Part) : (s.modL2 f).agenda = s.agenda := rfl
@[simp] theorem State.modL2_cur (f : L2Part → L2Part) : (s.modL2 f).cur = s.cur := rfl
@[simp] theorem State.modL2_stalled (f : L2Part → L2Part) : (s.modL2 f).stalled = s.stalled := rfl
@[simp] theorem State.modL2_tick (f : L2Part → L2Part) : (s.modL2 f).tick = s.tick := rfl
@[simp] theorem State.modL2_free (f : L2Part → L2Part) : (s.modL2 f).free = s.free := rfl

@[simp] theorem State.modLink_contexts (f : LinkPart → LinkPart) : (s.modLink f).contexts = s.contexts := rfl
@[simp] theorem State.modLink_cores (f : LinkPart → LinkPart) : (s.modLink f).cores = s.cores := rfl
@[simp] theorem State.modLink_stations (f : LinkPart → LinkPart) : (s.modLink f).stations = s.stations := rfl
@[simp] theorem State.modLink_l2 (f : LinkPart → LinkPart) : (s.modLink f).l2 = s.l2 := rfl
@[simp] theorem State.modLink_hbm (f : LinkPart → LinkPart) : (s.modLink f).hbm = s.hbm := rfl
@[simp] theorem State.modLink_host (f : LinkPart → LinkPart) : (s.modLink f).host = s.host := rfl
@[simp] theorem State.modLink_far (f : LinkPart → LinkPart) : (s.modLink f).far = s.far := rfl
@[simp] theorem State.modLink_agenda (f : LinkPart → LinkPart) : (s.modLink f).agenda = s.agenda := rfl
@[simp] theorem State.modLink_cur (f : LinkPart → LinkPart) : (s.modLink f).cur = s.cur := rfl
@[simp] theorem State.modLink_stalled (f : LinkPart → LinkPart) : (s.modLink f).stalled = s.stalled := rfl
@[simp] theorem State.modLink_tick (f : LinkPart → LinkPart) : (s.modLink f).tick = s.tick := rfl
@[simp] theorem State.modLink_free (f : LinkPart → LinkPart) : (s.modLink f).free = s.free := rfl

@[simp] theorem State.modContext_cores (x : Nat) (f : Context → Context) : (s.modContext x f).cores = s.cores := rfl
@[simp] theorem State.modContext_stations (x : Nat) (f : Context → Context) : (s.modContext x f).stations = s.stations := rfl
@[simp] theorem State.modContext_l2 (x : Nat) (f : Context → Context) : (s.modContext x f).l2 = s.l2 := rfl
@[simp] theorem State.modContext_hbm (x : Nat) (f : Context → Context) : (s.modContext x f).hbm = s.hbm := rfl
@[simp] theorem State.modContext_link (x : Nat) (f : Context → Context) : (s.modContext x f).link = s.link := rfl
@[simp] theorem State.modContext_host (x : Nat) (f : Context → Context) : (s.modContext x f).host = s.host := rfl
@[simp] theorem State.modContext_far (x : Nat) (f : Context → Context) : (s.modContext x f).far = s.far := rfl
@[simp] theorem State.modContext_agenda (x : Nat) (f : Context → Context) : (s.modContext x f).agenda = s.agenda := rfl
@[simp] theorem State.modContext_cur (x : Nat) (f : Context → Context) : (s.modContext x f).cur = s.cur := rfl
@[simp] theorem State.modContext_stalled (x : Nat) (f : Context → Context) : (s.modContext x f).stalled = s.stalled := rfl
@[simp] theorem State.modContext_tick (x : Nat) (f : Context → Context) : (s.modContext x f).tick = s.tick := rfl
@[simp] theorem State.modContext_free (x : Nat) (f : Context → Context) : (s.modContext x f).free = s.free := rfl

@[simp] theorem State.modStation_contexts (n : Nat) (f : Station → Station) : (s.modStation n f).contexts = s.contexts := rfl
@[simp] theorem State.modStation_cores (n : Nat) (f : Station → Station) : (s.modStation n f).cores = s.cores := rfl
@[simp] theorem State.modStation_l2 (n : Nat) (f : Station → Station) : (s.modStation n f).l2 = s.l2 := rfl
@[simp] theorem State.modStation_hbm (n : Nat) (f : Station → Station) : (s.modStation n f).hbm = s.hbm := rfl
@[simp] theorem State.modStation_link (n : Nat) (f : Station → Station) : (s.modStation n f).link = s.link := rfl
@[simp] theorem State.modStation_host (n : Nat) (f : Station → Station) : (s.modStation n f).host = s.host := rfl
@[simp] theorem State.modStation_far (n : Nat) (f : Station → Station) : (s.modStation n f).far = s.far := rfl
@[simp] theorem State.modStation_agenda (n : Nat) (f : Station → Station) : (s.modStation n f).agenda = s.agenda := rfl
@[simp] theorem State.modStation_cur (n : Nat) (f : Station → Station) : (s.modStation n f).cur = s.cur := rfl
@[simp] theorem State.modStation_stalled (n : Nat) (f : Station → Station) : (s.modStation n f).stalled = s.stalled := rfl
@[simp] theorem State.modStation_tick (n : Nat) (f : Station → Station) : (s.modStation n f).tick = s.tick := rfl
@[simp] theorem State.modStation_free (n : Nat) (f : Station → Station) : (s.modStation n f).free = s.free := rfl

@[simp] theorem State.modHost_host (f : HostPart → HostPart) : (s.modHost f).host = f s.host := rfl
@[simp] theorem State.modL2_l2 (f : L2Part → L2Part) : (s.modL2 f).l2 = f s.l2 := rfl
@[simp] theorem State.modLink_link (f : LinkPart → LinkPart) : (s.modLink f).link = f s.link := rfl

/-! ### Parts by name -/

theorem State.core_setCore (c d : Nat) (k : CoreState) : (s.setCore c k).core d = if d = c then k else s.core d := by
  unfold State.core State.setCore
  rw [SMap.find_put]
  split <;> rfl

theorem State.core_modCore (c d : Nat) (f : CoreState → CoreState) : (s.modCore c f).core d = if d = c then f (s.core c) else s.core d :=
  s.core_setCore c d _

@[simp] theorem State.core_modCore_self (c : Nat) (f : CoreState → CoreState) : (s.modCore c f).core c = f (s.core c) := by
  rw [State.core_modCore, if_pos rfl]

theorem State.core_modCore_other {c d : Nat} (h : d ≠ c) (f : CoreState → CoreState) : (s.modCore c f).core d = s.core d := by
  rw [State.core_modCore, if_neg h]

theorem State.unit_modUnit (c u v : Nat) (f : Resident → Resident) :
    (s.modUnit c u f).unit c v = if v = u then (s.unit c u).map f else s.unit c v := by
  unfold State.unit State.modUnit
  rw [State.core_modCore_self, SMap.find_alter]

theorem State.unit_setUnit (c u v : Nat) (r : Resident) : (s.setUnit c u r).unit c v = if v = u then some r else s.unit c v := by
  unfold State.unit State.setUnit
  rw [State.core_modCore_self, SMap.find_put]

theorem State.run_modRun (c x y : Nat) (f : Run → Run) : (s.modRun c x f).run c y = if y = x then (s.run c x).map f else s.run c y := by
  unfold State.run State.modRun State.modHandlers
  rw [State.core_modCore_self, SMap.find_alter]

theorem State.context_modContext (x y : Nat) (f : Context → Context) :
    (s.modContext x f).context y = if y = x then (s.context x).map f else s.context y := by
  unfold State.context State.modContext
  rw [SMap.find_alter]

theorem State.station_modStation (n m : Nat) (f : Station → Station) :
    (s.modStation n f).station m = if m = n then f (s.station n) else s.station m := by
  unfold State.station State.modStation
  rw [SMap.find_put]
  split <;> simp_all [State.station]

/-! ### A core's own parts -/

@[simp] theorem State.modUnit_core_lrf (c u : Nat) (f : Resident → Resident) : ((s.modUnit c u f).core c).lrf = (s.core c).lrf := by simp [State.modUnit]
@[simp] theorem State.modUnit_core_evc (c u : Nat) (f : Resident → Resident) : ((s.modUnit c u f).core c).evc = (s.core c).evc := by simp [State.modUnit]
@[simp] theorem State.modUnit_core_store (c u : Nat) (f : Resident → Resident) : ((s.modUnit c u f).core c).store = (s.core c).store := by simp [State.modUnit]
@[simp] theorem State.modUnit_core_frames (c u : Nat) (f : Resident → Resident) : ((s.modUnit c u f).core c).frames = (s.core c).frames := by simp [State.modUnit]
@[simp] theorem State.modUnit_core_pinning (c u : Nat) (f : Resident → Resident) : ((s.modUnit c u f).core c).pinning = (s.core c).pinning := by simp [State.modUnit]
@[simp] theorem State.modUnit_core_handlers (c u : Nat) (f : Resident → Resident) : ((s.modUnit c u f).core c).handlers = (s.core c).handlers := by simp [State.modUnit]
@[simp] theorem State.modUnit_core_cluster (c u : Nat) (f : Resident → Resident) : ((s.modUnit c u f).core c).cluster = (s.core c).cluster := by simp [State.modUnit]
@[simp] theorem State.modUnit_core_tile (c u : Nat) (f : Resident → Resident) : ((s.modUnit c u f).core c).tile = (s.core c).tile := by simp [State.modUnit]
@[simp] theorem State.modUnit_core_ray (c u : Nat) (f : Resident → Resident) : ((s.modUnit c u f).core c).ray = (s.core c).ray := by simp [State.modUnit]
@[simp] theorem State.modUnit_core_bins (c u : Nat) (f : Resident → Resident) : ((s.modUnit c u f).core c).bins = (s.core c).bins := by simp [State.modUnit]
@[simp] theorem State.modUnit_core_hitQueue (c u : Nat) (f : Resident → Resident) : ((s.modUnit c u f).core c).hitQueue = (s.core c).hitQueue := by simp [State.modUnit]
@[simp] theorem State.modUnit_core_inboxes (c u : Nat) (f : Resident → Resident) : ((s.modUnit c u f).core c).inboxes = (s.core c).inboxes := by simp [State.modUnit]
@[simp] theorem State.modUnit_core_barriers (c u : Nat) (f : Resident → Resident) : ((s.modUnit c u f).core c).barriers = (s.core c).barriers := by simp [State.modUnit]
@[simp] theorem State.modUnit_core_podset (c u : Nat) (f : Resident → Resident) : ((s.modUnit c u f).core c).podset = (s.core c).podset := by simp [State.modUnit]
@[simp] theorem State.modUnit_core_cycle (c u : Nat) (f : Resident → Resident) : ((s.modUnit c u f).core c).cycle = (s.core c).cycle := by simp [State.modUnit]
@[simp] theorem State.modUnit_core_order (c u : Nat) (f : Resident → Resident) : ((s.modUnit c u f).core c).order = (s.core c).order := by simp [State.modUnit]
@[simp] theorem State.modUnit_core_nextId (c u : Nat) (f : Resident → Resident) : ((s.modUnit c u f).core c).nextId = (s.core c).nextId := by simp [State.modUnit]
@[simp] theorem State.modUnit_core_dq (c u : Nat) (f : Resident → Resident) : ((s.modUnit c u f).core c).dq = (s.core c).dq := by simp [State.modUnit]
@[simp] theorem State.modUnit_core_fetchRefused (c u : Nat) (f : Resident → Resident) : ((s.modUnit c u f).core c).fetchRefused = (s.core c).fetchRefused := by simp [State.modUnit]

@[simp] theorem State.setUnit_core_lrf (c u : Nat) (r : Resident) : ((s.setUnit c u r).core c).lrf = (s.core c).lrf := by simp [State.setUnit]
@[simp] theorem State.setUnit_core_evc (c u : Nat) (r : Resident) : ((s.setUnit c u r).core c).evc = (s.core c).evc := by simp [State.setUnit]
@[simp] theorem State.setUnit_core_store (c u : Nat) (r : Resident) : ((s.setUnit c u r).core c).store = (s.core c).store := by simp [State.setUnit]
@[simp] theorem State.setUnit_core_frames (c u : Nat) (r : Resident) : ((s.setUnit c u r).core c).frames = (s.core c).frames := by simp [State.setUnit]
@[simp] theorem State.setUnit_core_pinning (c u : Nat) (r : Resident) : ((s.setUnit c u r).core c).pinning = (s.core c).pinning := by simp [State.setUnit]
@[simp] theorem State.setUnit_core_handlers (c u : Nat) (r : Resident) : ((s.setUnit c u r).core c).handlers = (s.core c).handlers := by simp [State.setUnit]
@[simp] theorem State.setUnit_core_cluster (c u : Nat) (r : Resident) : ((s.setUnit c u r).core c).cluster = (s.core c).cluster := by simp [State.setUnit]
@[simp] theorem State.setUnit_core_tile (c u : Nat) (r : Resident) : ((s.setUnit c u r).core c).tile = (s.core c).tile := by simp [State.setUnit]
@[simp] theorem State.setUnit_core_ray (c u : Nat) (r : Resident) : ((s.setUnit c u r).core c).ray = (s.core c).ray := by simp [State.setUnit]
@[simp] theorem State.setUnit_core_bins (c u : Nat) (r : Resident) : ((s.setUnit c u r).core c).bins = (s.core c).bins := by simp [State.setUnit]
@[simp] theorem State.setUnit_core_hitQueue (c u : Nat) (r : Resident) : ((s.setUnit c u r).core c).hitQueue = (s.core c).hitQueue := by simp [State.setUnit]
@[simp] theorem State.setUnit_core_inboxes (c u : Nat) (r : Resident) : ((s.setUnit c u r).core c).inboxes = (s.core c).inboxes := by simp [State.setUnit]
@[simp] theorem State.setUnit_core_barriers (c u : Nat) (r : Resident) : ((s.setUnit c u r).core c).barriers = (s.core c).barriers := by simp [State.setUnit]
@[simp] theorem State.setUnit_core_podset (c u : Nat) (r : Resident) : ((s.setUnit c u r).core c).podset = (s.core c).podset := by simp [State.setUnit]
@[simp] theorem State.setUnit_core_cycle (c u : Nat) (r : Resident) : ((s.setUnit c u r).core c).cycle = (s.core c).cycle := by simp [State.setUnit]
@[simp] theorem State.setUnit_core_order (c u : Nat) (r : Resident) : ((s.setUnit c u r).core c).order = (s.core c).order := by simp [State.setUnit]
@[simp] theorem State.setUnit_core_nextId (c u : Nat) (r : Resident) : ((s.setUnit c u r).core c).nextId = (s.core c).nextId := by simp [State.setUnit]
@[simp] theorem State.setUnit_core_dq (c u : Nat) (r : Resident) : ((s.setUnit c u r).core c).dq = (s.core c).dq := by simp [State.setUnit]
@[simp] theorem State.setUnit_core_fetchRefused (c u : Nat) (r : Resident) : ((s.setUnit c u r).core c).fetchRefused = (s.core c).fetchRefused := by simp [State.setUnit]

@[simp] theorem State.modHandlers_core_units (c : Nat) (f : HandlerPart → HandlerPart) : ((s.modHandlers c f).core c).units = (s.core c).units := by simp [State.modHandlers]
@[simp] theorem State.modHandlers_core_lrf (c : Nat) (f : HandlerPart → HandlerPart) : ((s.modHandlers c f).core c).lrf = (s.core c).lrf := by simp [State.modHandlers]
@[simp] theorem State.modHandlers_core_evc (c : Nat) (f : HandlerPart → HandlerPart) : ((s.modHandlers c f).core c).evc = (s.core c).evc := by simp [State.modHandlers]
@[simp] theorem State.modHandlers_core_store (c : Nat) (f : HandlerPart → HandlerPart) : ((s.modHandlers c f).core c).store = (s.core c).store := by simp [State.modHandlers]
@[simp] theorem State.modHandlers_core_frames (c : Nat) (f : HandlerPart → HandlerPart) : ((s.modHandlers c f).core c).frames = (s.core c).frames := by simp [State.modHandlers]
@[simp] theorem State.modHandlers_core_pinning (c : Nat) (f : HandlerPart → HandlerPart) : ((s.modHandlers c f).core c).pinning = (s.core c).pinning := by simp [State.modHandlers]
@[simp] theorem State.modHandlers_core_cluster (c : Nat) (f : HandlerPart → HandlerPart) : ((s.modHandlers c f).core c).cluster = (s.core c).cluster := by simp [State.modHandlers]
@[simp] theorem State.modHandlers_core_tile (c : Nat) (f : HandlerPart → HandlerPart) : ((s.modHandlers c f).core c).tile = (s.core c).tile := by simp [State.modHandlers]
@[simp] theorem State.modHandlers_core_ray (c : Nat) (f : HandlerPart → HandlerPart) : ((s.modHandlers c f).core c).ray = (s.core c).ray := by simp [State.modHandlers]
@[simp] theorem State.modHandlers_core_bins (c : Nat) (f : HandlerPart → HandlerPart) : ((s.modHandlers c f).core c).bins = (s.core c).bins := by simp [State.modHandlers]
@[simp] theorem State.modHandlers_core_hitQueue (c : Nat) (f : HandlerPart → HandlerPart) : ((s.modHandlers c f).core c).hitQueue = (s.core c).hitQueue := by simp [State.modHandlers]
@[simp] theorem State.modHandlers_core_inboxes (c : Nat) (f : HandlerPart → HandlerPart) : ((s.modHandlers c f).core c).inboxes = (s.core c).inboxes := by simp [State.modHandlers]
@[simp] theorem State.modHandlers_core_barriers (c : Nat) (f : HandlerPart → HandlerPart) : ((s.modHandlers c f).core c).barriers = (s.core c).barriers := by simp [State.modHandlers]
@[simp] theorem State.modHandlers_core_podset (c : Nat) (f : HandlerPart → HandlerPart) : ((s.modHandlers c f).core c).podset = (s.core c).podset := by simp [State.modHandlers]
@[simp] theorem State.modHandlers_core_cycle (c : Nat) (f : HandlerPart → HandlerPart) : ((s.modHandlers c f).core c).cycle = (s.core c).cycle := by simp [State.modHandlers]
@[simp] theorem State.modHandlers_core_order (c : Nat) (f : HandlerPart → HandlerPart) : ((s.modHandlers c f).core c).order = (s.core c).order := by simp [State.modHandlers]
@[simp] theorem State.modHandlers_core_nextId (c : Nat) (f : HandlerPart → HandlerPart) : ((s.modHandlers c f).core c).nextId = (s.core c).nextId := by simp [State.modHandlers]
@[simp] theorem State.modHandlers_core_dq (c : Nat) (f : HandlerPart → HandlerPart) : ((s.modHandlers c f).core c).dq = (s.core c).dq := by simp [State.modHandlers]
@[simp] theorem State.modHandlers_core_fetchRefused (c : Nat) (f : HandlerPart → HandlerPart) : ((s.modHandlers c f).core c).fetchRefused = (s.core c).fetchRefused := by simp [State.modHandlers]

@[simp] theorem State.modTile_core_units (c : Nat) (f : TilePart → TilePart) : ((s.modTile c f).core c).units = (s.core c).units := by simp [State.modTile]
@[simp] theorem State.modTile_core_lrf (c : Nat) (f : TilePart → TilePart) : ((s.modTile c f).core c).lrf = (s.core c).lrf := by simp [State.modTile]
@[simp] theorem State.modTile_core_evc (c : Nat) (f : TilePart → TilePart) : ((s.modTile c f).core c).evc = (s.core c).evc := by simp [State.modTile]
@[simp] theorem State.modTile_core_store (c : Nat) (f : TilePart → TilePart) : ((s.modTile c f).core c).store = (s.core c).store := by simp [State.modTile]
@[simp] theorem State.modTile_core_frames (c : Nat) (f : TilePart → TilePart) : ((s.modTile c f).core c).frames = (s.core c).frames := by simp [State.modTile]
@[simp] theorem State.modTile_core_pinning (c : Nat) (f : TilePart → TilePart) : ((s.modTile c f).core c).pinning = (s.core c).pinning := by simp [State.modTile]
@[simp] theorem State.modTile_core_handlers (c : Nat) (f : TilePart → TilePart) : ((s.modTile c f).core c).handlers = (s.core c).handlers := by simp [State.modTile]
@[simp] theorem State.modTile_core_cluster (c : Nat) (f : TilePart → TilePart) : ((s.modTile c f).core c).cluster = (s.core c).cluster := by simp [State.modTile]
@[simp] theorem State.modTile_core_ray (c : Nat) (f : TilePart → TilePart) : ((s.modTile c f).core c).ray = (s.core c).ray := by simp [State.modTile]
@[simp] theorem State.modTile_core_bins (c : Nat) (f : TilePart → TilePart) : ((s.modTile c f).core c).bins = (s.core c).bins := by simp [State.modTile]
@[simp] theorem State.modTile_core_hitQueue (c : Nat) (f : TilePart → TilePart) : ((s.modTile c f).core c).hitQueue = (s.core c).hitQueue := by simp [State.modTile]
@[simp] theorem State.modTile_core_inboxes (c : Nat) (f : TilePart → TilePart) : ((s.modTile c f).core c).inboxes = (s.core c).inboxes := by simp [State.modTile]
@[simp] theorem State.modTile_core_barriers (c : Nat) (f : TilePart → TilePart) : ((s.modTile c f).core c).barriers = (s.core c).barriers := by simp [State.modTile]
@[simp] theorem State.modTile_core_podset (c : Nat) (f : TilePart → TilePart) : ((s.modTile c f).core c).podset = (s.core c).podset := by simp [State.modTile]
@[simp] theorem State.modTile_core_cycle (c : Nat) (f : TilePart → TilePart) : ((s.modTile c f).core c).cycle = (s.core c).cycle := by simp [State.modTile]
@[simp] theorem State.modTile_core_order (c : Nat) (f : TilePart → TilePart) : ((s.modTile c f).core c).order = (s.core c).order := by simp [State.modTile]
@[simp] theorem State.modTile_core_nextId (c : Nat) (f : TilePart → TilePart) : ((s.modTile c f).core c).nextId = (s.core c).nextId := by simp [State.modTile]
@[simp] theorem State.modTile_core_dq (c : Nat) (f : TilePart → TilePart) : ((s.modTile c f).core c).dq = (s.core c).dq := by simp [State.modTile]
@[simp] theorem State.modTile_core_fetchRefused (c : Nat) (f : TilePart → TilePart) : ((s.modTile c f).core c).fetchRefused = (s.core c).fetchRefused := by simp [State.modTile]

@[simp] theorem State.modRay_core_units (c : Nat) (f : RayPart → RayPart) : ((s.modRay c f).core c).units = (s.core c).units := by simp [State.modRay]
@[simp] theorem State.modRay_core_lrf (c : Nat) (f : RayPart → RayPart) : ((s.modRay c f).core c).lrf = (s.core c).lrf := by simp [State.modRay]
@[simp] theorem State.modRay_core_evc (c : Nat) (f : RayPart → RayPart) : ((s.modRay c f).core c).evc = (s.core c).evc := by simp [State.modRay]
@[simp] theorem State.modRay_core_store (c : Nat) (f : RayPart → RayPart) : ((s.modRay c f).core c).store = (s.core c).store := by simp [State.modRay]
@[simp] theorem State.modRay_core_frames (c : Nat) (f : RayPart → RayPart) : ((s.modRay c f).core c).frames = (s.core c).frames := by simp [State.modRay]
@[simp] theorem State.modRay_core_pinning (c : Nat) (f : RayPart → RayPart) : ((s.modRay c f).core c).pinning = (s.core c).pinning := by simp [State.modRay]
@[simp] theorem State.modRay_core_handlers (c : Nat) (f : RayPart → RayPart) : ((s.modRay c f).core c).handlers = (s.core c).handlers := by simp [State.modRay]
@[simp] theorem State.modRay_core_cluster (c : Nat) (f : RayPart → RayPart) : ((s.modRay c f).core c).cluster = (s.core c).cluster := by simp [State.modRay]
@[simp] theorem State.modRay_core_tile (c : Nat) (f : RayPart → RayPart) : ((s.modRay c f).core c).tile = (s.core c).tile := by simp [State.modRay]
@[simp] theorem State.modRay_core_bins (c : Nat) (f : RayPart → RayPart) : ((s.modRay c f).core c).bins = (s.core c).bins := by simp [State.modRay]
@[simp] theorem State.modRay_core_hitQueue (c : Nat) (f : RayPart → RayPart) : ((s.modRay c f).core c).hitQueue = (s.core c).hitQueue := by simp [State.modRay]
@[simp] theorem State.modRay_core_inboxes (c : Nat) (f : RayPart → RayPart) : ((s.modRay c f).core c).inboxes = (s.core c).inboxes := by simp [State.modRay]
@[simp] theorem State.modRay_core_barriers (c : Nat) (f : RayPart → RayPart) : ((s.modRay c f).core c).barriers = (s.core c).barriers := by simp [State.modRay]
@[simp] theorem State.modRay_core_podset (c : Nat) (f : RayPart → RayPart) : ((s.modRay c f).core c).podset = (s.core c).podset := by simp [State.modRay]
@[simp] theorem State.modRay_core_cycle (c : Nat) (f : RayPart → RayPart) : ((s.modRay c f).core c).cycle = (s.core c).cycle := by simp [State.modRay]
@[simp] theorem State.modRay_core_order (c : Nat) (f : RayPart → RayPart) : ((s.modRay c f).core c).order = (s.core c).order := by simp [State.modRay]
@[simp] theorem State.modRay_core_nextId (c : Nat) (f : RayPart → RayPart) : ((s.modRay c f).core c).nextId = (s.core c).nextId := by simp [State.modRay]
@[simp] theorem State.modRay_core_dq (c : Nat) (f : RayPart → RayPart) : ((s.modRay c f).core c).dq = (s.core c).dq := by simp [State.modRay]
@[simp] theorem State.modRay_core_fetchRefused (c : Nat) (f : RayPart → RayPart) : ((s.modRay c f).core c).fetchRefused = (s.core c).fetchRefused := by simp [State.modRay]

@[simp] theorem State.modCluster_core_units (c : Nat) (f : ClusterPart → ClusterPart) : ((s.modCluster c f).core c).units = (s.core c).units := by simp [State.modCluster]
@[simp] theorem State.modCluster_core_lrf (c : Nat) (f : ClusterPart → ClusterPart) : ((s.modCluster c f).core c).lrf = (s.core c).lrf := by simp [State.modCluster]
@[simp] theorem State.modCluster_core_evc (c : Nat) (f : ClusterPart → ClusterPart) : ((s.modCluster c f).core c).evc = (s.core c).evc := by simp [State.modCluster]
@[simp] theorem State.modCluster_core_store (c : Nat) (f : ClusterPart → ClusterPart) : ((s.modCluster c f).core c).store = (s.core c).store := by simp [State.modCluster]
@[simp] theorem State.modCluster_core_frames (c : Nat) (f : ClusterPart → ClusterPart) : ((s.modCluster c f).core c).frames = (s.core c).frames := by simp [State.modCluster]
@[simp] theorem State.modCluster_core_pinning (c : Nat) (f : ClusterPart → ClusterPart) : ((s.modCluster c f).core c).pinning = (s.core c).pinning := by simp [State.modCluster]
@[simp] theorem State.modCluster_core_handlers (c : Nat) (f : ClusterPart → ClusterPart) : ((s.modCluster c f).core c).handlers = (s.core c).handlers := by simp [State.modCluster]
@[simp] theorem State.modCluster_core_tile (c : Nat) (f : ClusterPart → ClusterPart) : ((s.modCluster c f).core c).tile = (s.core c).tile := by simp [State.modCluster]
@[simp] theorem State.modCluster_core_ray (c : Nat) (f : ClusterPart → ClusterPart) : ((s.modCluster c f).core c).ray = (s.core c).ray := by simp [State.modCluster]
@[simp] theorem State.modCluster_core_bins (c : Nat) (f : ClusterPart → ClusterPart) : ((s.modCluster c f).core c).bins = (s.core c).bins := by simp [State.modCluster]
@[simp] theorem State.modCluster_core_hitQueue (c : Nat) (f : ClusterPart → ClusterPart) : ((s.modCluster c f).core c).hitQueue = (s.core c).hitQueue := by simp [State.modCluster]
@[simp] theorem State.modCluster_core_inboxes (c : Nat) (f : ClusterPart → ClusterPart) : ((s.modCluster c f).core c).inboxes = (s.core c).inboxes := by simp [State.modCluster]
@[simp] theorem State.modCluster_core_barriers (c : Nat) (f : ClusterPart → ClusterPart) : ((s.modCluster c f).core c).barriers = (s.core c).barriers := by simp [State.modCluster]
@[simp] theorem State.modCluster_core_podset (c : Nat) (f : ClusterPart → ClusterPart) : ((s.modCluster c f).core c).podset = (s.core c).podset := by simp [State.modCluster]
@[simp] theorem State.modCluster_core_cycle (c : Nat) (f : ClusterPart → ClusterPart) : ((s.modCluster c f).core c).cycle = (s.core c).cycle := by simp [State.modCluster]
@[simp] theorem State.modCluster_core_order (c : Nat) (f : ClusterPart → ClusterPart) : ((s.modCluster c f).core c).order = (s.core c).order := by simp [State.modCluster]
@[simp] theorem State.modCluster_core_nextId (c : Nat) (f : ClusterPart → ClusterPart) : ((s.modCluster c f).core c).nextId = (s.core c).nextId := by simp [State.modCluster]
@[simp] theorem State.modCluster_core_dq (c : Nat) (f : ClusterPart → ClusterPart) : ((s.modCluster c f).core c).dq = (s.core c).dq := by simp [State.modCluster]
@[simp] theorem State.modCluster_core_fetchRefused (c : Nat) (f : ClusterPart → ClusterPart) : ((s.modCluster c f).core c).fetchRefused = (s.core c).fetchRefused := by simp [State.modCluster]

@[simp] theorem State.setLane_core_units (c : Nat) (u : Resident) (i r : Nat) (v : Word) : ((s.setLane c u i r v).core c).units = (s.core c).units := by simp [State.setLane]
@[simp] theorem State.setLane_core_evc (c : Nat) (u : Resident) (i r : Nat) (v : Word) : ((s.setLane c u i r v).core c).evc = (s.core c).evc := by simp [State.setLane]
@[simp] theorem State.setLane_core_store (c : Nat) (u : Resident) (i r : Nat) (v : Word) : ((s.setLane c u i r v).core c).store = (s.core c).store := by simp [State.setLane]
@[simp] theorem State.setLane_core_frames (c : Nat) (u : Resident) (i r : Nat) (v : Word) : ((s.setLane c u i r v).core c).frames = (s.core c).frames := by simp [State.setLane]
@[simp] theorem State.setLane_core_pinning (c : Nat) (u : Resident) (i r : Nat) (v : Word) : ((s.setLane c u i r v).core c).pinning = (s.core c).pinning := by simp [State.setLane]
@[simp] theorem State.setLane_core_handlers (c : Nat) (u : Resident) (i r : Nat) (v : Word) : ((s.setLane c u i r v).core c).handlers = (s.core c).handlers := by simp [State.setLane]
@[simp] theorem State.setLane_core_cluster (c : Nat) (u : Resident) (i r : Nat) (v : Word) : ((s.setLane c u i r v).core c).cluster = (s.core c).cluster := by simp [State.setLane]
@[simp] theorem State.setLane_core_tile (c : Nat) (u : Resident) (i r : Nat) (v : Word) : ((s.setLane c u i r v).core c).tile = (s.core c).tile := by simp [State.setLane]
@[simp] theorem State.setLane_core_ray (c : Nat) (u : Resident) (i r : Nat) (v : Word) : ((s.setLane c u i r v).core c).ray = (s.core c).ray := by simp [State.setLane]
@[simp] theorem State.setLane_core_bins (c : Nat) (u : Resident) (i r : Nat) (v : Word) : ((s.setLane c u i r v).core c).bins = (s.core c).bins := by simp [State.setLane]
@[simp] theorem State.setLane_core_hitQueue (c : Nat) (u : Resident) (i r : Nat) (v : Word) : ((s.setLane c u i r v).core c).hitQueue = (s.core c).hitQueue := by simp [State.setLane]
@[simp] theorem State.setLane_core_inboxes (c : Nat) (u : Resident) (i r : Nat) (v : Word) : ((s.setLane c u i r v).core c).inboxes = (s.core c).inboxes := by simp [State.setLane]
@[simp] theorem State.setLane_core_barriers (c : Nat) (u : Resident) (i r : Nat) (v : Word) : ((s.setLane c u i r v).core c).barriers = (s.core c).barriers := by simp [State.setLane]
@[simp] theorem State.setLane_core_podset (c : Nat) (u : Resident) (i r : Nat) (v : Word) : ((s.setLane c u i r v).core c).podset = (s.core c).podset := by simp [State.setLane]
@[simp] theorem State.setLane_core_cycle (c : Nat) (u : Resident) (i r : Nat) (v : Word) : ((s.setLane c u i r v).core c).cycle = (s.core c).cycle := by simp [State.setLane]
@[simp] theorem State.setLane_core_order (c : Nat) (u : Resident) (i r : Nat) (v : Word) : ((s.setLane c u i r v).core c).order = (s.core c).order := by simp [State.setLane]
@[simp] theorem State.setLane_core_nextId (c : Nat) (u : Resident) (i r : Nat) (v : Word) : ((s.setLane c u i r v).core c).nextId = (s.core c).nextId := by simp [State.setLane]
@[simp] theorem State.setLane_core_dq (c : Nat) (u : Resident) (i r : Nat) (v : Word) : ((s.setLane c u i r v).core c).dq = (s.core c).dq := by simp [State.setLane]
@[simp] theorem State.setLane_core_fetchRefused (c : Nat) (u : Resident) (i r : Nat) (v : Word) : ((s.setLane c u i r v).core c).fetchRefused = (s.core c).fetchRefused := by simp [State.setLane]

end Sys2Proof.Machine
end

