-- ==== Sys2Proof/Laws/Registers.lean ====
section
/-! SUPPORT. What writing a register does, in a lane, in a lead and in a run (R30, R32). -/

namespace Sys2Proof.Machine

/-- The keys of distinct registers of a unit differ. -/
theorem Resident.lrfKey_inj {r : Resident} (hf : r.fits) {l m a b : Nat} (ha : a < 56) (hb : b < 56) :
    r.lrfKey l a = r.lrfKey m b ↔ l = m ∧ a = b := by
  have _k : r.info.base + 56 ≤ 1024 := hf
  unfold Resident.lrfKey
  omega

theorem State.lane_setLane {s : State} {c : Nat} {r : Resident} (h : SMap.wf (s.core c).lrf = true) (f : r.fits) {l m a b : Nat}
    (ha : a < 56) (hb : b < 56) (v : Word) :
    (s.setLane c r l a v).lane c r m b = if m = l ∧ b = a then v else s.lane c r m b := by
  unfold State.lane State.setLane
  rw [State.core_modCore_self]
  simp only [SMap.word_setWord h]
  have k := Resident.lrfKey_inj f (l := m) (m := l) hb ha
  by_cases e : m = l ∧ b = a
  · rw [if_pos (k.mpr e), if_pos e]
  · rw [if_neg (fun x => e (k.mp x)), if_neg e]

theorem State.wf_setLane {s : State} {c : Nat} {r : Resident} (h : SMap.wf (s.core c).lrf = true) (l a : Nat) (v : Word) :
    SMap.wf ((s.setLane c r l a v).core c).lrf = true := by
  unfold State.setLane
  rw [State.core_modCore_self]
  exact SMap.wf_setWord h _ _

theorem State.lane_setUnit (s : State) (c u : Nat) (k r : Resident) (l n : Nat) : (s.setUnit c u k).lane c r l n = s.lane c r l n := by
  unfold State.lane
  rw [State.setUnit_core_lrf]

/-- What a lane register reads after a write to a lane. -/
theorem State.lane_writeReg {s : State} {i : Issue} {r k : Resident} {c : Cls} {f : RegField} {lane : Nat} {v : Dword}
    (g : i.kind = .group) (hu : s.unit i.core i.unit = some r) (hk : k.fits) (same : r.info.seg = k.info.seg ∧ r.info.base = k.info.base)
    (w : SMap.wf (s.core i.core).lrf = true) (hf : f.toNat < 56) (hp : c = .pair → f.toNat < 55) {l n : Nat} (hn : n < 56) :
    (s.writeReg i c f lane v).lane i.core k l n =
      if l = lane ∧ n = f.toNat then v.setWidth 32
      else if c = .pair ∧ l = lane ∧ n = f.toNat + 1 then (v >>> 32).setWidth 32
      else s.lane i.core k l n := by
  have key : ∀ (t : State) (l a : Nat) (x : Word), t.setLane i.core r l a x = t.setLane i.core k l a x := by
    intro t l a x
    simp only [State.setLane, Resident.lrfKey, same.1, same.2]
  obtain ⟨t, ht, w', e⟩ : ∃ t : State, s.writeReg i c f lane v = (if c == .pair then (t.setLane i.core k lane f.toNat (v.setWidth 32)).setLane
      i.core k lane (f.toNat + 1) ((v >>> 32).setWidth 32) else t.setLane i.core k lane f.toNat (v.setWidth 32)) ∧
      SMap.wf (t.core i.core).lrf = true ∧ t.lane i.core k l n = s.lane i.core k l n := by
    unfold State.writeReg
    rw [if_neg (by omega), if_pos (by rw [g]; rfl)]
    simp only [hu, key]
    refine ⟨_, rfl, ?_, ?_⟩ <;> split
    · rw [State.setUnit_core_lrf]; exact w
    · exact w
    · exact State.lane_setUnit ..
    · rfl
  rw [ht]
  by_cases p : c = .pair
  · have hq := hp p
    subst p
    simp only [beq_self_eq_true, if_true, true_and]
    rw [State.lane_setLane (State.wf_setLane w' _ _ _) hk (by omega) hn, State.lane_setLane w' hk hf hn, e]
    by_cases a : l = lane ∧ n = f.toNat
    · rw [if_neg (by omega), if_pos a, if_pos a]
    · rw [if_neg a, if_neg a]
  · simp only [p, false_and, if_false, beq_iff_eq]
    rw [State.lane_setLane w' hk hf hn, e]

/-- A write keeps the file's canonical form. -/
theorem State.wf_writeReg {s : State} {i : Issue} (w : SMap.wf (s.core i.core).lrf = true) (c : Cls) (f : RegField) (lane : Nat)
    (v : Dword) : SMap.wf ((s.writeReg i c f lane v).core i.core).lrf = true := by
  unfold State.writeReg
  split
  · exact w
  · split
    · split
      · exact w
      · rename_i r _
        have w' : SMap.wf ((if r.arrival.isSome || !r.ctl.pending.isEmpty then
            s.setUnit i.core i.unit (r.overwritten lane (fieldRegs c f)) else s).core i.core).lrf = true := by
          split
          · rw [State.setUnit_core_lrf]; exact w
          · exact w
        dsimp only
        split
        · exact State.wf_setLane (State.wf_setLane w' _ _ _) _ _ _
        · exact State.wf_setLane w' _ _ _
    · unfold State.modScalar
      split
      · exact w
      · unfold State.modLead; rw [State.modUnit_core_lrf]; exact w
      · unfold State.modRun; rw [State.modHandlers_core_lrf]; exact w

/-- A lane write leaves the unit as it is, but for what an older BARA or GATHER has still to write. -/
theorem State.unit_writeReg {s : State} {i : Issue} {r : Resident} (g : i.kind = .group) (hu : s.unit i.core i.unit = some r) (c : Cls)
    (f : RegField) (lane : Nat) (v : Dword) :
    ∃ a p, (s.writeReg i c f lane v).unit i.core i.unit = some { r with arrival := a, ctl := { r.ctl with pending := p } } := by
  have sl : ∀ (t : State) (k : Resident) (l a : Nat) (x : Word), (t.setLane i.core k l a x).unit i.core i.unit = t.unit i.core i.unit := by
    intro t k l a x; unfold State.unit; rw [State.setLane_core_units]
  unfold State.writeReg
  split
  · exact ⟨r.arrival, r.ctl.pending, hu⟩
  · rw [if_pos (by rw [g]; rfl)]
    simp only [hu]
    have : ∃ a p, (if r.arrival.isSome || !r.ctl.pending.isEmpty then
        s.setUnit i.core i.unit (r.overwritten lane (fieldRegs c f)) else s).unit i.core i.unit
          = some { r with arrival := a, ctl := { r.ctl with pending := p } } := by
      split
      · exact ⟨_, _, by rw [State.unit_setUnit, if_pos rfl]; rfl⟩
      · exact ⟨r.arrival, r.ctl.pending, hu⟩
    split
    · rw [sl, sl]; exact this
    · rw [sl]; exact this

end Sys2Proof.Machine
end

