-- ==== Sys2Proof/Laws/Frame.lean ====
section
/-! SUPPORT. What the shared operations of a unit leave as it is: what operands, results and the end of a unit touch. -/

namespace Sys2Proof.Machine

theorem getElem?_setAt_other {α : Type} (l : List α) (f : α → α) {k n : Nat} (h : k ≠ n) : (setAt n f l)[k]? = l[k]? := by
  induction l generalizing k n with
  | nil => cases n <;> rfl
  | cons a r ih =>
    cases n with
    | zero => cases k with
      | zero => exact absurd rfl h
      | succ k => rfl
    | succ n => cases k with
      | zero => rfl
      | succ k => exact ih fun e => h (congrArg (· + 1) e)

theorem map_setAt {α β : Type} (l : List α) (n : Nat) {f : α → α} {g : α → β} (h : ∀ a, g (f a) = g a) : (setAt n f l).map g = l.map g := by
  induction l generalizing n with
  | nil => cases n <;> rfl
  | cons a r ih =>
    cases n with
    | zero => exact congrArg (· :: r.map g) (h a)
    | succ n => exact congrArg (g a :: ·) (ih n)

/-- A change of a unit that its own issue may make. -/
def ownChange (i : Issue) (f : Resident → Resident) : Prop := ∀ r, i.Touches r (f r)

theorem Issue.Touches.refl (i : Issue) (r : Resident) : i.Touches r r := ⟨fun _ => rfl, fun _ _ => rfl, rfl, fun _ => ⟨rfl, rfl⟩⟩

theorem Issue.Touches.trans {i : Issue} {a b c : Resident} (h : i.Touches a b) (k : i.Touches b c) : i.Touches a c where
  group e := by rw [k.group e, h.group e]
  paths n e := (k.paths n e).trans (h.paths n e)
  lanes := k.lanes.trans h.lanes
  lead e := ⟨by rw [(k.lead e).1, (h.lead e).1], (k.lead e).2.trans (h.lead e).2⟩

variable {i : Issue} {s t u : State}

theorem SameOutside.refl (i : Issue) (s : State) : SameOutside i s s :=
  ⟨rfl, rfl, rfl, rfl, rfl, rfl, rfl, fun _ _ => rfl, rfl, fun _ _ => rfl, fun _ _ => rfl, fun r _ h => ⟨r, h, .refl i r⟩, fun _ => rfl⟩

theorem SameOutside.trans (h : SameOutside i s t) (k : SameOutside i t u) : SameOutside i s u where
  contexts := k.contexts.trans h.contexts
  stations := k.stations.trans h.stations
  l2 := k.l2.trans h.l2
  hbm := k.hbm.trans h.hbm
  link := k.link.trans h.link
  host := k.host.trans h.host
  far := k.far.trans h.far
  others c e := (k.others c e).trans (h.others c e)
  core := by rw [k.core, h.core]
  units v e := (k.units v e).trans (h.units v e)
  runs x e := (k.runs x e).trans (h.runs x e)
  own r e hr := by
    obtain ⟨r1, h1, e1⟩ := h.own r e hr
    obtain ⟨r2, h2, e2⟩ := k.own r1 e h1
    exact ⟨r2, h2, e1.trans e2⟩
  run e := (k.run e).trans (h.run e)

/-- Only the turn's own record changed. -/
theorem SameOutside.of_parts (h : t.contexts = s.contexts ∧ t.cores = s.cores ∧ t.stations = s.stations ∧ t.l2 = s.l2 ∧ t.hbm = s.hbm ∧
    t.link = s.link ∧ t.host = s.host ∧ t.far = s.far) : SameOutside i s t := by
  obtain ⟨h1, h2, h3, h4, h5, h6, h7, h8⟩ := h
  have c : ∀ d, t.core d = s.core d := fun d => by unfold State.core; rw [h2]
  exact ⟨h1, h3, h4, h5, h6, h7, h8, fun d _ => c d, by rw [c], fun u _ => by unfold State.unit; rw [c],
    fun x _ => by unfold State.run; rw [c], fun r _ hr => ⟨r, by unfold State.unit at *; rw [c]; exact hr, .refl i r⟩,
    fun _ => by unfold State.run; rw [c]⟩

theorem sameOutside_modUnit (k : i.kind ≠ .run) {f : Resident → Resident} (hf : ownChange i f) :
    SameOutside i s (s.modUnit i.core i.unit f) where
  contexts := rfl
  stations := rfl
  l2 := rfl
  hbm := rfl
  link := rfl
  host := rfl
  far := rfl
  others c e := State.core_modCore_other s e _
  core := by unfold State.modUnit; rw [State.core_modCore_self]
  units v e := by
    rw [State.unit_modUnit, if_neg]
    rcases e with e | e
    · exact e
    · exact absurd e k
  runs x _ := by unfold State.run; rw [State.modUnit_core_handlers]
  own r _ hr := ⟨f r, by rw [State.unit_modUnit, if_pos rfl, hr]; rfl, hf r⟩
  run e := absurd e k

theorem sameOutside_modRun (k : i.kind = .run) {f : Run → Run} (hf : ∀ r, (f r).rest = r.rest) : SameOutside i s (s.modRun i.core i.unit f) where
  contexts := rfl
  stations := rfl
  l2 := rfl
  hbm := rfl
  link := rfl
  host := rfl
  far := rfl
  others c e := State.core_modCore_other s e _
  core := by unfold State.modRun State.modHandlers; rw [State.core_modCore_self]
  units v _ := by unfold State.unit State.modRun; rw [State.modHandlers_core_units]
  runs x e := by
    rw [State.run_modRun, if_neg]
    rcases e with e | e
    · exact e
    · exact absurd k e
  own r e _ := absurd k e
  run _ := by
    rw [State.run_modRun, if_pos rfl, Option.map_map]
    exact congrArg (fun g => (s.run i.core i.unit).map g) (funext hf)

theorem sameOutside_setLane (r : Resident) (l n : Nat) (v : Word) : SameOutside i s (s.setLane i.core r l n v) where
  contexts := rfl
  stations := rfl
  l2 := rfl
  hbm := rfl
  link := rfl
  host := rfl
  far := rfl
  others c e := State.core_modCore_other s e _
  core := by unfold State.setLane; rw [State.core_modCore_self]
  units v _ := by unfold State.unit; rw [State.setLane_core_units]
  runs x _ := by unfold State.run; rw [State.setLane_core_handlers]
  own r _ hr := ⟨r, by unfold State.unit at *; rw [State.setLane_core_units]; exact hr, .refl i r⟩
  run _ := by unfold State.run; rw [State.setLane_core_handlers]

theorem sameOutside_setUnit (k : i.kind ≠ .run) {r r' : Resident} (hu : s.unit i.core i.unit = some r)
    (h : i.Touches r r') :
    SameOutside i s (s.setUnit i.core i.unit r') where
  contexts := rfl
  stations := rfl
  l2 := rfl
  hbm := rfl
  link := rfl
  host := rfl
  far := rfl
  others c e := State.core_modCore_other s e _
  core := by unfold State.setUnit; rw [State.core_modCore_self]
  units v e := by
    rw [State.unit_setUnit, if_neg]
    rcases e with e | e
    · exact e
    · exact absurd e k
  runs x _ := by unfold State.run; rw [State.setUnit_core_handlers]
  own x _ hx := ⟨r', by rw [State.unit_setUnit, if_pos rfl], by rw [hu] at hx; cases hx; exact h⟩
  run e := absurd e k

/-! ### Operations -/

/-- Group code changes its own path's place and spin count, its loops and the register writes still to come. -/
theorem sameOutside_modCtl (g : i.kind = .group) {f : Control → Control}
    (hf : ∀ c, f c = { c with paths := (f c).paths, loops := (f c).loops, pending := (f c).pending })
    (hp : ∀ c k, k ≠ i.path → (f c).paths[k]? = c.paths[k]?) (hl : ∀ c, (f c).paths.map (·.lanes) = c.paths.map (·.lanes)) :
    SameOutside i s (s.modCtl i.core i.unit f) :=
  sameOutside_modUnit (by rw [g]; decide) fun r =>
    { group := fun _ => by have := hf r.ctl; dsimp only; rw [← this]
      paths := hp r.ctl
      lanes := hl r.ctl
      lead := fun e => by rw [g] at e; exact absurd e (by decide) }

theorem sameOutside_modPath (g : i.kind = .group) {f : Path → Path} (hf : ∀ p, (f p).lanes = p.lanes) :
    SameOutside i s (s.modCtl i.core i.unit fun c => { c with paths := setAt i.path f c.paths }) :=
  sameOutside_modCtl g (fun _ => rfl) (fun c _ e => getElem?_setAt_other c.paths f e) fun c => map_setAt c.paths i.path hf

/-- Lead code changes its lead's place, loops and registers. -/
theorem sameOutside_modLead (e : i.kind = .lead) {f : Lead → Lead} (hf : ∀ l, (f l).rest = l.rest) :
    SameOutside i s (s.modLead i.core i.unit f) :=
  sameOutside_modUnit (by rw [e]; decide) fun r =>
    { group := fun g => by rw [e] at g; exact absurd g (by decide)
      paths := fun _ _ => rfl
      lanes := rfl
      lead := fun _ => ⟨rfl, by
        rw [Option.map_map]
        exact congrArg (fun g => r.lead.map g) (funext hf)⟩ }

theorem sameOutside_modScalar {f : Scalar → Scalar} (hf : ∀ c, (f c).rest = c.rest) : SameOutside i s (s.modScalar i f) := by
  unfold State.modScalar
  split
  · exact .refl i s
  · exact sameOutside_modLead (by assumption) fun l => by unfold Lead.rest; dsimp only; rw [hf]
  · exact sameOutside_modRun (by assumption) fun l => by unfold Run.rest; dsimp only; rw [hf]

theorem sameOutside_setFront (f : Front) : SameOutside i s (s.setFront i f) := by
  unfold State.setFront
  split
  · exact sameOutside_modPath (by assumption) fun _ => rfl
  · exact sameOutside_modLead (by assumption) fun _ => rfl
  · exact sameOutside_modRun (by assumption) fun _ => rfl

theorem sameOutside_setLoops (l : List LoopFrame) : SameOutside i s (s.setLoops i l) := by
  unfold State.setLoops
  split
  · exact sameOutside_modCtl (by assumption) (fun _ => rfl) (fun _ _ _ => rfl) fun _ => rfl
  · exact sameOutside_modScalar fun _ => rfl

/-- A change of what a group notes for its issue, of its queues and of what older units have still to write. -/
theorem sameOutside_modGroup (g : i.kind = .group) {f : Resident → Resident} (hf : ∀ r, f r = { r with
      queues := (f r).queues, arrival := (f r).arrival, ctl := { r.ctl with pending := (f r).ctl.pending }
      info := { r.info with ready := (f r).info.ready, aged := (f r).info.aged, skip := (f r).info.skip } }) :
    SameOutside i s (s.modUnit i.core i.unit f) :=
  sameOutside_modUnit (by rw [g]; decide) fun r =>
    { group := fun _ => by rw [hf r]
      paths := fun _ _ => by rw [hf r]
      lanes := by rw [hf r]
      lead := fun e => by rw [g] at e; exact absurd e (by decide) }

theorem sameOutside_modQueues (k : i.kind ≠ .run) (f : List QueueReg → List QueueReg) :
    SameOutside i s (s.modUnit i.core i.unit fun r => { r with queues := f r.queues }) :=
  sameOutside_modUnit k fun _ => ⟨fun _ => rfl, fun _ _ => rfl, rfl, fun _ => ⟨rfl, rfl⟩⟩

theorem sameOutside_issued (n : Nat) : SameOutside i s (s.issued i n) := by
  unfold State.issued
  split
  · exact sameOutside_modGroup (by assumption) fun _ => rfl
  · exact sameOutside_modScalar fun _ => rfl

theorem sameOutside_countMasked : SameOutside i s (s.countMasked i) := by
  unfold State.countMasked
  split
  · exact sameOutside_modRun (by assumption) fun _ => rfl
  · exact .refl i s

theorem sameOutside_clearSpin : SameOutside i s (s.clearSpin i) := by
  unfold State.clearSpin
  split
  · exact sameOutside_modPath (by simp_all) fun _ => rfl
  · exact .refl i s

theorem sameOutside_finish : SameOutside i s (s.finish i) := by
  unfold State.finish
  dsimp only
  split
  · exact (sameOutside_setFront _).trans (sameOutside_issued _)
  · exact ((sameOutside_setLoops _).trans (sameOutside_setFront _)).trans (sameOutside_issued _)

theorem sameOutside_finished (t : Attr) : SameOutside i s (i.finished t s) := by
  unfold Issue.finished
  refine SameOutside.trans ?_ (sameOutside_countMasked.trans sameOutside_finish)
  split
  · exact sameOutside_clearSpin
  · exact .refl i s

theorem sameOutside_popQueue (k : i.kind ≠ .run) (q : Nat) : SameOutside i s (s.popQueue i q).2 := by
  unfold State.popQueue
  split
  · split
    · exact sameOutside_modQueues k _
    · exact .refl i s
  · exact .refl i s

theorem sameOutside_pushQueue (k : i.kind ≠ .run) (q : Nat) (e : List Word) : SameOutside i s (s.pushQueue i q e) := by
  unfold State.pushQueue
  split
  · exact .refl i s
  · dsimp only
    split
    · exact .refl i s
    · exact sameOutside_modQueues k _

theorem sameOutside_writeReg (c : Cls) (f : RegField) (l : Nat) (v : Dword) : SameOutside i s (s.writeReg i c f l v) := by
  unfold State.writeReg
  split
  · exact .refl i s
  · split
    · rename_i g
      have g : i.kind = .group := by simpa using g
      have k : i.kind ≠ .run := by rw [g]; decide
      split
      · exact .refl i s
      · rename_i r hu
        have a : SameOutside i s (if r.arrival.isSome || !r.ctl.pending.isEmpty then
            s.setUnit i.core i.unit (r.overwritten l (fieldRegs c f)) else s) := by
          split
          · exact sameOutside_setUnit k hu ⟨fun _ => rfl, fun _ _ => rfl, rfl, fun e => by rw [g] at e; exact absurd e (by decide)⟩
          · exact .refl i s
        dsimp only
        split
        · exact (a.trans (sameOutside_setLane ..)).trans (sameOutside_setLane ..)
        · exact a.trans (sameOutside_setLane ..)
    · exact sameOutside_modScalar fun _ => rfl

theorem sameOutside_writeLanes (c : Cls) (f : RegField) (m : LaneMask) (v : Nat → Dword) : SameOutside i s (s.writeLanes i c f m v) := by
  unfold State.writeLanes
  generalize lanesOf m = ls
  induction ls generalizing s with
  | nil => exact .refl i s
  | cons a r ih => exact (sameOutside_writeReg c f a (v a)).trans ih

/-- A queue field of a unit that passed its operand stage is a lead's or group's: a run has none (R31). -/
theorem Issue.notRun_of_queue {w : Bool} {c : Cls} {f : RegField} (h : i.regOk w c f = true) (q : isQueue f = true) : i.kind ≠ .run := by
  intro e
  unfold Issue.regOk at h
  unfold isQueue at q
  rw [e] at h
  simp only [Bool.or_eq_true, Bool.and_eq_true, decide_eq_true_eq, beq_iff_eq, Bool.not_eq_true'] at h q
  omega

theorem sameOutside_delivered {w : Bool} {c : Cls} {f : RegField} (h : i.regOk w c f = true) (v : Nat → Dword) :
    SameOutside i s (s.delivered i c f v) := by
  unfold State.delivered
  split
  · exact sameOutside_clearSpin.trans (sameOutside_pushQueue (Issue.notRun_of_queue h ‹_›) _ _)
  · exact sameOutside_writeLanes ..

theorem sameOutside_sources {srcs : List (Cls × RegField)} (h : (srcs.all fun x => i.regOk false x.1 x.2) = true) (s0 : State)
    (vals : List (Nat → Dword)) (s : State) :
    SameOutside i s (srcs.foldl (fun (acc : List (Nat → Dword) × State) x =>
      if isQueue x.2 then
        let (e, t) := acc.2.popQueue i (queueIndex x.2)
        (acc.1 ++ [s0.source i x.1 x.2 (some e)], t)
      else (acc.1 ++ [s0.source i x.1 x.2 none], acc.2)) (vals, s)).2 := by
  induction srcs generalizing vals s with
  | nil => exact .refl i s
  | cons x r ih =>
    simp only [List.all_cons, Bool.and_eq_true] at h
    simp only [List.foldl_cons]
    split
    · exact (sameOutside_popQueue (Issue.notRun_of_queue h.1 ‹_›) _).trans (ih h.2 _ _)
    · exact ih h.2 _ _

/-- What reading the operands leaves (R31). -/
theorem sameOutside_operands {srcs : List (Cls × RegField)} {dsts : List RegField} {vals : List (Nat → Dword)}
    (h : (srcs.all fun x => i.regOk false x.1 x.2) = true) (o : s.operands i srcs dsts = .ok vals u) : SameOutside i s u := by
  unfold State.operands at o
  dsimp only at o
  split at o
  · exact absurd o (by simp)
  · split at o
    · exact absurd o (by simp)
    · injection o with _ o
      have k := sameOutside_sources h s [] s
      rw [← o]
      split
      · exact k
      · exact k.trans sameOutside_clearSpin

/-! ### Lane registers -/

theorem State.localByte_of_same (h : SameOutside i s t) (c x a : Nat) : t.localByte c x a = s.localByte c x a := by
  unfold State.localByte
  by_cases e : c = i.core
  · subst e; rw [h.core]; rfl
  · rw [h.others c e]

/-- Operations that touch no lane register. -/
theorem State.lrf_modScalar (f : Scalar → Scalar) : ((s.modScalar i f).core i.core).lrf = (s.core i.core).lrf := by
  unfold State.modScalar
  split
  · rfl
  · exact s.modUnit_core_lrf ..
  · exact s.modHandlers_core_lrf ..

theorem State.lrf_setFront (f : Front) : ((s.setFront i f).core i.core).lrf = (s.core i.core).lrf := by
  unfold State.setFront
  split
  · exact s.modUnit_core_lrf ..
  · exact s.modUnit_core_lrf ..
  · exact s.modHandlers_core_lrf ..

theorem State.lrf_setLoops (l : List LoopFrame) : ((s.setLoops i l).core i.core).lrf = (s.core i.core).lrf := by
  unfold State.setLoops
  split
  · exact s.modUnit_core_lrf ..
  · exact State.lrf_modScalar _

theorem State.lrf_issued (n : Nat) : ((s.issued i n).core i.core).lrf = (s.core i.core).lrf := by
  unfold State.issued
  split
  · exact s.modUnit_core_lrf ..
  · exact State.lrf_modScalar _

theorem State.lrf_countMasked : ((s.countMasked i).core i.core).lrf = (s.core i.core).lrf := by
  unfold State.countMasked
  split
  · exact s.modHandlers_core_lrf ..
  · rfl

theorem State.lrf_clearSpin : ((s.clearSpin i).core i.core).lrf = (s.core i.core).lrf := by
  unfold State.clearSpin
  split
  · exact s.modUnit_core_lrf ..
  · rfl

theorem State.lrf_finished (t : Attr) : ((i.finished t s).core i.core).lrf = (s.core i.core).lrf := by
  unfold Issue.finished State.finish
  dsimp only
  split <;> split <;> simp only [State.lrf_issued, State.lrf_setFront, State.lrf_setLoops, State.lrf_countMasked, State.lrf_clearSpin]

theorem State.lrf_popQueue (q : Nat) : ((s.popQueue i q).2.core i.core).lrf = (s.core i.core).lrf := by
  unfold State.popQueue
  split
  · split
    · exact s.modUnit_core_lrf ..
    · rfl
  · rfl

theorem State.lrf_pushQueue (q : Nat) (e : List Word) : ((s.pushQueue i q e).core i.core).lrf = (s.core i.core).lrf := by
  unfold State.pushQueue
  split
  · rfl
  · dsimp only
    split
    · rfl
    · exact s.modUnit_core_lrf ..

theorem State.lrf_sources (srcs : List (Cls × RegField)) (s0 : State) (vals : List (Nat → Dword)) (s : State) :
    ((srcs.foldl (fun (acc : List (Nat → Dword) × State) x =>
      if isQueue x.2 then
        let (e, t) := acc.2.popQueue i (queueIndex x.2)
        (acc.1 ++ [s0.source i x.1 x.2 (some e)], t)
      else (acc.1 ++ [s0.source i x.1 x.2 none], acc.2)) (vals, s)).2.core i.core).lrf = (s.core i.core).lrf := by
  induction srcs generalizing vals s with
  | nil => rfl
  | cons x r ih =>
    simp only [List.foldl_cons]
    split
    · exact (ih _ _).trans (State.lrf_popQueue _)
    · exact ih _ _

theorem State.lrf_operands {srcs : List (Cls × RegField)} {dsts : List RegField} {vals : List (Nat → Dword)}
    (o : s.operands i srcs dsts = .ok vals u) : (u.core i.core).lrf = (s.core i.core).lrf := by
  unfold State.operands at o
  dsimp only at o
  split at o
  · exact absurd o (by simp)
  · split at o
    · exact absurd o (by simp)
    · injection o with _ o
      rw [← o]
      split
      · exact State.lrf_sources ..
      · exact State.lrf_clearSpin.trans (State.lrf_sources ..)

/-- A write of a result changes no lane register but its destinations in the lanes of the mask. -/
theorem State.lane_writeLanes {c : Cls} {f : RegField} {m : LaneMask} {v : Nat → Dword} {r k : Resident} (g : i.kind = .group)
    (hu : s.unit i.core i.unit = some r) (hk : k.fits) (same : r.info.seg = k.info.seg ∧ r.info.base = k.info.base)
    (w : SMap.wf (s.core i.core).lrf = true) (ok : i.regOk true c f = true) {l n : Nat} (hn : n < 56)
    (out : ¬ (m.getLsbD l = true ∧ n ∈ fieldRegs c f)) :
    (s.writeLanes i c f m v).lane i.core k l n = s.lane i.core k l n := by
  unfold State.writeLanes
  have hm : ∀ x ∈ lanesOf m, m.getLsbD x = true := fun x hx => by
    unfold lanesOf at hx; exact (List.mem_filter.mp hx).2
  generalize lanesOf m = ls at hm
  induction ls generalizing s r with
  | nil => rfl
  | cons a ls ih =>
    simp only [List.foldl_cons]
    obtain ⟨x, y, hx⟩ := State.unit_writeReg (c := c) (f := f) (lane := a) (v := v a) g hu
    refine (ih hx same (State.wf_writeReg w c f a (v a)) fun y hy => hm y (List.mem_cons_of_mem _ hy)).trans ?_
    by_cases hf : 56 ≤ f.toNat
    · unfold State.writeReg; rw [if_pos hf]
    · have hp : c = .pair → f.toNat < 55 := by
        intro e
        subst e
        unfold Issue.regOk at ok
        rw [g] at ok
        simp only [Bool.or_eq_true, Bool.and_eq_true, decide_eq_true_eq, beq_iff_eq] at ok
        omega
      rw [State.lane_writeReg g hu hk same w (by omega) hp hn]
      have ha := hm a (List.mem_cons_self ..)
      have o : ¬ (l = a ∧ n ∈ fieldRegs c f) := fun e => out ⟨e.1 ▸ ha, e.2⟩
      unfold fieldRegs at o
      by_cases p : c = .pair
      · subst p
        simp only [beq_self_eq_true, if_true, List.mem_cons, List.not_mem_nil, or_false] at o
        rw [if_neg (by omega), if_neg (by omega)]
      · simp only [beq_iff_eq, p, if_false, List.mem_cons, List.not_mem_nil, or_false] at o
        rw [if_neg o, if_neg (fun e => p e.1)]

/-- A write of a result changes no lane register of the core but its destinations in the lanes of the mask. -/
theorem sameLanes_writeLanes {c : Cls} {f : RegField} {m : LaneMask} {v : Nat → Dword} (w : SMap.wf (s.core i.core).lrf = true)
    (hm : ∀ l, m.getLsbD l = true → i.active.getLsbD l = true) (ok : i.regOk true c f = true) :
    SameLanes i (fieldRegs c f) s (s.writeLanes i c f m v) := by
  intro q l n out
  unfold State.writeLanes
  have hl : ∀ x ∈ lanesOf m, i.active.getLsbD x = true := fun x hx => by
    unfold lanesOf at hx; exact hm x (List.mem_filter.mp hx).2
  generalize lanesOf m = ls at hl
  induction ls generalizing s with
  | nil => rfl
  | cons a ls ih =>
    simp only [List.foldl_cons]
    have ha := hl a (List.mem_cons_self ..)
    by_cases hf : 56 ≤ f.toNat
    · have e : s.writeReg i c f a (v a) = s := by unfold State.writeReg; rw [if_pos hf]
      rw [e]
      exact ih w out fun x hx => hl x (List.mem_cons_of_mem _ hx)
    · by_cases g : i.kind = .group
      · cases hu : s.unit i.core i.unit with
        | none =>
          have e : s.writeReg i c f a (v a) = s := by unfold State.writeReg; rw [if_neg hf, if_pos (by rw [g]; rfl), hu]
          rw [e]
          exact ih w out fun x hx => hl x (List.mem_cons_of_mem _ hx)
        | some r =>
          obtain ⟨x, y, hx⟩ := State.unit_writeReg (c := c) (f := f) (lane := a) (v := v a) g hu
          refine (ih (State.wf_writeReg w c f a (v a)) ?_ fun x hx => hl x (List.mem_cons_of_mem _ hx)).trans ?_
          · intro k l' n' _ hk hl' hn' h56
            rw [hx] at hk
            cases hk
            exact out r l' n' g hu hl' hn' h56
          · have step : ∀ (t : State) (n' : Nat) (z : Word), SMap.wf (t.core i.core).lrf = true → n' ∈ fieldRegs c f → n' < 56 →
                (t.setLane i.core r a n' z).lane i.core q l n = t.lane i.core q l n := by
              intro t n' z wt hn' h56
              unfold State.lane State.setLane
              rw [State.core_modCore_self]
              simp only [SMap.word_setWord wt]
              rw [if_neg (out r a n' g hu ha hn' h56)]
            obtain ⟨t, ht, w', e⟩ : ∃ t : State, s.writeReg i c f a (v a) = (if c == .pair then (t.setLane i.core r a f.toNat
                ((v a).setWidth 32)).setLane i.core r a (f.toNat + 1) ((v a >>> 32).setWidth 32) else
                t.setLane i.core r a f.toNat ((v a).setWidth 32)) ∧ SMap.wf (t.core i.core).lrf = true ∧
                t.lane i.core q l n = s.lane i.core q l n := by
              unfold State.writeReg
              rw [if_neg hf, if_pos (by rw [g]; rfl)]
              simp only [hu]
              refine ⟨_, rfl, ?_, ?_⟩ <;> split
              · rw [State.setUnit_core_lrf]; exact w
              · exact w
              · exact State.lane_setUnit ..
              · rfl
            rw [ht]
            unfold fieldRegs at step
            by_cases p : c = .pair
            · subst p
              have hp : f.toNat < 55 := by
                unfold Issue.regOk at ok
                rw [g] at ok
                simp only [Bool.or_eq_true, Bool.and_eq_true, decide_eq_true_eq, beq_iff_eq] at ok
                omega
              simp only [beq_self_eq_true, if_true, List.mem_cons, List.not_mem_nil, or_false] at step ⊢
              rw [step _ _ _ (State.wf_setLane w' ..) (.inr rfl) (by omega), step _ _ _ w' (.inl rfl) (by omega), e]
            · simp only [beq_iff_eq, p, if_false, List.mem_cons, List.not_mem_nil, or_false] at step ⊢
              rw [step _ _ _ w' rfl (by omega), e]
      · have e : ((s.writeReg i c f a (v a)).core i.core).lrf = (s.core i.core).lrf := by
          unfold State.writeReg
          rw [if_neg hf, if_neg (by simpa using g)]
          exact State.lrf_modScalar _
        refine (ih (by rw [e]; exact w) (fun k l' n' x => absurd x g) fun x hx => hl x (List.mem_cons_of_mem _ hx)).trans ?_
        unfold State.lane
        rw [e]

theorem State.lane_of_lrf {c : Nat} (h : (t.core c).lrf = (s.core c).lrf) (k : Resident) (l n : Nat) : t.lane c k l n = s.lane c k l n := by
  unfold State.lane
  rw [h]

end Sys2Proof.Machine
end

