-- ==== Sys2Proof/Laws/PerInstr.lean ====
section
/-! SUPPORT. The encodings, instruction by instruction: every encoding is a word of 32 bits (R23); an event has none. -/

namespace Sys2Proof.Laws.Encoding

/-- What is encoded has 32 bits. -/
def Statement (x : Instr) : Prop := ∀ w, encode x = some w → w < 2 ^ 32

theorem ximmHint (x : BitVec 23) : Statement (.ximmHint x) := by
  intro w h; cases h; have := x.isLt; omega
theorem guardHint (s : BitVec 1) (p : BitVec 6) : Statement (.guardHint s p) := by
  intro w h; cases h; have := s.isLt; have := p.isLt; omega
theorem schedHint (y : BitVec 1) (c : BitVec 4) : Statement (.schedHint y c) := by
  intro w h; cases h; have := y.isLt; have := c.isLt; omega
theorem modHint (l : BitVec 2) (e : BitVec 1) (c : BitVec 6) (f : BitVec 1) (s : BitVec 2) (n : BitVec 1) (r : BitVec 3) : Statement (.modHint l e c f s n r) := by
  intro w h; cases h; have := l.isLt; have := e.isLt; have := c.isLt; have := f.isLt; have := s.isLt; have := n.isLt; have := r.isLt; omega
theorem add (d : BitVec 6) (a : BitVec 6) (b : BitVec 6) (g : BitVec 5) : Statement (.add d a b g) := by
  intro w h; cases h; have := d.isLt; have := a.isLt; have := b.isLt; have := g.isLt; omega
theorem sub (d : BitVec 6) (a : BitVec 6) (b : BitVec 6) (g : BitVec 5) : Statement (.sub d a b g) := by
  intro w h; cases h; have := d.isLt; have := a.isLt; have := b.isLt; have := g.isLt; omega
theorem mul (d : BitVec 6) (a : BitVec 6) (b : BitVec 6) (g : BitVec 5) : Statement (.mul d a b g) := by
  intro w h; cases h; have := d.isLt; have := a.isLt; have := b.isLt; have := g.isLt; omega
theorem mulh (d : BitVec 6) (a : BitVec 6) (b : BitVec 6) (g : BitVec 5) : Statement (.mulh d a b g) := by
  intro w h; cases h; have := d.isLt; have := a.isLt; have := b.isLt; have := g.isLt; omega
theorem mulhn (d : BitVec 6) (a : BitVec 6) (b : BitVec 6) (g : BitVec 5) : Statement (.mulhn d a b g) := by
  intro w h; cases h; have := d.isLt; have := a.isLt; have := b.isLt; have := g.isLt; omega
theorem mad (d : BitVec 6) (a : BitVec 6) (b : BitVec 6) (g : BitVec 5) : Statement (.mad d a b g) := by
  intro w h; cases h; have := d.isLt; have := a.isLt; have := b.isLt; have := g.isLt; omega
theorem minOp (d : BitVec 6) (a : BitVec 6) (b : BitVec 6) (g : BitVec 5) : Statement (.minOp d a b g) := by
  intro w h; cases h; have := d.isLt; have := a.isLt; have := b.isLt; have := g.isLt; omega
theorem maxOp (d : BitVec 6) (a : BitVec 6) (b : BitVec 6) (g : BitVec 5) : Statement (.maxOp d a b g) := by
  intro w h; cases h; have := d.isLt; have := a.isLt; have := b.isLt; have := g.isLt; omega
theorem andOp (d : BitVec 6) (a : BitVec 6) (b : BitVec 6) (g : BitVec 5) : Statement (.andOp d a b g) := by
  intro w h; cases h; have := d.isLt; have := a.isLt; have := b.isLt; have := g.isLt; omega
theorem orOp (d : BitVec 6) (a : BitVec 6) (b : BitVec 6) (g : BitVec 5) : Statement (.orOp d a b g) := by
  intro w h; cases h; have := d.isLt; have := a.isLt; have := b.isLt; have := g.isLt; omega
theorem xorOp (d : BitVec 6) (a : BitVec 6) (b : BitVec 6) (g : BitVec 5) : Statement (.xorOp d a b g) := by
  intro w h; cases h; have := d.isLt; have := a.isLt; have := b.isLt; have := g.isLt; omega
theorem andn (d : BitVec 6) (a : BitVec 6) (b : BitVec 6) (g : BitVec 5) : Statement (.andn d a b g) := by
  intro w h; cases h; have := d.isLt; have := a.isLt; have := b.isLt; have := g.isLt; omega
theorem shl (d : BitVec 6) (a : BitVec 6) (b : BitVec 6) (g : BitVec 5) : Statement (.shl d a b g) := by
  intro w h; cases h; have := d.isLt; have := a.isLt; have := b.isLt; have := g.isLt; omega
theorem shr (d : BitVec 6) (a : BitVec 6) (b : BitVec 6) (g : BitVec 5) : Statement (.shr d a b g) := by
  intro w h; cases h; have := d.isLt; have := a.isLt; have := b.isLt; have := g.isLt; omega
theorem sar (d : BitVec 6) (a : BitVec 6) (b : BitVec 6) (g : BitVec 5) : Statement (.sar d a b g) := by
  intro w h; cases h; have := d.isLt; have := a.isLt; have := b.isLt; have := g.isLt; omega
theorem rotl (d : BitVec 6) (a : BitVec 6) (b : BitVec 6) (g : BitVec 5) : Statement (.rotl d a b g) := by
  intro w h; cases h; have := d.isLt; have := a.isLt; have := b.isLt; have := g.isLt; omega
theorem minn (d : BitVec 6) (a : BitVec 6) (b : BitVec 6) (g : BitVec 5) : Statement (.minn d a b g) := by
  intro w h; cases h; have := d.isLt; have := a.isLt; have := b.isLt; have := g.isLt; omega
theorem maxn (d : BitVec 6) (a : BitVec 6) (b : BitVec 6) (g : BitVec 5) : Statement (.maxn d a b g) := by
  intro w h; cases h; have := d.isLt; have := a.isLt; have := b.isLt; have := g.isLt; omega
theorem absOp (d : BitVec 6) (a : BitVec 6) (g : BitVec 5) : Statement (.absOp d a g) := by
  intro w h; cases h; have := d.isLt; have := a.isLt; have := g.isLt; omega
theorem neg (d : BitVec 6) (a : BitVec 6) (g : BitVec 5) : Statement (.neg d a g) := by
  intro w h; cases h; have := d.isLt; have := a.isLt; have := g.isLt; omega
theorem fshr (d : BitVec 6) (a : BitVec 6) (b : BitVec 6) (g : BitVec 5) : Statement (.fshr d a b g) := by
  intro w h; cases h; have := d.isLt; have := a.isLt; have := b.isLt; have := g.isLt; omega
theorem bfx (d : BitVec 6) (a : BitVec 6) (b : BitVec 6) (g : BitVec 5) : Statement (.bfx d a b g) := by
  intro w h; cases h; have := d.isLt; have := a.isLt; have := b.isLt; have := g.isLt; omega
theorem bfi (d : BitVec 6) (a : BitVec 6) (b : BitVec 6) (g : BitVec 5) : Statement (.bfi d a b g) := by
  intro w h; cases h; have := d.isLt; have := a.isLt; have := b.isLt; have := g.isLt; omega
theorem bprm (d : BitVec 6) (a : BitVec 6) (b : BitVec 6) (g : BitVec 5) : Statement (.bprm d a b g) := by
  intro w h; cases h; have := d.isLt; have := a.isLt; have := b.isLt; have := g.isLt; omega
theorem popc (d : BitVec 6) (a : BitVec 6) (g : BitVec 5) : Statement (.popc d a g) := by
  intro w h; cases h; have := d.isLt; have := a.isLt; have := g.isLt; omega
theorem clz (d : BitVec 6) (a : BitVec 6) (g : BitVec 5) : Statement (.clz d a g) := by
  intro w h; cases h; have := d.isLt; have := a.isLt; have := g.isLt; omega
theorem ctz (d : BitVec 6) (a : BitVec 6) (g : BitVec 5) : Statement (.ctz d a g) := by
  intro w h; cases h; have := d.isLt; have := a.isLt; have := g.isLt; omega
theorem brev (d : BitVec 6) (a : BitVec 6) (g : BitVec 5) : Statement (.brev d a g) := by
  intro w h; cases h; have := d.isLt; have := a.isLt; have := g.isLt; omega
theorem mulw (d : BitVec 6) (a : BitVec 6) (b : BitVec 6) (g : BitVec 5) : Statement (.mulw d a b g) := by
  intro w h; cases h; have := d.isLt; have := a.isLt; have := b.isLt; have := g.isLt; omega
theorem mulwn (d : BitVec 6) (a : BitVec 6) (b : BitVec 6) (g : BitVec 5) : Statement (.mulwn d a b g) := by
  intro w h; cases h; have := d.isLt; have := a.isLt; have := b.isLt; have := g.isLt; omega
theorem addc (d : BitVec 6) (a : BitVec 6) (b : BitVec 6) (g : BitVec 5) : Statement (.addc d a b g) := by
  intro w h; cases h; have := d.isLt; have := a.isLt; have := b.isLt; have := g.isLt; omega
theorem subc (d : BitVec 6) (a : BitVec 6) (b : BitVec 6) (g : BitVec 5) : Statement (.subc d a b g) := by
  intro w h; cases h; have := d.isLt; have := a.isLt; have := b.isLt; have := g.isLt; omega
theorem addi (d : BitVec 6) (a : BitVec 6) (i : BitVec 9) (g : BitVec 5) : Statement (.addi d a i g) := by
  intro w h; cases h; have := d.isLt; have := a.isLt; have := i.isLt; have := g.isLt; omega
theorem andi (d : BitVec 6) (a : BitVec 6) (i : BitVec 9) (g : BitVec 5) : Statement (.andi d a i g) := by
  intro w h; cases h; have := d.isLt; have := a.isLt; have := i.isLt; have := g.isLt; omega
theorem ori (d : BitVec 6) (a : BitVec 6) (i : BitVec 9) (g : BitVec 5) : Statement (.ori d a i g) := by
  intro w h; cases h; have := d.isLt; have := a.isLt; have := i.isLt; have := g.isLt; omega
theorem xori (d : BitVec 6) (a : BitVec 6) (i : BitVec 9) (g : BitVec 5) : Statement (.xori d a i g) := by
  intro w h; cases h; have := d.isLt; have := a.isLt; have := i.isLt; have := g.isLt; omega
theorem shi (d : BitVec 6) (a : BitVec 6) (k : BitVec 2) (n : BitVec 6) (g : BitVec 5) : Statement (.shi d a k n g) := by
  intro w h; cases h; have := d.isLt; have := a.isLt; have := k.isLt; have := n.isLt; have := g.isLt; omega
theorem limm (d : BitVec 6) (i : BitVec 15) (g : BitVec 5) : Statement (.limm d i g) := by
  intro w h; cases h; have := d.isLt; have := i.isLt; have := g.isLt; omega
theorem mov (d : BitVec 6) (a : BitVec 6) (g : BitVec 5) : Statement (.mov d a g) := by
  intro w h; cases h; have := d.isLt; have := a.isLt; have := g.isLt; omega
theorem sel (d : BitVec 6) (a : BitVec 6) (b : BitVec 6) (s : BitVec 5) : Statement (.sel d a b s) := by
  intro w h; cases h; have := d.isLt; have := a.isLt; have := b.isLt; have := s.isLt; omega
theorem sxb (d : BitVec 6) (a : BitVec 6) (g : BitVec 5) : Statement (.sxb d a g) := by
  intro w h; cases h; have := d.isLt; have := a.isLt; have := g.isLt; omega
theorem sxh (d : BitVec 6) (a : BitVec 6) (g : BitVec 5) : Statement (.sxh d a g) := by
  intro w h; cases h; have := d.isLt; have := a.isLt; have := g.isLt; omega
theorem zxb (d : BitVec 6) (a : BitVec 6) (g : BitVec 5) : Statement (.zxb d a g) := by
  intro w h; cases h; have := d.isLt; have := a.isLt; have := g.isLt; omega
theorem zxh (d : BitVec 6) (a : BitVec 6) (g : BitVec 5) : Statement (.zxh d a g) := by
  intro w h; cases h; have := d.isLt; have := a.isLt; have := g.isLt; omega
theorem moder (d : BitVec 6) (g : BitVec 5) : Statement (.moder d g) := by
  intro w h; cases h; have := d.isLt; have := g.isLt; omega
theorem modew (a : BitVec 6) (b : BitVec 6) (g : BitVec 5) : Statement (.modew a b g) := by
  intro w h; cases h; have := a.isLt; have := b.isLt; have := g.isLt; omega
theorem icmpEq (p : BitVec 6) (a : BitVec 6) (b : BitVec 6) (g : BitVec 5) : Statement (.icmpEq p a b g) := by
  intro w h; cases h; have := p.isLt; have := a.isLt; have := b.isLt; have := g.isLt; omega
theorem icmpNe (p : BitVec 6) (a : BitVec 6) (b : BitVec 6) (g : BitVec 5) : Statement (.icmpNe p a b g) := by
  intro w h; cases h; have := p.isLt; have := a.isLt; have := b.isLt; have := g.isLt; omega
theorem icmpLt (p : BitVec 6) (a : BitVec 6) (b : BitVec 6) (g : BitVec 5) : Statement (.icmpLt p a b g) := by
  intro w h; cases h; have := p.isLt; have := a.isLt; have := b.isLt; have := g.isLt; omega
theorem icmpLe (p : BitVec 6) (a : BitVec 6) (b : BitVec 6) (g : BitVec 5) : Statement (.icmpLe p a b g) := by
  intro w h; cases h; have := p.isLt; have := a.isLt; have := b.isLt; have := g.isLt; omega
theorem icmpLtn (p : BitVec 6) (a : BitVec 6) (b : BitVec 6) (g : BitVec 5) : Statement (.icmpLtn p a b g) := by
  intro w h; cases h; have := p.isLt; have := a.isLt; have := b.isLt; have := g.isLt; omega
theorem icmpLen (p : BitVec 6) (a : BitVec 6) (b : BitVec 6) (g : BitVec 5) : Statement (.icmpLen p a b g) := by
  intro w h; cases h; have := p.isLt; have := a.isLt; have := b.isLt; have := g.isLt; omega
theorem icmpBits (p : BitVec 6) (a : BitVec 6) (b : BitVec 6) (g : BitVec 5) : Statement (.icmpBits p a b g) := by
  intro w h; cases h; have := p.isLt; have := a.isLt; have := b.isLt; have := g.isLt; omega
theorem icmpNone (p : BitVec 6) (a : BitVec 6) (b : BitVec 6) (g : BitVec 5) : Statement (.icmpNone p a b g) := by
  intro w h; cases h; have := p.isLt; have := a.isLt; have := b.isLt; have := g.isLt; omega
theorem fcmpEq (p : BitVec 6) (a : BitVec 6) (b : BitVec 6) (g : BitVec 5) : Statement (.fcmpEq p a b g) := by
  intro w h; cases h; have := p.isLt; have := a.isLt; have := b.isLt; have := g.isLt; omega
theorem fcmpNe (p : BitVec 6) (a : BitVec 6) (b : BitVec 6) (g : BitVec 5) : Statement (.fcmpNe p a b g) := by
  intro w h; cases h; have := p.isLt; have := a.isLt; have := b.isLt; have := g.isLt; omega
theorem fcmpLt (p : BitVec 6) (a : BitVec 6) (b : BitVec 6) (g : BitVec 5) : Statement (.fcmpLt p a b g) := by
  intro w h; cases h; have := p.isLt; have := a.isLt; have := b.isLt; have := g.isLt; omega
theorem fcmpLe (p : BitVec 6) (a : BitVec 6) (b : BitVec 6) (g : BitVec 5) : Statement (.fcmpLe p a b g) := by
  intro w h; cases h; have := p.isLt; have := a.isLt; have := b.isLt; have := g.isLt; omega
theorem fcmpGt (p : BitVec 6) (a : BitVec 6) (b : BitVec 6) (g : BitVec 5) : Statement (.fcmpGt p a b g) := by
  intro w h; cases h; have := p.isLt; have := a.isLt; have := b.isLt; have := g.isLt; omega
theorem fcmpGe (p : BitVec 6) (a : BitVec 6) (b : BitVec 6) (g : BitVec 5) : Statement (.fcmpGe p a b g) := by
  intro w h; cases h; have := p.isLt; have := a.isLt; have := b.isLt; have := g.isLt; omega
theorem fcmpUn (p : BitVec 6) (a : BitVec 6) (b : BitVec 6) (g : BitVec 5) : Statement (.fcmpUn p a b g) := by
  intro w h; cases h; have := p.isLt; have := a.isLt; have := b.isLt; have := g.isLt; omega
theorem fcmpOrd (p : BitVec 6) (a : BitVec 6) (b : BitVec 6) (g : BitVec 5) : Statement (.fcmpOrd p a b g) := by
  intro w h; cases h; have := p.isLt; have := a.isLt; have := b.isLt; have := g.isLt; omega
theorem dcmpEq (p : BitVec 6) (a : BitVec 6) (b : BitVec 6) (g : BitVec 5) : Statement (.dcmpEq p a b g) := by
  intro w h; cases h; have := p.isLt; have := a.isLt; have := b.isLt; have := g.isLt; omega
theorem dcmpNe (p : BitVec 6) (a : BitVec 6) (b : BitVec 6) (g : BitVec 5) : Statement (.dcmpNe p a b g) := by
  intro w h; cases h; have := p.isLt; have := a.isLt; have := b.isLt; have := g.isLt; omega
theorem dcmpLt (p : BitVec 6) (a : BitVec 6) (b : BitVec 6) (g : BitVec 5) : Statement (.dcmpLt p a b g) := by
  intro w h; cases h; have := p.isLt; have := a.isLt; have := b.isLt; have := g.isLt; omega
theorem dcmpLe (p : BitVec 6) (a : BitVec 6) (b : BitVec 6) (g : BitVec 5) : Statement (.dcmpLe p a b g) := by
  intro w h; cases h; have := p.isLt; have := a.isLt; have := b.isLt; have := g.isLt; omega
theorem dcmpGt (p : BitVec 6) (a : BitVec 6) (b : BitVec 6) (g : BitVec 5) : Statement (.dcmpGt p a b g) := by
  intro w h; cases h; have := p.isLt; have := a.isLt; have := b.isLt; have := g.isLt; omega
theorem dcmpGe (p : BitVec 6) (a : BitVec 6) (b : BitVec 6) (g : BitVec 5) : Statement (.dcmpGe p a b g) := by
  intro w h; cases h; have := p.isLt; have := a.isLt; have := b.isLt; have := g.isLt; omega
theorem dcmpUn (p : BitVec 6) (a : BitVec 6) (b : BitVec 6) (g : BitVec 5) : Statement (.dcmpUn p a b g) := by
  intro w h; cases h; have := p.isLt; have := a.isLt; have := b.isLt; have := g.isLt; omega
theorem dcmpOrd (p : BitVec 6) (a : BitVec 6) (b : BitVec 6) (g : BitVec 5) : Statement (.dcmpOrd p a b g) := by
  intro w h; cases h; have := p.isLt; have := a.isLt; have := b.isLt; have := g.isLt; omega
theorem plopAnd (p : BitVec 6) (a : BitVec 6) (b : BitVec 6) (g : BitVec 5) : Statement (.plopAnd p a b g) := by
  intro w h; cases h; have := p.isLt; have := a.isLt; have := b.isLt; have := g.isLt; omega
theorem plopOr (p : BitVec 6) (a : BitVec 6) (b : BitVec 6) (g : BitVec 5) : Statement (.plopOr p a b g) := by
  intro w h; cases h; have := p.isLt; have := a.isLt; have := b.isLt; have := g.isLt; omega
theorem plopXor (p : BitVec 6) (a : BitVec 6) (b : BitVec 6) (g : BitVec 5) : Statement (.plopXor p a b g) := by
  intro w h; cases h; have := p.isLt; have := a.isLt; have := b.isLt; have := g.isLt; omega
theorem plopAndn (p : BitVec 6) (a : BitVec 6) (b : BitVec 6) (g : BitVec 5) : Statement (.plopAndn p a b g) := by
  intro w h; cases h; have := p.isLt; have := a.isLt; have := b.isLt; have := g.isLt; omega
theorem plopOrn (p : BitVec 6) (a : BitVec 6) (b : BitVec 6) (g : BitVec 5) : Statement (.plopOrn p a b g) := by
  intro w h; cases h; have := p.isLt; have := a.isLt; have := b.isLt; have := g.isLt; omega
theorem plopNand (p : BitVec 6) (a : BitVec 6) (b : BitVec 6) (g : BitVec 5) : Statement (.plopNand p a b g) := by
  intro w h; cases h; have := p.isLt; have := a.isLt; have := b.isLt; have := g.isLt; omega
theorem plopNor (p : BitVec 6) (a : BitVec 6) (b : BitVec 6) (g : BitVec 5) : Statement (.plopNor p a b g) := by
  intro w h; cases h; have := p.isLt; have := a.isLt; have := b.isLt; have := g.isLt; omega
theorem plopXnor (p : BitVec 6) (a : BitVec 6) (b : BitVec 6) (g : BitVec 5) : Statement (.plopXnor p a b g) := by
  intro w h; cases h; have := p.isLt; have := a.isLt; have := b.isLt; have := g.isLt; omega
theorem p2g (d : BitVec 6) (p : BitVec 6) (g : BitVec 5) : Statement (.p2g d p g) := by
  intro w h; cases h; have := d.isLt; have := p.isLt; have := g.isLt; omega
theorem g2p (p : BitVec 6) (a : BitVec 6) (g : BitVec 5) : Statement (.g2p p a g) := by
  intro w h; cases h; have := p.isLt; have := a.isLt; have := g.isLt; omega
theorem ballot (d : BitVec 6) (p : BitVec 6) (g : BitVec 5) : Statement (.ballot d p g) := by
  intro w h; cases h; have := d.isLt; have := p.isLt; have := g.isLt; omega
theorem anyOp (q : BitVec 6) (p : BitVec 6) (g : BitVec 5) : Statement (.anyOp q p g) := by
  intro w h; cases h; have := q.isLt; have := p.isLt; have := g.isLt; omega
theorem allOp (q : BitVec 6) (p : BitVec 6) (g : BitVec 5) : Statement (.allOp q p g) := by
  intro w h; cases h; have := q.isLt; have := p.isLt; have := g.isLt; omega
theorem uni (p : BitVec 6) (a : BitVec 6) (g : BitVec 5) : Statement (.uni p a g) := by
  intro w h; cases h; have := p.isLt; have := a.isLt; have := g.isLt; omega
theorem pgetw (d : BitVec 6) (n : BitVec 6) (g : BitVec 5) : Statement (.pgetw d n g) := by
  intro w h; cases h; have := d.isLt; have := n.isLt; have := g.isLt; omega
theorem psetw (a : BitVec 6) (n : BitVec 6) (g : BitVec 5) : Statement (.psetw a n g) := by
  intro w h; cases h; have := a.isLt; have := n.isLt; have := g.isLt; omega
theorem fadd (d : BitVec 6) (a : BitVec 6) (b : BitVec 6) (g : BitVec 5) : Statement (.fadd d a b g) := by
  intro w h; cases h; have := d.isLt; have := a.isLt; have := b.isLt; have := g.isLt; omega
theorem fsub (d : BitVec 6) (a : BitVec 6) (b : BitVec 6) (g : BitVec 5) : Statement (.fsub d a b g) := by
  intro w h; cases h; have := d.isLt; have := a.isLt; have := b.isLt; have := g.isLt; omega
theorem fmul (d : BitVec 6) (a : BitVec 6) (b : BitVec 6) (g : BitVec 5) : Statement (.fmul d a b g) := by
  intro w h; cases h; have := d.isLt; have := a.isLt; have := b.isLt; have := g.isLt; omega
theorem ffma (d : BitVec 6) (a : BitVec 6) (b : BitVec 6) (g : BitVec 5) : Statement (.ffma d a b g) := by
  intro w h; cases h; have := d.isLt; have := a.isLt; have := b.isLt; have := g.isLt; omega
theorem ffms (d : BitVec 6) (a : BitVec 6) (b : BitVec 6) (g : BitVec 5) : Statement (.ffms d a b g) := by
  intro w h; cases h; have := d.isLt; have := a.isLt; have := b.isLt; have := g.isLt; omega
theorem fmin (d : BitVec 6) (a : BitVec 6) (b : BitVec 6) (g : BitVec 5) : Statement (.fmin d a b g) := by
  intro w h; cases h; have := d.isLt; have := a.isLt; have := b.isLt; have := g.isLt; omega
theorem fmax (d : BitVec 6) (a : BitVec 6) (b : BitVec 6) (g : BitVec 5) : Statement (.fmax d a b g) := by
  intro w h; cases h; have := d.isLt; have := a.isLt; have := b.isLt; have := g.isLt; omega
theorem fabsn (d : BitVec 6) (a : BitVec 6) (o : BitVec 6) (g : BitVec 5) : Statement (.fabsn d a o g) := by
  intro w h; cases h; have := d.isLt; have := a.isLt; have := o.isLt; have := g.isLt; omega
theorem frcp (d : BitVec 6) (a : BitVec 6) (g : BitVec 5) : Statement (.frcp d a g) := by
  intro w h; cases h; have := d.isLt; have := a.isLt; have := g.isLt; omega
theorem frsq (d : BitVec 6) (a : BitVec 6) (g : BitVec 5) : Statement (.frsq d a g) := by
  intro w h; cases h; have := d.isLt; have := a.isLt; have := g.isLt; omega
theorem fsqrt (d : BitVec 6) (a : BitVec 6) (g : BitVec 5) : Statement (.fsqrt d a g) := by
  intro w h; cases h; have := d.isLt; have := a.isLt; have := g.isLt; omega
theorem fex2 (d : BitVec 6) (a : BitVec 6) (g : BitVec 5) : Statement (.fex2 d a g) := by
  intro w h; cases h; have := d.isLt; have := a.isLt; have := g.isLt; omega
theorem flg2 (d : BitVec 6) (a : BitVec 6) (g : BitVec 5) : Statement (.flg2 d a g) := by
  intro w h; cases h; have := d.isLt; have := a.isLt; have := g.isLt; omega
theorem fsin (d : BitVec 6) (a : BitVec 6) (g : BitVec 5) : Statement (.fsin d a g) := by
  intro w h; cases h; have := d.isLt; have := a.isLt; have := g.isLt; omega
theorem fcos (d : BitVec 6) (a : BitVec 6) (g : BitVec 5) : Statement (.fcos d a g) := by
  intro w h; cases h; have := d.isLt; have := a.isLt; have := g.isLt; omega
theorem frint (d : BitVec 6) (a : BitVec 6) (g : BitVec 5) : Statement (.frint d a g) := by
  intro w h; cases h; have := d.isLt; have := a.isLt; have := g.isLt; omega
theorem dadd (d : BitVec 6) (a : BitVec 6) (b : BitVec 6) (g : BitVec 5) : Statement (.dadd d a b g) := by
  intro w h; cases h; have := d.isLt; have := a.isLt; have := b.isLt; have := g.isLt; omega
theorem dsub (d : BitVec 6) (a : BitVec 6) (b : BitVec 6) (g : BitVec 5) : Statement (.dsub d a b g) := by
  intro w h; cases h; have := d.isLt; have := a.isLt; have := b.isLt; have := g.isLt; omega
theorem dmul (d : BitVec 6) (a : BitVec 6) (b : BitVec 6) (g : BitVec 5) : Statement (.dmul d a b g) := by
  intro w h; cases h; have := d.isLt; have := a.isLt; have := b.isLt; have := g.isLt; omega
theorem dfma (d : BitVec 6) (a : BitVec 6) (b : BitVec 6) (g : BitVec 5) : Statement (.dfma d a b g) := by
  intro w h; cases h; have := d.isLt; have := a.isLt; have := b.isLt; have := g.isLt; omega
theorem dmin (d : BitVec 6) (a : BitVec 6) (b : BitVec 6) (g : BitVec 5) : Statement (.dmin d a b g) := by
  intro w h; cases h; have := d.isLt; have := a.isLt; have := b.isLt; have := g.isLt; omega
theorem dmax (d : BitVec 6) (a : BitVec 6) (b : BitVec 6) (g : BitVec 5) : Statement (.dmax d a b g) := by
  intro w h; cases h; have := d.isLt; have := a.isLt; have := b.isLt; have := g.isLt; omega
theorem dabsn (d : BitVec 6) (a : BitVec 6) (o : BitVec 6) (g : BitVec 5) : Statement (.dabsn d a o g) := by
  intro w h; cases h; have := d.isLt; have := a.isLt; have := o.isLt; have := g.isLt; omega
theorem dsqrt (d : BitVec 6) (a : BitVec 6) (g : BitVec 5) : Statement (.dsqrt d a g) := by
  intro w h; cases h; have := d.isLt; have := a.isLt; have := g.isLt; omega
theorem hadd2 (d : BitVec 6) (a : BitVec 6) (b : BitVec 6) (g : BitVec 5) : Statement (.hadd2 d a b g) := by
  intro w h; cases h; have := d.isLt; have := a.isLt; have := b.isLt; have := g.isLt; omega
theorem hmul2 (d : BitVec 6) (a : BitVec 6) (b : BitVec 6) (g : BitVec 5) : Statement (.hmul2 d a b g) := by
  intro w h; cases h; have := d.isLt; have := a.isLt; have := b.isLt; have := g.isLt; omega
theorem hfma2 (d : BitVec 6) (a : BitVec 6) (b : BitVec 6) (g : BitVec 5) : Statement (.hfma2 d a b g) := by
  intro w h; cases h; have := d.isLt; have := a.isLt; have := b.isLt; have := g.isLt; omega
theorem hmax2 (d : BitVec 6) (a : BitVec 6) (b : BitVec 6) (g : BitVec 5) : Statement (.hmax2 d a b g) := by
  intro w h; cases h; have := d.isLt; have := a.isLt; have := b.isLt; have := g.isLt; omega
theorem badd2 (d : BitVec 6) (a : BitVec 6) (b : BitVec 6) (g : BitVec 5) : Statement (.badd2 d a b g) := by
  intro w h; cases h; have := d.isLt; have := a.isLt; have := b.isLt; have := g.isLt; omega
theorem bmul2 (d : BitVec 6) (a : BitVec 6) (b : BitVec 6) (g : BitVec 5) : Statement (.bmul2 d a b g) := by
  intro w h; cases h; have := d.isLt; have := a.isLt; have := b.isLt; have := g.isLt; omega
theorem bfma2 (d : BitVec 6) (a : BitVec 6) (b : BitVec 6) (g : BitVec 5) : Statement (.bfma2 d a b g) := by
  intro w h; cases h; have := d.isLt; have := a.isLt; have := b.isLt; have := g.isLt; omega
theorem bmax2 (d : BitVec 6) (a : BitVec 6) (b : BitVec 6) (g : BitVec 5) : Statement (.bmax2 d a b g) := by
  intro w h; cases h; have := d.isLt; have := a.isLt; have := b.isLt; have := g.isLt; omega
theorem f2i (d : BitVec 6) (a : BitVec 6) (g : BitVec 5) : Statement (.f2i d a g) := by
  intro w h; cases h; have := d.isLt; have := a.isLt; have := g.isLt; omega
theorem i2f (d : BitVec 6) (a : BitVec 6) (g : BitVec 5) : Statement (.i2f d a g) := by
  intro w h; cases h; have := d.isLt; have := a.isLt; have := g.isLt; omega
theorem f2n (d : BitVec 6) (a : BitVec 6) (g : BitVec 5) : Statement (.f2n d a g) := by
  intro w h; cases h; have := d.isLt; have := a.isLt; have := g.isLt; omega
theorem n2f (d : BitVec 6) (a : BitVec 6) (g : BitVec 5) : Statement (.n2f d a g) := by
  intro w h; cases h; have := d.isLt; have := a.isLt; have := g.isLt; omega
theorem f2d (d : BitVec 6) (a : BitVec 6) (g : BitVec 5) : Statement (.f2d d a g) := by
  intro w h; cases h; have := d.isLt; have := a.isLt; have := g.isLt; omega
theorem d2f (d : BitVec 6) (a : BitVec 6) (g : BitVec 5) : Statement (.d2f d a g) := by
  intro w h; cases h; have := d.isLt; have := a.isLt; have := g.isLt; omega
theorem f2h2 (d : BitVec 6) (a : BitVec 6) (b : BitVec 6) (g : BitVec 5) : Statement (.f2h2 d a b g) := by
  intro w h; cases h; have := d.isLt; have := a.isLt; have := b.isLt; have := g.isLt; omega
theorem f2b2 (d : BitVec 6) (a : BitVec 6) (b : BitVec 6) (g : BitVec 5) : Statement (.f2b2 d a b g) := by
  intro w h; cases h; have := d.isLt; have := a.isLt; have := b.isLt; have := g.isLt; omega
theorem h2f (d : BitVec 6) (a : BitVec 6) (g : BitVec 5) : Statement (.h2f d a g) := by
  intro w h; cases h; have := d.isLt; have := a.isLt; have := g.isLt; omega
theorem b2f (d : BitVec 6) (a : BitVec 6) (g : BitVec 5) : Statement (.b2f d a g) := by
  intro w h; cases h; have := d.isLt; have := a.isLt; have := g.isLt; omega
theorem d2i (d : BitVec 6) (a : BitVec 6) (g : BitVec 5) : Statement (.d2i d a g) := by
  intro w h; cases h; have := d.isLt; have := a.isLt; have := g.isLt; omega
theorem i2d (d : BitVec 6) (a : BitVec 6) (g : BitVec 5) : Statement (.i2d d a g) := by
  intro w h; cases h; have := d.isLt; have := a.isLt; have := g.isLt; omega
theorem f2k (d : BitVec 6) (a : BitVec 6) (b : BitVec 6) (g : BitVec 5) : Statement (.f2k d a b g) := by
  intro w h; cases h; have := d.isLt; have := a.isLt; have := b.isLt; have := g.isLt; omega
theorem k2f (d : BitVec 6) (a : BitVec 6) (h : BitVec 6) (g : BitVec 5) : Statement (.k2f d a h g) := by
  intro w h; cases h; have := d.isLt; have := a.isLt; have := h.isLt; have := g.isLt; omega
theorem shfli (d : BitVec 6) (a : BitVec 6) (b : BitVec 6) (g : BitVec 5) : Statement (.shfli d a b g) := by
  intro w h; cases h; have := d.isLt; have := a.isLt; have := b.isLt; have := g.isLt; omega
theorem shflu (d : BitVec 6) (a : BitVec 6) (k : BitVec 6) (g : BitVec 5) : Statement (.shflu d a k g) := by
  intro w h; cases h; have := d.isLt; have := a.isLt; have := k.isLt; have := g.isLt; omega
theorem shfld (d : BitVec 6) (a : BitVec 6) (k : BitVec 6) (g : BitVec 5) : Statement (.shfld d a k g) := by
  intro w h; cases h; have := d.isLt; have := a.isLt; have := k.isLt; have := g.isLt; omega
theorem shflx (d : BitVec 6) (a : BitVec 6) (k : BitVec 6) (g : BitVec 5) : Statement (.shflx d a k g) := by
  intro w h; cases h; have := d.isLt; have := a.isLt; have := k.isLt; have := g.isLt; omega
theorem confl (d : BitVec 6) (a : BitVec 6) (g : BitVec 5) : Statement (.confl d a g) := by
  intro w h; cases h; have := d.isLt; have := a.isLt; have := g.isLt; omega
theorem matchOp (d : BitVec 6) (a : BitVec 6) (g : BitVec 5) : Statement (.matchOp d a g) := by
  intro w h; cases h; have := d.isLt; have := a.isLt; have := g.isLt; omega
theorem bcast (d : BitVec 6) (a : BitVec 6) (k : BitVec 6) (g : BitVec 5) : Statement (.bcast d a k g) := by
  intro w h; cases h; have := d.isLt; have := a.isLt; have := k.isLt; have := g.isLt; omega
theorem iredadd (d : BitVec 6) (a : BitVec 6) (g : BitVec 5) : Statement (.iredadd d a g) := by
  intro w h; cases h; have := d.isLt; have := a.isLt; have := g.isLt; omega
theorem iredmin (d : BitVec 6) (a : BitVec 6) (g : BitVec 5) : Statement (.iredmin d a g) := by
  intro w h; cases h; have := d.isLt; have := a.isLt; have := g.isLt; omega
theorem iredmax (d : BitVec 6) (a : BitVec 6) (g : BitVec 5) : Statement (.iredmax d a g) := by
  intro w h; cases h; have := d.isLt; have := a.isLt; have := g.isLt; omega
theorem iredor (d : BitVec 6) (a : BitVec 6) (g : BitVec 5) : Statement (.iredor d a g) := by
  intro w h; cases h; have := d.isLt; have := a.isLt; have := g.isLt; omega
theorem iredand (d : BitVec 6) (a : BitVec 6) (g : BitVec 5) : Statement (.iredand d a g) := by
  intro w h; cases h; have := d.isLt; have := a.isLt; have := g.isLt; omega
theorem fredadd (d : BitVec 6) (a : BitVec 6) (g : BitVec 5) : Statement (.fredadd d a g) := by
  intro w h; cases h; have := d.isLt; have := a.isLt; have := g.isLt; omega
theorem fredmin (d : BitVec 6) (a : BitVec 6) (g : BitVec 5) : Statement (.fredmin d a g) := by
  intro w h; cases h; have := d.isLt; have := a.isLt; have := g.isLt; omega
theorem fredmax (d : BitVec 6) (a : BitVec 6) (g : BitVec 5) : Statement (.fredmax d a g) := by
  intro w h; cases h; have := d.isLt; have := a.isLt; have := g.isLt; omega
theorem iscan (d : BitVec 6) (a : BitVec 6) (g : BitVec 5) : Statement (.iscan d a g) := by
  intro w h; cases h; have := d.isLt; have := a.isLt; have := g.isLt; omega
theorem iscanx (d : BitVec 6) (a : BitVec 6) (g : BitVec 5) : Statement (.iscanx d a g) := by
  intro w h; cases h; have := d.isLt; have := a.isLt; have := g.isLt; omega
theorem fscan (d : BitVec 6) (a : BitVec 6) (g : BitVec 5) : Statement (.fscan d a g) := by
  intro w h; cases h; have := d.isLt; have := a.isLt; have := g.isLt; omega
theorem fscanx (d : BitVec 6) (a : BitVec 6) (g : BitVec 5) : Statement (.fscanx d a g) := by
  intro w h; cases h; have := d.isLt; have := a.isLt; have := g.isLt; omega
theorem iscanmax (d : BitVec 6) (a : BitVec 6) (g : BitVec 5) : Statement (.iscanmax d a g) := by
  intro w h; cases h; have := d.isLt; have := a.isLt; have := g.isLt; omega
theorem iscanor (d : BitVec 6) (a : BitVec 6) (g : BitVec 5) : Statement (.iscanor d a g) := by
  intro w h; cases h; have := d.isLt; have := a.isLt; have := g.isLt; omega
theorem lbind (a : BitVec 6) (k : BitVec 6) (g : BitVec 5) : Statement (.lbind a k g) := by
  intro w h; cases h; have := a.isLt; have := k.isLt; have := g.isLt; omega
theorem lfree (g : BitVec 5) : Statement (.lfree g) := by
  intro w h; cases h; have := g.isLt; omega
theorem ladd (d : BitVec 6) (a : BitVec 6) (b : BitVec 6) (g : BitVec 5) : Statement (.ladd d a b g) := by
  intro w h; cases h; have := d.isLt; have := a.isLt; have := b.isLt; have := g.isLt; omega
theorem lsub (d : BitVec 6) (a : BitVec 6) (b : BitVec 6) (g : BitVec 5) : Statement (.lsub d a b g) := by
  intro w h; cases h; have := d.isLt; have := a.isLt; have := b.isLt; have := g.isLt; omega
theorem lneg (d : BitVec 6) (a : BitVec 6) (g : BitVec 5) : Statement (.lneg d a g) := by
  intro w h; cases h; have := d.isLt; have := a.isLt; have := g.isLt; omega
theorem lshl (d : BitVec 6) (a : BitVec 6) (b : BitVec 6) (g : BitVec 5) : Statement (.lshl d a b g) := by
  intro w h; cases h; have := d.isLt; have := a.isLt; have := b.isLt; have := g.isLt; omega
theorem lshr (d : BitVec 6) (a : BitVec 6) (b : BitVec 6) (g : BitVec 5) : Statement (.lshr d a b g) := by
  intro w h; cases h; have := d.isLt; have := a.isLt; have := b.isLt; have := g.isLt; omega
theorem lcmp (d : BitVec 6) (a : BitVec 6) (b : BitVec 6) (g : BitVec 5) : Statement (.lcmp d a b g) := by
  intro w h; cases h; have := d.isLt; have := a.isLt; have := b.isLt; have := g.isLt; omega
theorem lmuls (d : BitVec 6) (a : BitVec 6) (b : BitVec 6) (g : BitVec 5) : Statement (.lmuls d a b g) := by
  intro w h; cases h; have := d.isLt; have := a.isLt; have := b.isLt; have := g.isLt; omega
theorem ldep (d : BitVec 6) (a : BitVec 6) (g : BitVec 5) : Statement (.ldep d a g) := by
  intro w h; cases h; have := d.isLt; have := a.isLt; have := g.isLt; omega
theorem ldepd (d : BitVec 6) (a : BitVec 6) (g : BitVec 5) : Statement (.ldepd d a g) := by
  intro w h; cases h; have := d.isLt; have := a.isLt; have := g.isLt; omega
theorem lrnd (d : BitVec 6) (a : BitVec 6) (g : BitVec 5) : Statement (.lrnd d a g) := by
  intro w h; cases h; have := d.isLt; have := a.isLt; have := g.isLt; omega
theorem lrndd (d : BitVec 6) (a : BitVec 6) (g : BitVec 5) : Statement (.lrndd d a g) := by
  intro w h; cases h; have := d.isLt; have := a.isLt; have := g.isLt; omega
theorem ltop (d : BitVec 6) (a : BitVec 6) (g : BitVec 5) : Statement (.ltop d a g) := by
  intro w h; cases h; have := d.isLt; have := a.isLt; have := g.isLt; omega
theorem lstat (d : BitVec 6) (g : BitVec 5) : Statement (.lstat d g) := by
  intro w h; cases h; have := d.isLt; have := g.isLt; omega
theorem lclr (m : BitVec 6) (g : BitVec 5) : Statement (.lclr m g) := by
  intro w h; cases h; have := m.isLt; have := g.isLt; omega
theorem bra (o : BitVec 18) (g : BitVec 5) : Statement (.bra o g) := by
  intro w h; cases h; have := o.isLt; have := g.isLt; omega
theorem call (o : BitVec 18) (g : BitVec 5) : Statement (.call o g) := by
  intro w h; cases h; have := o.isLt; have := g.isLt; omega
theorem split (o : BitVec 18) (g : BitVec 5) : Statement (.split o g) := by
  intro w h; cases h; have := o.isLt; have := g.isLt; omega
theorem join (g : BitVec 5) : Statement (.join g) := by
  intro w h; cases h; have := g.isLt; omega
theorem brk (n : BitVec 4) (o : BitVec 14) (g : BitVec 5) : Statement (.brk n o g) := by
  intro w h; cases h; have := n.isLt; have := o.isLt; have := g.isLt; omega
theorem yield (g : BitVec 5) : Statement (.yield g) := by
  intro w h; cases h; have := g.isLt; omega
theorem endOp (g : BitVec 5) : Statement (.endOp g) := by
  intro w h; cases h; have := g.isLt; omega
theorem nop (g : BitVec 5) : Statement (.nop g) := by
  intro w h; cases h; have := g.isLt; omega
theorem jmp (a : BitVec 6) (g : BitVec 5) : Statement (.jmp a g) := by
  intro w h; cases h; have := a.isLt; have := g.isLt; omega
theorem callr (d : BitVec 6) (a : BitVec 6) (g : BitVec 5) : Statement (.callr d a g) := by
  intro w h; cases h; have := d.isLt; have := a.isLt; have := g.isLt; omega
theorem ret (a : BitVec 6) (g : BitVec 5) : Statement (.ret a g) := by
  intro w h; cases h; have := a.isLt; have := g.isLt; omega
theorem reform (a : BitVec 6) (n : BitVec 6) (g : BitVec 5) : Statement (.reform a n g) := by
  intro w h; cases h; have := a.isLt; have := n.isLt; have := g.isLt; omega
theorem loop (a : BitVec 6) (n : BitVec 6) (g : BitVec 5) : Statement (.loop a n g) := by
  intro w h; cases h; have := a.isLt; have := n.isLt; have := g.isLt; omega
theorem repeatOp (n : BitVec 6) (g : BitVec 5) : Statement (.repeatOp n g) := by
  intro w h; cases h; have := n.isLt; have := g.isLt; omega
theorem qmap (d : BitVec 6) (a : BitVec 6) (b : BitVec 6) (g : BitVec 5) : Statement (.qmap d a b g) := by
  intro w h; cases h; have := d.isLt; have := a.isLt; have := b.isLt; have := g.isLt; omega
theorem qstat (d : BitVec 6) (a : BitVec 6) (g : BitVec 5) : Statement (.qstat d a g) := by
  intro w h; cases h; have := d.isLt; have := a.isLt; have := g.isLt; omega
theorem ldl (t : BitVec 6) (b : BitVec 6) (o : BitVec 7) (s : BitVec 2) (g : BitVec 5) : Statement (.ldl t b o s g) := by
  intro w h; cases h; have := t.isLt; have := b.isLt; have := o.isLt; have := s.isLt; have := g.isLt; omega
theorem stl (t : BitVec 6) (b : BitVec 6) (o : BitVec 7) (s : BitVec 2) (g : BitVec 5) : Statement (.stl t b o s g) := by
  intro w h; cases h; have := t.isLt; have := b.isLt; have := o.isLt; have := s.isLt; have := g.isLt; omega
theorem ldc (t : BitVec 6) (b : BitVec 6) (o : BitVec 7) (s : BitVec 2) (g : BitVec 5) : Statement (.ldc t b o s g) := by
  intro w h; cases h; have := t.isLt; have := b.isLt; have := o.isLt; have := s.isLt; have := g.isLt; omega
theorem stc (t : BitVec 6) (b : BitVec 6) (o : BitVec 7) (s : BitVec 2) (g : BitVec 5) : Statement (.stc t b o s g) := by
  intro w h; cases h; have := t.isLt; have := b.isLt; have := o.isLt; have := s.isLt; have := g.isLt; omega
theorem aadd (d : BitVec 6) (a : BitVec 6) (b : BitVec 6) (g : BitVec 5) : Statement (.aadd d a b g) := by
  intro w h; cases h; have := d.isLt; have := a.isLt; have := b.isLt; have := g.isLt; omega
theorem amin (d : BitVec 6) (a : BitVec 6) (b : BitVec 6) (g : BitVec 5) : Statement (.amin d a b g) := by
  intro w h; cases h; have := d.isLt; have := a.isLt; have := b.isLt; have := g.isLt; omega
theorem amax (d : BitVec 6) (a : BitVec 6) (b : BitVec 6) (g : BitVec 5) : Statement (.amax d a b g) := by
  intro w h; cases h; have := d.isLt; have := a.isLt; have := b.isLt; have := g.isLt; omega
theorem aand (d : BitVec 6) (a : BitVec 6) (b : BitVec 6) (g : BitVec 5) : Statement (.aand d a b g) := by
  intro w h; cases h; have := d.isLt; have := a.isLt; have := b.isLt; have := g.isLt; omega
theorem aor (d : BitVec 6) (a : BitVec 6) (b : BitVec 6) (g : BitVec 5) : Statement (.aor d a b g) := by
  intro w h; cases h; have := d.isLt; have := a.isLt; have := b.isLt; have := g.isLt; omega
theorem axor (d : BitVec 6) (a : BitVec 6) (b : BitVec 6) (g : BitVec 5) : Statement (.axor d a b g) := by
  intro w h; cases h; have := d.isLt; have := a.isLt; have := b.isLt; have := g.isLt; omega
theorem axch (d : BitVec 6) (a : BitVec 6) (b : BitVec 6) (g : BitVec 5) : Statement (.axch d a b g) := by
  intro w h; cases h; have := d.isLt; have := a.isLt; have := b.isLt; have := g.isLt; omega
theorem afadd (d : BitVec 6) (a : BitVec 6) (b : BitVec 6) (g : BitVec 5) : Statement (.afadd d a b g) := by
  intro w h; cases h; have := d.isLt; have := a.isLt; have := b.isLt; have := g.isLt; omega
theorem acas (d : BitVec 6) (a : BitVec 6) (b : BitVec 6) (g : BitVec 5) : Statement (.acas d a b g) := by
  intro w h; cases h; have := d.isLt; have := a.isLt; have := b.isLt; have := g.isLt; omega
theorem watch (a : BitVec 6) (g : BitVec 5) : Statement (.watch a g) := by
  intro w h; cases h; have := a.isLt; have := g.isLt; omega
theorem unwatch (a : BitVec 6) (g : BitVec 5) : Statement (.unwatch a g) := by
  intro w h; cases h; have := a.isLt; have := g.isLt; omega
theorem waitw (d : BitVec 6) (a : BitVec 6) (b : BitVec 6) (g : BitVec 5) : Statement (.waitw d a b g) := by
  intro w h; cases h; have := d.isLt; have := a.isLt; have := b.isLt; have := g.isLt; omega
theorem waitge (d : BitVec 6) (a : BitVec 6) (b : BitVec 6) (g : BitVec 5) : Statement (.waitge d a b g) := by
  intro w h; cases h; have := d.isLt; have := a.isLt; have := b.isLt; have := g.isLt; omega
theorem fence (g : BitVec 5) : Statement (.fence g) := by
  intro w h; cases h; have := g.isLt; omega
theorem ldx (d : BitVec 6) (a : BitVec 6) (b : BitVec 6) (g : BitVec 5) : Statement (.ldx d a b g) := by
  intro w h; cases h; have := d.isLt; have := a.isLt; have := b.isLt; have := g.isLt; omega
theorem stx (d : BitVec 6) (a : BitVec 6) (b : BitVec 6) (g : BitVec 5) : Statement (.stx d a b g) := by
  intro w h; cases h; have := d.isLt; have := a.isLt; have := b.isLt; have := g.isLt; omega
theorem cstr (d : BitVec 6) (a : BitVec 6) (b : BitVec 6) (g : BitVec 5) : Statement (.cstr d a b g) := by
  intro w h; cases h; have := d.isLt; have := a.isLt; have := b.isLt; have := g.isLt; omega
theorem xlde (d : BitVec 6) (a : BitVec 6) (g : BitVec 5) : Statement (.xlde d a g) := by
  intro w h; cases h; have := d.isLt; have := a.isLt; have := g.isLt; omega
theorem ldt (d : BitVec 6) (a : BitVec 6) (b : BitVec 6) (g : BitVec 5) : Statement (.ldt d a b g) := by
  intro w h; cases h; have := d.isLt; have := a.isLt; have := b.isLt; have := g.isLt; omega
theorem bldl (d : BitVec 6) (a : BitVec 6) (b : BitVec 6) (g : BitVec 5) : Statement (.bldl d a b g) := by
  intro w h; cases h; have := d.isLt; have := a.isLt; have := b.isLt; have := g.isLt; omega
theorem haul (a : BitVec 6) (b : BitVec 6) (q : BitVec 2) (g : BitVec 5) : Statement (.haul a b q g) := by
  intro w h; cases h; have := a.isLt; have := b.isLt; have := q.isLt; have := g.isLt; omega
theorem stow (a : BitVec 6) (b : BitVec 6) (q : BitVec 2) (g : BitVec 5) : Statement (.stow a b q g) := by
  intro w h; cases h; have := a.isLt; have := b.isLt; have := q.isLt; have := g.isLt; omega
theorem haul2 (a : BitVec 6) (b : BitVec 6) (q : BitVec 2) (g : BitVec 5) : Statement (.haul2 a b q g) := by
  intro w h; cases h; have := a.isLt; have := b.isLt; have := q.isLt; have := g.isLt; omega
theorem stow2 (a : BitVec 6) (b : BitVec 6) (q : BitVec 2) (g : BitVec 5) : Statement (.stow2 a b q g) := by
  intro w h; cases h; have := a.isLt; have := b.isLt; have := q.isLt; have := g.isLt; omega
theorem hault (a : BitVec 6) (b : BitVec 6) (q : BitVec 2) (g : BitVec 5) : Statement (.hault a b q g) := by
  intro w h; cases h; have := a.isLt; have := b.isLt; have := q.isLt; have := g.isLt; omega
theorem qfence (m : BitVec 4) (g : BitVec 5) : Statement (.qfence m g) := by
  intro w h; cases h; have := m.isLt; have := g.isLt; omega
theorem cbump (a : BitVec 6) (b : BitVec 6) (q : BitVec 2) (g : BitVec 5) : Statement (.cbump a b q g) := by
  intro w h; cases h; have := a.isLt; have := b.isLt; have := q.isLt; have := g.isLt; omega
theorem xstat (a : BitVec 6) (q : BitVec 2) (g : BitVec 5) : Statement (.xstat a q g) := by
  intro w h; cases h; have := a.isLt; have := q.isLt; have := g.isLt; omega
theorem claim (a : BitVec 6) (b : BitVec 6) (g : BitVec 5) : Statement (.claim a b g) := by
  intro w h; cases h; have := a.isLt; have := b.isLt; have := g.isLt; omega
theorem release (a : BitVec 6) (g : BitVec 5) : Statement (.release a g) := by
  intro w h; cases h; have := a.isLt; have := g.isLt; omega
theorem tstat (a : BitVec 6) (s : BitVec 6) (g : BitVec 5) : Statement (.tstat a s g) := by
  intro w h; cases h; have := a.isLt; have := s.isLt; have := g.isLt; omega
theorem tfill (a : BitVec 6) (b : BitVec 6) (g : BitVec 5) : Statement (.tfill a b g) := by
  intro w h; cases h; have := a.isLt; have := b.isLt; have := g.isLt; omega
theorem tdrain (a : BitVec 6) (b : BitVec 6) (g : BitVec 5) : Statement (.tdrain a b g) := by
  intro w h; cases h; have := a.isLt; have := b.isLt; have := g.isLt; omega
theorem cvtom (a : BitVec 6) (s : BitVec 6) (c : BitVec 4) (g : BitVec 5) : Statement (.cvtom a s c g) := by
  intro w h; cases h; have := a.isLt; have := s.isLt; have := c.isLt; have := g.isLt; omega
theorem accz (c : BitVec 2) (g : BitVec 5) : Statement (.accz c g) := by
  intro w h; cases h; have := c.isLt; have := g.isLt; omega
theorem accrd (a : BitVec 6) (h : BitVec 3) (c : BitVec 2) (g : BitVec 5) : Statement (.accrd a h c g) := by
  intro w h; cases h; have := a.isLt; have := h.isLt; have := c.isLt; have := g.isLt; omega
theorem accwr (a : BitVec 6) (h : BitVec 3) (c : BitVec 2) (g : BitVec 5) : Statement (.accwr a h c g) := by
  intro w h; cases h; have := a.isLt; have := h.isLt; have := c.isLt; have := g.isLt; omega
theorem commit (a : BitVec 6) (g : BitVec 5) : Statement (.commit a g) := by
  intro w h; cases h; have := a.isLt; have := g.isLt; omega
theorem waitb (a : BitVec 6) (g : BitVec 5) : Statement (.waitb a g) := by
  intro w h; cases h; have := a.isLt; have := g.isLt; omega
theorem splice (s : BitVec 6) (m : BitVec 2) (g : BitVec 5) : Statement (.splice s m g) := by
  intro w h; cases h; have := s.isLt; have := m.isLt; have := g.isLt; omega
theorem mma (a : BitVec 6) (b : BitVec 6) (c : BitVec 2) (g : BitVec 5) : Statement (.mma a b c g) := by
  intro w h; cases h; have := a.isLt; have := b.isLt; have := c.isLt; have := g.isLt; omega
theorem mmat (a : BitVec 6) (b : BitVec 6) (c : BitVec 2) (g : BitVec 5) : Statement (.mmat a b c g) := by
  intro w h; cases h; have := a.isLt; have := b.isLt; have := c.isLt; have := g.isLt; omega
theorem mmss (a : BitVec 6) (b : BitVec 6) (q : BitVec 2) (c : BitVec 2) (g : BitVec 5) : Statement (.mmss a b q c g) := by
  intro w h; cases h; have := a.isLt; have := b.isLt; have := q.isLt; have := c.isLt; have := g.isLt; omega
theorem mmas (a : BitVec 6) (b : BitVec 6) (t : BitVec 1) (f : BitVec 1) (c : BitVec 2) (g : BitVec 5) : Statement (.mmas a b t f c g) := by
  intro w h; cases h; have := a.isLt; have := b.isLt; have := t.isLt; have := f.isLt; have := c.isLt; have := g.isLt; omega
theorem pstat (a : BitVec 6) (s : BitVec 6) (g : BitVec 5) : Statement (.pstat a s g) := by
  intro w h; cases h; have := a.isLt; have := s.isLt; have := g.isLt; omega
theorem pinv (s : BitVec 6) (g : BitVec 5) : Statement (.pinv s g) := by
  intro w h; cases h; have := s.isLt; have := g.isLt; omega
theorem gather (d : BitVec 6) (a : BitVec 6) (b : BitVec 6) (g : BitVec 5) : Statement (.gather d a b g) := by
  intro w h; cases h; have := d.isLt; have := a.isLt; have := b.isLt; have := g.isLt; omega
theorem scatter (d : BitVec 6) (a : BitVec 6) (b : BitVec 6) (g : BitVec 5) : Statement (.scatter d a b g) := by
  intro w h; cases h; have := d.isLt; have := a.isLt; have := b.isLt; have := g.isLt; omega
theorem scadd (d : BitVec 6) (a : BitVec 6) (b : BitVec 6) (g : BitVec 5) : Statement (.scadd d a b g) := by
  intro w h; cases h; have := d.isLt; have := a.isLt; have := b.isLt; have := g.isLt; omega
theorem scfadd (d : BitVec 6) (a : BitVec 6) (b : BitVec 6) (g : BitVec 5) : Statement (.scfadd d a b g) := by
  intro w h; cases h; have := d.isLt; have := a.isLt; have := b.isLt; have := g.isLt; omega
theorem scmin (d : BitVec 6) (a : BitVec 6) (b : BitVec 6) (g : BitVec 5) : Statement (.scmin d a b g) := by
  intro w h; cases h; have := d.isLt; have := a.isLt; have := b.isLt; have := g.isLt; omega
theorem scmax (d : BitVec 6) (a : BitVec 6) (b : BitVec 6) (g : BitVec 5) : Statement (.scmax d a b g) := by
  intro w h; cases h; have := d.isLt; have := a.isLt; have := b.isLt; have := g.isLt; omega
theorem hacc (d : BitVec 6) (a : BitVec 6) (b : BitVec 6) (g : BitVec 5) : Statement (.hacc d a b g) := by
  intro w h; cases h; have := d.isLt; have := a.isLt; have := b.isLt; have := g.isLt; omega
theorem hfind (d : BitVec 6) (a : BitVec 6) (b : BitVec 6) (g : BitVec 5) : Statement (.hfind d a b g) := by
  intro w h; cases h; have := d.isLt; have := a.isLt; have := b.isLt; have := g.isLt; omega
theorem send (a : BitVec 6) (b : BitVec 6) (g : BitVec 5) : Statement (.send a b g) := by
  intro w h; cases h; have := a.isLt; have := b.isLt; have := g.isLt; omega
theorem hbind (a : BitVec 6) (b : BitVec 6) (g : BitVec 5) : Statement (.hbind a b g) := by
  intro w h; cases h; have := a.isLt; have := b.isLt; have := g.isLt; omega
theorem hunbind (a : BitVec 6) (g : BitVec 5) : Statement (.hunbind a g) := by
  intro w h; cases h; have := a.isLt; have := g.isLt; omega
theorem hdone (g : BitVec 5) : Statement (.hdone g) := by
  intro w h; cases h; have := g.isLt; omega
theorem mpost (a : BitVec 6) (b : BitVec 6) (m : BitVec 5) (g : BitVec 5) : Statement (.mpost a b m g) := by
  intro w h; cases h; have := a.isLt; have := b.isLt; have := m.isLt; have := g.isLt; omega
theorem mtake (a : BitVec 6) (m : BitVec 5) (g : BitVec 5) : Statement (.mtake a m g) := by
  intro w h; cases h; have := a.isLt; have := m.isLt; have := g.isLt; omega
theorem maskon (g : BitVec 5) : Statement (.maskon g) := by
  intro w h; cases h; have := g.isLt; omega
theorem maskoff (g : BitVec 5) : Statement (.maskoff g) := by
  intro w h; cases h; have := g.isLt; omega
theorem wsplit (a : BitVec 6) (g : BitVec 5) : Statement (.wsplit a g) := by
  intro w h; cases h; have := a.isLt; have := g.isLt; omega
theorem wret (a : BitVec 6) (b : BitVec 6) (g : BitVec 5) : Statement (.wret a b g) := by
  intro w h; cases h; have := a.isLt; have := b.isLt; have := g.isLt; omega
theorem rsend (a : BitVec 6) (b : BitVec 6) (g : BitVec 5) : Statement (.rsend a b g) := by
  intro w h; cases h; have := a.isLt; have := b.isLt; have := g.isLt; omega
theorem rld (a : BitVec 6) (b : BitVec 6) (g : BitVec 5) : Statement (.rld a b g) := by
  intro w h; cases h; have := a.isLt; have := b.isLt; have := g.isLt; omega
theorem rbox4 (a : BitVec 6) (b : BitVec 6) (f : BitVec 5) (g : BitVec 5) : Statement (.rbox4 a b f g) := by
  intro w h; cases h; have := a.isLt; have := b.isLt; have := f.isLt; have := g.isLt; omega
theorem rtri (a : BitVec 6) (b : BitVec 6) (f : BitVec 5) (g : BitVec 5) : Statement (.rtri a b f g) := by
  intro w h; cases h; have := a.isLt; have := b.isLt; have := f.isLt; have := g.isLt; omega
theorem rhit (a : BitVec 6) (b : BitVec 6) (g : BitVec 5) : Statement (.rhit a b g) := by
  intro w h; cases h; have := a.isLt; have := b.isLt; have := g.isLt; omega
theorem town (a : BitVec 6) (b : BitVec 6) (g : BitVec 5) : Statement (.town a b g) := by
  intro w h; cases h; have := a.isLt; have := b.isLt; have := g.isLt; omega
theorem tpin (a : BitVec 6) (b : BitVec 6) (g : BitVec 5) : Statement (.tpin a b g) := by
  intro w h; cases h; have := a.isLt; have := b.isLt; have := g.isLt; omega
theorem tevict (a : BitVec 6) (g : BitVec 5) : Statement (.tevict a g) := by
  intro w h; cases h; have := a.isLt; have := g.isLt; omega
theorem bar (i : BitVec 6) (s : BitVec 3) (g : BitVec 5) : Statement (.bar i s g) := by
  intro w h; cases h; have := i.isLt; have := s.isLt; have := g.isLt; omega
theorem bara (a : BitVec 6) (i : BitVec 6) (s : BitVec 3) (g : BitVec 5) : Statement (.bara a i s g) := by
  intro w h; cases h; have := a.isLt; have := i.isLt; have := s.isLt; have := g.isLt; omega
theorem barw (a : BitVec 6) (i : BitVec 6) (s : BitVec 3) (g : BitVec 5) : Statement (.barw a i s g) := by
  intro w h; cases h; have := a.isLt; have := i.isLt; have := s.isLt; have := g.isLt; omega
theorem barinit (a : BitVec 6) (i : BitVec 6) (s : BitVec 3) (g : BitVec 5) : Statement (.barinit a i s g) := by
  intro w h; cases h; have := a.isLt; have := i.isLt; have := s.isLt; have := g.isLt; omega
theorem cntsum (a : BitVec 6) (i : BitVec 6) (s : BitVec 3) (g : BitVec 5) : Statement (.cntsum a i s g) := by
  intro w h; cases h; have := a.isLt; have := i.isLt; have := s.isLt; have := g.isLt; omega
theorem launch (a : BitVec 6) (b : BitVec 6) (g : BitVec 5) : Statement (.launch a b g) := by
  intro w h; cases h; have := a.isLt; have := b.isLt; have := g.isLt; omega
theorem kwait (a : BitVec 6) (g : BitVec 5) : Statement (.kwait a g) := by
  intro w h; cases h; have := a.isLt; have := g.isLt; omega
theorem kstat (a : BitVec 6) (b : BitVec 6) (g : BitVec 5) : Statement (.kstat a b g) := by
  intro w h; cases h; have := a.isLt; have := b.isLt; have := g.isLt; omega
theorem trap (g : BitVec 5) : Statement (.trap g) := by
  intro w h; cases h; have := g.isLt; omega
theorem rte (g : BitVec 5) : Statement (.rte g) := by
  intro w h; cases h; have := g.isLt; omega
theorem sysr (a : BitVec 6) (g : BitVec 5) : Statement (.sysr a g) := by
  intro w h; cases h; have := a.isLt; have := g.isLt; omega
theorem sysw (a : BitVec 6) (g : BitVec 5) : Statement (.sysw a g) := by
  intro w h; cases h; have := a.isLt; have := g.isLt; omega
theorem l2wb (a : BitVec 6) (b : BitVec 6) (g : BitVec 5) : Statement (.l2wb a b g) := by
  intro w h; cases h; have := a.isLt; have := b.isLt; have := g.isLt; omega
theorem l2inv (a : BitVec 6) (b : BitVec 6) (g : BitVec 5) : Statement (.l2inv a b g) := by
  intro w h; cases h; have := a.isLt; have := b.isLt; have := g.isLt; omega
theorem tsinv (a : BitVec 6) (b : BitVec 6) (g : BitVec 5) : Statement (.tsinv a b g) := by
  intro w h; cases h; have := a.isLt; have := b.isLt; have := g.isLt; omega
theorem lspin (a : BitVec 6) (b : BitVec 6) (g : BitVec 5) : Statement (.lspin a b g) := by
  intro w h; cases h; have := a.isLt; have := b.isLt; have := g.isLt; omega
theorem lsunpin (a : BitVec 6) (b : BitVec 6) (g : BitVec 5) : Statement (.lsunpin a b g) := by
  intro w h; cases h; have := a.isLt; have := b.isLt; have := g.isLt; omega
theorem halt (a : BitVec 6) (g : BitVec 5) : Statement (.halt a g) := by
  intro w h; cases h; have := a.isLt; have := g.isLt; omega
theorem csaveCreate (a : BitVec 6) (b : BitVec 6) (g : BitVec 5) : Statement (.csaveCreate a b g) := by
  intro w h; cases h; have := a.isLt; have := b.isLt; have := g.isLt; omega
theorem csavePlace (a : BitVec 6) (b : BitVec 6) (g : BitVec 5) : Statement (.csavePlace a b g) := by
  intro w h; cases h; have := a.isLt; have := b.isLt; have := g.isLt; omega
theorem csaveSave (a : BitVec 6) (b : BitVec 6) (g : BitVec 5) : Statement (.csaveSave a b g) := by
  intro w h; cases h; have := a.isLt; have := b.isLt; have := g.isLt; omega
theorem csaveDestroy (a : BitVec 6) (b : BitVec 6) (g : BitVec 5) : Statement (.csaveDestroy a b g) := by
  intro w h; cases h; have := a.isLt; have := b.isLt; have := g.isLt; omega
theorem csaveStatus (a : BitVec 6) (b : BitVec 6) (g : BitVec 5) : Statement (.csaveStatus a b g) := by
  intro w h; cases h; have := a.isLt; have := b.isLt; have := g.isLt; omega
theorem groupPlacement (ctx : Nat) (handle : BitVec 32) : Statement (.groupPlacement ctx handle) := by intro w h; cases h
theorem groupRetirement (core unit : Nat) : Statement (.groupRetirement core unit) := by intro w h; cases h
theorem binAgeExpiry (core bin : Nat) : Statement (.binAgeExpiry core bin) := by intro w h; cases h
theorem hankPlacement (core bin : Nat) : Statement (.hankPlacement core bin) := by intro w h; cases h
theorem hitArrival (core : Nat) : Statement (.hitArrival core) := by intro w h; cases h
theorem hitRecordFiling (core : Nat) : Statement (.hitRecordFiling core) := by intro w h; cases h
theorem priorityAging (core unit : Nat) : Statement (.priorityAging core unit) := by intro w h; cases h
theorem budgetLead (core unit : Nat) : Statement (.budgetLead core unit) := by intro w h; cases h
theorem nnLinkDelivery (core unit q : Nat) : Statement (.nnLinkDelivery core unit q) := by intro w h; cases h
theorem launchPlacing (ctx : Nat) (handle : BitVec 32) : Statement (.launchPlacing ctx handle) := by intro w h; cases h
theorem launchRetirement (ctx : Nat) (handle : BitVec 32) : Statement (.launchRetirement ctx handle) := by intro w h; cases h
theorem dispatchFetchResume (die : Nat) : Statement (.dispatchFetchResume die) := by intro w h; cases h
theorem uncorrectableError (pa : Nat) : Statement (.uncorrectableError pa) := by intro w h; cases h
theorem rollbackComplete (ctx : Nat) (handle : BitVec 32) : Statement (.rollbackComplete ctx handle) := by intro w h; cases h
theorem leaseRenewal (core n : Nat) : Statement (.leaseRenewal core n) := by intro w h; cases h
theorem clusterLoadReply (core n : Nat) : Statement (.clusterLoadReply core n) := by intro w h; cases h
theorem storeAtHome (core n : Nat) : Statement (.storeAtHome core n) := by intro w h; cases h
theorem storeAcknowledgement (core n : Nat) : Statement (.storeAcknowledgement core n) := by intro w h; cases h
theorem logicalClockTick (core : Nat) : Statement (.logicalClockTick core) := by intro w h; cases h
theorem watchRenewal (core n : Nat) : Statement (.watchRenewal core n) := by intro w h; cases h
theorem waitPoll (ref : StreamRef) : Statement (.waitPoll ref) := by intro w h; cases h
theorem barrierDeparture (ctx scope inst id : Nat) : Statement (.barrierDeparture ctx scope inst id) := by intro w h; cases h
theorem podArrival (setId : BitVec 16) (id : Nat) : Statement (.podArrival setId id) := by intro w h; cases h
theorem lsPageFillComplete (core ctx page : Nat) : Statement (.lsPageFillComplete core ctx page) := by intro w h; cases h
theorem lsPageWritebackComplete (core ctx page : Nat) : Statement (.lsPageWritebackComplete core ctx page) := by intro w h; cases h
theorem translationWalk (stn n : Nat) : Statement (.translationWalk stn n) := by intro w h; cases h
theorem faultQueueRecheck (stn ctx : Nat) : Statement (.faultQueueRecheck stn ctx) := by intro w h; cases h
theorem l2commit (mask : BitVec 16) : Statement (.l2commit mask) := by intro w h; cases h
theorem l2CommitPoint : Statement .l2CommitPoint := by intro w h; cases h
theorem stationReload (stn : Nat) : Statement (.stationReload stn) := by intro w h; cases h
theorem l2Replay (core unit q p line : Nat) : Statement (.l2Replay core unit q p line) := by intro w h; cases h
theorem l2MaintenanceDone : Statement .l2MaintenanceDone := by intro w h; cases h
theorem tsinvComplete : Statement .tsinvComplete := by intro w h; cases h
theorem engineCommand (core n : Nat) : Statement (.engineCommand core n) := by intro w h; cases h
theorem enginePiecePerformed (core unit q p : Nat) : Statement (.enginePiecePerformed core unit q p) := by intro w h; cases h
theorem engineTrapDelivery (core unit : Nat) : Statement (.engineTrapDelivery core unit) := by intro w h; cases h
theorem haultSlotWrite (core unit q : Nat) : Statement (.haultSlotWrite core unit q) := by intro w h; cases h
theorem tfillComplete (core n : Nat) : Statement (.tfillComplete core n) := by intro w h; cases h
theorem tdrainComplete (core n : Nat) : Statement (.tdrainComplete core n) := by intro w h; cases h
theorem matrixStepStart (core : Nat) : Statement (.matrixStepStart core) := by intro w h; cases h
theorem matrixStepComplete (core : Nat) : Statement (.matrixStepComplete core) := by intro w h; cases h
theorem splicePairing (core n : Nat) : Statement (.splicePairing core n) := by intro w h; cases h
theorem spliceExchangeComplete (core n : Nat) : Statement (.spliceExchangeComplete core n) := by intro w h; cases h
theorem fidCompileStart (core : Nat) : Statement (.fidCompileStart core) := by intro w h; cases h
theorem fidCompileComplete (core : Nat) : Statement (.fidCompileComplete core) := by intro w h; cases h
theorem elementMessage (core n : Nat) : Statement (.elementMessage core n) := by intro w h; cases h
theorem elementReply (core n : Nat) : Statement (.elementReply core n) := by intro w h; cases h
theorem handlerDispatch (core : Nat) : Statement (.handlerDispatch core) := by intro w h; cases h
theorem hdoneRelease (core run : Nat) : Statement (.hdoneRelease core run) := by intro w h; cases h
theorem budget (core run : Nat) : Statement (.budget core run) := by intro w h; cases h
theorem maskWindow (core run : Nat) : Statement (.maskWindow core run) := by intro w h; cases h
theorem mailboxPost (core n : Nat) : Statement (.mailboxPost core n) := by intro w h; cases h
theorem mailboxResend (core n : Nat) : Statement (.mailboxResend core n) := by intro w h; cases h
theorem weightReturn (core n : Nat) : Statement (.weightReturn core n) := by intro w h; cases h
theorem directoryRay (core n : Nat) : Statement (.directoryRay core n) := by intro w h; cases h
theorem treeletLookup (core n : Nat) : Statement (.treeletLookup core n) := by intro w h; cases h
theorem lookupReply (core n : Nat) : Statement (.lookupReply core n) := by intro w h; cases h
theorem ownerUpdate (core n : Nat) : Statement (.ownerUpdate core n) := by intro w h; cases h
theorem frameRequest (core n : Nat) : Statement (.frameRequest core n) := by intro w h; cases h
theorem frameGrant (core n : Nat) : Statement (.frameGrant core n) := by intro w h; cases h
theorem tpinRequest (core n : Nat) : Statement (.tpinRequest core n) := by intro w h; cases h
theorem treeletFillComplete (core frame : Nat) : Statement (.treeletFillComplete core frame) := by intro w h; cases h
theorem treeletFillFailed (core frame : Nat) : Statement (.treeletFillFailed core frame) := by intro w h; cases h
theorem treeletCopyComplete (core frame : Nat) : Statement (.treeletCopyComplete core frame) := by intro w h; cases h
theorem victimRetry (core tid : Nat) : Statement (.victimRetry core tid) := by intro w h; cases h
theorem arrivalWindowRestart (core : Nat) : Statement (.arrivalWindowRestart core) := by intro w h; cases h
theorem parkedRayRelease (core tid : Nat) : Statement (.parkedRayRelease core tid) := by intro w h; cases h
theorem treeletEviction (core frame : Nat) : Statement (.treeletEviction core frame) := by intro w h; cases h
theorem raySpill (src dst : Nat) : Statement (.raySpill src dst) := by intro w h; cases h
theorem spillRingFeed (core : Nat) : Statement (.spillRingFeed core) := by intro w h; cases h
theorem contextSaved (ctx : Nat) : Statement (.contextSaved ctx) := by intro w h; cases h
theorem contextRestored (ctx : Nat) : Statement (.contextRestored ctx) := by intro w h; cases h
theorem contextFreed (ctx : Nat) : Statement (.contextFreed ctx) := by intro w h; cases h
theorem packetRefusal (src dst : Nat) (cls : MsgClass) : Statement (.packetRefusal src dst cls) := by intro w h; cases h
theorem flowAcknowledgement (src dst : Nat) (cls : MsgClass) : Statement (.flowAcknowledgement src dst cls) := by intro w h; cases h
theorem slackPromotion (src dst : Nat) (cls : MsgClass) (seq : Nat) : Statement (.slackPromotion src dst cls seq) := by intro w h; cases h
theorem linkTrained (link : Nat) : Statement (.linkTrained link) := by intro w h; cases h
theorem linkError (link : Nat) : Statement (.linkError link) := by intro w h; cases h
theorem linkRetrained (link : Nat) : Statement (.linkRetrained link) := by intro w h; cases h
theorem linkFailureTimeout (link : Nat) : Statement (.linkFailureTimeout link) := by intro w h; cases h
theorem fpctlWrite (port : Nat) (en : Bool) : Statement (.fpctlWrite port en) := by intro w h; cases h
theorem fabricPacket (pkg seq : Nat) (op : FabricOp) : Statement (.fabricPacket pkg seq op) := by intro w h; cases h
theorem fabricAcknowledgement (pkg seq : Nat) : Statement (.fabricAcknowledgement pkg seq) := by intro w h; cases h
theorem fabricAckTimer (pkg : Nat) : Statement (.fabricAckTimer pkg) := by intro w h; cases h
theorem fabricResendTimeout (pkg : Nat) : Statement (.fabricResendTimeout pkg) := by intro w h; cases h
theorem hostBar2Write (addr size : Nat) (value : BitVec 64) : Statement (.hostBar2Write addr size value) := by intro w h; cases h
theorem hostBar2Read (addr size : Nat) : Statement (.hostBar2Read addr size) := by intro w h; cases h
theorem hostBar4Write (off : Nat) (bytes : List (BitVec 8)) : Statement (.hostBar4Write off bytes) := by intro w h; cases h
theorem hostBar4Read (off size : Nat) : Statement (.hostBar4Read off size) := by intro w h; cases h
theorem hostWriteCompletion (core unit q p : Nat) : Statement (.hostWriteCompletion core unit q p) := by intro w h; cases h
theorem hostRegWrite (addr : Nat) (value : BitVec 64) : Statement (.hostRegWrite addr value) := by intro w h; cases h
theorem hevtWrite (value : BitVec 64) : Statement (.hevtWrite value) := by intro w h; cases h
theorem heccWrite (value : BitVec 64) : Statement (.heccWrite value) := by intro w h; cases h
theorem hwlockWrite (value : BitVec 64) : Statement (.hwlockWrite value) := by intro w h; cases h
theorem facceptWrite (w : Nat) (value : BitVec 64) : Statement (.facceptWrite w value) := by intro w h; cases h
theorem fcommitWrite (value : BitVec 64) : Statement (.fcommitWrite value) := by intro w h; cases h
theorem acmdWrite (value : BitVec 64) : Statement (.acmdWrite value) := by intro w h; cases h
theorem attestationReportDone : Statement .attestationReportDone := by intro w h; cases h
theorem packageReset : Statement .packageReset := by intro w h; cases h
theorem bringUpDone (fail : BitVec 4) : Statement (.bringUpDone fail) := by intro w h; cases h
theorem heartbeatTimeout (stack : Nat) : Statement (.heartbeatTimeout stack) := by intro w h; cases h
theorem heartbeatResumed (stack : Nat) : Statement (.heartbeatResumed stack) := by intro w h; cases h
theorem neighbourRefreshAlert (stack : Nat) : Statement (.neighbourRefreshAlert stack) := by intro w h; cases h
theorem alertCleared (stack : Nat) : Statement (.alertCleared stack) := by intro w h; cases h
theorem powerSense (milliwatts celsius : Nat) : Statement (.powerSense milliwatts celsius) := by intro w h; cases h
theorem clockStepUp (milliwatts celsius : Nat) : Statement (.clockStepUp milliwatts celsius) := by intro w h; cases h
theorem thermalStop : Statement .thermalStop := by intro w h; cases h
theorem packetArrival (src dst : Nat) (cls : MsgClass) (seq : Nat) : Statement (.packetArrival src dst cls seq) := by intro w h; cases h
theorem sliceRequest (core unit q p line : Nat) : Statement (.sliceRequest core unit q p line) := by intro w h; cases h
theorem hbm4ReadComplete (core unit q p line : Nat) (corrected : Bool) : Statement (.hbm4ReadComplete core unit q p line corrected) := by intro w h; cases h
theorem stackRefresh (stack : Nat) : Statement (.stackRefresh stack) := by intro w h; cases h
theorem frameHoldsTreelet (core n : Nat) : Statement (.frameHoldsTreelet core n) := by intro w h; cases h

end Sys2Proof.Laws.Encoding
end

