-- ==== Sys2Proof/Laws/Unit.lean ====
section
/-! SUPPORT. What `runUnit` answers, once for every outcome of a unit's body. -/

namespace Sys2Proof.Machine

/-- The checks between guard and body pass. -/
theorem checked_passes {t : Attr} {i : Issue} {s : State} (body : Issue → State → Eff) (place : t.legalIn i.kind = true)
    (handler : (t.noHandler && i.handler) = false) (mode : (t.p && !i.priv) = false)
    (hints : t.acceptsHints i.front.hints = true) (rep : (t.branch && decide (i.front.rep ≠ 0)) = false)
    (ordered : (t.event && decide (s.unperformed i ≠ 0)) = false) : t.checked i s body = body i s := by
  unfold Attr.checked
  rw [place, handler, mode, hints, rep, ordered]
  rfl

/-- What the shared issue operation does with a word that reaches its guard. -/
theorem runUnit_reaches {t : Attr} {g : GuardField} {s : State} {j : Issue} (h : Reaches t g s j) (body : Issue → State → Eff) :
    runUnit t g body s =
      if s.activeLanes t g j = 0 then .next ((s.awake.countMasked j).finish j)
      else .next ((t.checked { j with active := s.activeLanes t g j } s.awake body).settle t
        { j with active := s.activeLanes t g j } s.awake) := by
  obtain ⟨h1, h2, h3, h4, h5, h6⟩ := h
  unfold runUnit
  rw [h1]
  simp only [State.awake] at h2 h3 h4
  simp only [h2, ite_self, h3, h4, h5, h6, Bool.not_true, Bool.or_self, Bool.false_eq_true, ↓reduceIte]
  rfl

/-- What it does with a word that issues: its body's outcome, settled. -/
theorem runUnit_issues {t : Attr} {g : GuardField} {s : State} {i : Issue} (h : Issues t g s i) (body : Issue → State → Eff) :
    runUnit t g body s = .next ((body i s.awake).settle t i s.awake) := by
  obtain ⟨⟨j, hj, rfl⟩, ha, hp, hh, hm, hi, hr, ho⟩ := h
  rw [runUnit_reaches hj, if_neg ha, checked_passes body hp hh hm hi hr ho]

theorem runUnit_done {t : Attr} {g : GuardField} {s u : State} {i : Issue} {body : Issue → State → Eff} (h : Issues t g s i)
    (b : body i s.awake = .done u) : runUnit t g body s = .next (i.finished t u) := by
  rw [runUnit_issues h, b]; rfl

theorem runUnit_moved {t : Attr} {g : GuardField} {s u : State} {i : Issue} {body : Issue → State → Eff} (h : Issues t g s i)
    (b : body i s.awake = .moved u) : runUnit t g body s = .next u := by
  rw [runUnit_issues h, b]; rfl

theorem runUnit_trap {t : Attr} {g : GuardField} {s u : State} {i : Issue} {body : Issue → State → Eff} {r : TrapRec}
    (h : Issues t g s i) (b : body i s.awake = .trap r u) : runUnit t g body s = .next (s.awake.enterTrap u i r) := by
  rw [runUnit_issues h, b]; rfl

/-- A trap without any effect of its unit before it. -/
theorem enterTrap_self (s : State) (i : Issue) (r : TrapRec) : s.enterTrap s i r = s.takeTrap i r := by
  unfold State.enterTrap State.spillWait State.takeTrap
  split
  · rfl
  · split
    · next w hw =>
      cases hk : i.kind <;> simp only [hk] at hw ⊢ <;> revert hw <;> split <;> (try split) <;> (try split) <;> (try split) <;> simp_all
    · simp_all

theorem runUnit_trapsAt {t : Attr} {g : GuardField} {s : State} {i : Issue} {body : Issue → State → Eff} {r : TrapRec}
    (h : Issues t g s i) (b : body i s.awake = .trap r s.awake) : runUnit t g body s = .next (s.awake.takeTrap i r) := by
  rw [runUnit_trap h b, enterTrap_self]

/-- The guard holds in no lane: the unit only goes by (R29). -/
theorem runUnit_inactive {t : Attr} {g : GuardField} {s : State} {j : Issue} (h : Reaches t g s j)
    (a : s.activeLanes t g j = 0) (body : Issue → State → Eff) :
    runUnit t g body s = .next ((s.awake.countMasked j).finish j) := by
  rw [runUnit_reaches h, if_pos a]

end Sys2Proof.Machine
end

