-- ==== Sys2Proof/Laws/Witness.lean ====
section
/-! SUPPORT. Boolean forms of the hypotheses that the statements make, for showing that a concrete state meets them. -/

namespace Sys2Proof.Machine

/-- The unit as which the word of the current stream would issue. -/
def issueIn (t : Attr) (g : GuardField) (s : State) : Issue :=
  match s.cur.bind s.issue with
  | some j => { j with active := s.activeLanes t g j }
  | none => default

/-- The word of the current stream reaches its guard. -/
def reachesIn (t : Attr) (g : GuardField) (s : State) : Bool :=
  match s.cur.bind s.issue with
  | some j => (s.awake.dueTrap j).isNone && !s.awake.fenced j && !s.awake.maskExceeded j && t.guardOk g j.front.hints
      && guardInRange j.kind j.front.hints
  | none => false

/-- The word of the current stream issues as a unit. -/
def issuesIn (t : Attr) (g : GuardField) (s : State) : Bool :=
  let i := issueIn t g s
  reachesIn t g s && i.active != 0 && t.legalIn i.kind && !(t.noHandler && i.handler) && !(t.p && !i.priv)
    && t.acceptsHints i.front.hints && !(t.branch && decide (i.front.rep ≠ 0)) && !(t.event && decide (s.awake.unperformed i ≠ 0))

theorem reachesIn_sound {t : Attr} {g : GuardField} {s : State} (h : reachesIn t g s = true) :
    ∃ j, Reaches t g s j ∧ issueIn t g s = { j with active := s.activeLanes t g j } := by
  unfold reachesIn at h
  cases hs : s.cur.bind s.issue with
  | none => rw [hs] at h; cases h
  | some j =>
    rw [hs] at h
    simp only [Bool.and_eq_true, Option.isNone_iff_eq_none, Bool.not_eq_true'] at h
    obtain ⟨⟨⟨⟨h1, h2⟩, h3⟩, h4⟩, h5⟩ := h
    exact ⟨j, ⟨hs, h1, h2, h3, h4, h5⟩, by unfold issueIn; rw [hs]⟩

theorem issuesIn_sound {t : Attr} {g : GuardField} {s : State} (h : issuesIn t g s = true) : Issues t g s (issueIn t g s) := by
  simp only [issuesIn, Bool.and_eq_true, bne_iff_ne, Bool.not_eq_true'] at h
  obtain ⟨⟨⟨⟨⟨⟨⟨hr, ha⟩, hp⟩, hh⟩, hm⟩, hi⟩, hn⟩, ho⟩ := h
  exact ⟨reachesIn_sound hr, ha, hp, hh, hm, hi, hn, ho⟩

/-- Sources that can be read now. -/
def Fetched.isOk : Fetched → Bool
  | .ok _ _ => true
  | .stop _ => false

def Fetched.vals : Fetched → List (Nat → Dword)
  | .ok v _ => v
  | .stop _ => []

def Fetched.state (s : State) : Fetched → State
  | .ok _ u => u
  | .stop _ => s

theorem Fetched.eq_ok {f : Fetched} (s : State) (h : f.isOk = true) : f = .ok f.vals (f.state s) := by cases f <;> first | rfl | simp [isOk] at h

/-- Operands of a word that can be read now, with something true of their values. -/
theorem Fetched.readable {f : Fetched} {p : List (Nat → Dword) → State → Prop} (s : State) (h : f.isOk = true)
    (hp : p f.vals (f.state s)) : ∃ v u, f = .ok v u ∧ p v u := ⟨_, _, eq_ok s h, hp⟩

/-- An access that is ready, its value and the state after it. -/
def Access.isReady {α : Type} : Access α → Bool
  | .ready _ _ => true
  | _ => false

def Access.val {α : Type} (d : α) : Access α → α
  | .ready v _ => v
  | _ => d

def Access.state {α : Type} (s : State) : Access α → State
  | .ready _ u => u
  | .waiting u => u
  | .refused _ _ => s

theorem Access.eq_ready {α : Type} {x : Access α} (d : α) (s : State) (h : x.isReady = true) : x = .ready (x.val d) (x.state s) := by
  cases x <;> first | rfl | simp [isReady] at h

theorem Access.readable {α : Type} {x : Access α} {p : α → State → Prop} (d : α) (s : State) (h : x.isReady = true)
    (hp : p (x.val d) (x.state s)) : ∃ v u, x = .ready v u ∧ p v u := ⟨_, _, eq_ready d s h, hp⟩

def PagesResult.isReady : PagesResult → Bool
  | .ready => true
  | _ => false

theorem PagesResult.eq_ready {x : PagesResult} (h : x.isReady = true) : x = .ready := by cases x <;> first | rfl | simp [isReady] at h

def PagesResult.refusal (s : State) : PagesResult → Option (Nat × Nat) × State
  | .refused a cause t => (some (a, cause), t)
  | _ => (none, s)

theorem PagesResult.eq_refused {x : PagesResult} {a cause : Nat} (s : State) (h : (x.refusal s).1 = some (a, cause)) :
    x = .refused a cause (x.refusal s).2 := by
  cases x <;> simp_all [refusal]

/-- An E-format word that issues and reads its operands. -/
theorem readsWide_in {t : Attr} {g : GuardField} {a b : RegField} {write : List RegField} {s : State} {x y : Dword}
    (h : issuesIn t g s = true)
    (ok : (let i := issueIn t g s
      let f := s.awake.operands i [(.pair, a), (.pair, b)] write
      i.regOk false .pair a && i.regOk false .pair b && (write.all fun r => i.regOk true .pair r) && f.isOk
        && nth f.vals 0 (lowestLane i.active) == x && nth f.vals 1 (lowestLane i.active) == y) = true) :
    ReadsWide t g a b write s ((s.awake.operands (issueIn t g s) [(.pair, a), (.pair, b)] write).state s) (issueIn t g s) x y := by
  simp only [Bool.and_eq_true, beq_iff_eq, List.all_eq_true] at ok
  obtain ⟨⟨⟨⟨⟨h1, h2⟩, h3⟩, h4⟩, h5⟩, h6⟩ := ok
  exact ⟨issuesIn_sound h, ⟨h1, h2⟩, h3, _, Fetched.eq_ok s h4, h5, h6⟩

/-- A destination that is no queue needs no queue. -/
theorem broadcasts_register {u : State} {i : Issue} {f : RegField} (h : isQueue f = false) : u.broadcasts i f := by
  intro q; simp [h] at q

end Sys2Proof.Machine
end

