-- ==== Sys2Proof/Tests/Slice0.lean ====
section
/-! SUPPORT. The model's own tests: words of the spec, ill-formed terms, and for every statement a state and operands that meet its
hypotheses together. -/

open Sys2Proof Sys2Proof.Machine

namespace Sys2Proof.Tests

set_option Elab.async false

/-! ### States -/

/-- The placed group of core 2 issues its next word. -/
def asGroup : State := { State.reset.placeWord 0 with cur := some (.group 2 0 0), agenda := [] }

/-- Its lead does. -/
def asLead : State := { asGroup with cur := some (.lead 2 0) }

/-- A handler run of core 2 does. -/
def asRun : State := { State.reset.placeWord 0xA0000C00 with cur := some (.run 2 0), agenda := [] }

/-- A register of a lane of the group. -/
def withLane (s : State) (lane n : Nat) (v : Word) : State := s.setLane 2 placedUnit lane n v

/-- A register of the lead. -/
def withLead (s : State) (n : Nat) (v : Dword) : State := s.modLead 2 0 fun l => { l with s := { l.s with regs := SMap.put l.s.regs n v } }

/-- A register of the run. -/
def withRun (s : State) (n : Nat) (v : Dword) : State := s.modRun 2 0 fun r => { r with s := { r.s with regs := SMap.put r.s.regs n v } }

/-- Page 0 of the context is resident on core 2. -/
def withPage (s : State) : State :=
  s.modCore 2 fun k => { k with frames := SMap.put k.frames 0 ⟨1, 0, .resident, 0, false, false, false, 0, none, 0, [], none, false, false, none⟩ }

/-- The directory is in use, with two frames from page 1 × 16 up on every core. -/
def hitched (s : State) : State := [2, 3, 50, 51].foldl (fun s c => s.modCore c fun k => { k with ray := { k.ray with rcfg0 := 0x105 } }) s

/-- Its group has MODE m. -/
def withMode (s : State) (m : Dword) : State := s.modCtl 2 0 fun k => { k with mode := m }

/-- Its hint words so far. -/
def withHints (s : State) (h : Hints) : State := s.modCtl 2 0 fun k => { k with
  paths := k.paths.map fun p => { p with front := { p.front with pc := 4, hints := { h with count := 1 } } } }

/-- What stands in a list of so many. -/
theorem among2 {α : Type} {x a b : α} (h : x ∈ [a, b]) : x = a ∨ x = b := by simpa using h
theorem among3 {α : Type} {x a b c : α} (h : x ∈ [a, b, c]) : x = a ∨ x = b ∨ x = c := by simpa using h
theorem among4 {α : Type} {x a b c d : α} (h : x ∈ [a, b, c, d]) : x = a ∨ x = b ∨ x = c ∨ x = d := by simpa using h
theorem among6 {α : Type} {x a b c d e f : α} (h : x ∈ [a, b, c, d, e, f]) : x = a ∨ x = b ∨ x = c ∨ x = d ∨ x = e ∨ x = f := by simpa using h

/-- The lead's hint words so far. -/
def leadHints (s : State) (h : Hints) : State := s.modLead 2 0 fun l => { l with s := { l.s with
  front := { l.s.front with pc := 4, hints := { h with count := 1 } } } }

abbrev aGroup : Issue := issueIn {} 0 asGroup
abbrev aLead : Issue := issueIn {} 0 asLead
abbrev aRun : Issue := issueIn {} 0 asRun

/-! ### Words of the spec

Each word is written from its format: major opcode, then the fields, of 6, 6, 6, 6, 3 and 5 bits (R23 to R25). -/

theorem test_words_1 : decodeWord 0 0b000010_110010_000001_000010_100_11111 = .ok (.fshr 50 1 2 31) ∧
    decodeWord 0 0b000011_000001_110111_000000_010_10001 = .ok (.ctz 1 55 17) ∧
    decodeWord 0 0b000100_000111_001000_101010_101_00001 = .ok (.addi 7 8 341 1) ∧
    decodeWord 0 0b000110_000111_001000_010101_010_00010 = .ok (.ori 7 8 170 2) ∧
    decodeWord 0 0b001000_001001_001010_010111_111_00011 = .ok (.shi 9 10 2 63 3) ∧
    decodeWord 0 0b001001_001011_100001_100100_001_00100 = .ok (.limm 11 17185 4) ∧
    decodeWord 0 0b001010_000000_001100_001101_111_00101 = .ok (.modew 12 13 5) ∧
    decodeWord 0 0b001101_111111_001110_001111_101_00110 = .ok (.dcmpGe 63 14 15 6) ∧
    decodeWord 0 0b001111_000000_010000_000001_111_00111 = .ok (.psetw 16 1 7) ∧
    decodeWord 0 0b010000_010001_010010_010011_100_01000 = .ok (.ffms 17 18 19 8) :=
  ⟨rfl, rfl, rfl, rfl, rfl, rfl, rfl, rfl, rfl, rfl⟩

theorem test_words_2 : decodeWord 0 0b010001_010100_010101_000000_101_01001 = .ok (.fsin 20 21 9) ∧
    decodeWord 0 0b010010_010110_011000_011010_011_01010 = .ok (.dfma 22 24 26 10) ∧
    decodeWord 0 0b010011_011011_011100_011101_110_01011 = .ok (.bfma2 27 28 29 11) ∧
    decodeWord 0 0b010100_011110_011111_100000_111_01100 = .ok (.f2b2 30 31 32 12) ∧
    decodeWord 0 0b010101_100001_100010_100100_100_01101 = .ok (.f2k 33 34 36 13) ∧
    decodeWord 0 0b010110_100011_100100_111111_011_01110 = .ok (.shflx 35 36 63 14) ∧
    decodeWord 0 0b010111_100101_100110_000000_111_01111 = .ok (.fredmax 37 38 15) ∧
    decodeWord 0 0b011000_100111_101000_000000_100_10000 = .ok (.iscanmax 39 40 16) ∧
    decodeWord 0 0b011001_000000_101001_001000_000_10010 = .ok (.lbind 41 8 18) ∧
    decodeWord 0 0b011010_101010_000000_000000_110_10011 = .ok (.lstat 42 19) :=
  ⟨rfl, rfl, rfl, rfl, rfl, rfl, rfl, rfl, rfl, rfl⟩

theorem test_words_3 : decodeWord 0 0b011011_001101_010101_010101_010_10100 = .ok (.call 174762 20) ∧
    decodeWord 0 0b011100_101011_111001_000000_111_10101 = .ok (.qstat 43 57 21) ∧
    decodeWord 0 0b011101_101100_101101_101010_110_10110 = .ok (.ldl 44 45 85 2 22) ∧
    decodeWord 0 0b011110_101100_101101_010101_001_10110 = .ok (.stl 44 45 42 1 22) ∧
    decodeWord 0 0b011111_101110_101111_111111_100_10111 = .ok (.ldc 46 47 127 0 23) ∧
    decodeWord 0 0b100000_101110_101111_100000_010_11000 = .ok (.stc 46 47 64 2 24) ∧
    decodeWord 0 0b100001_110000_110001_110010_110_11001 = .ok (.axch 48 49 50 25) ∧
    decodeWord 0 0b100010_110010_110011_110100_100_11010 = .ok (.waitge 50 51 52 26) ∧
    decodeWord 0 0b100011_110101_110110_110111_011_11011 = .ok (.bldl 53 54 55 27) ∧
    decodeWord 0 0b100100_000010_000100_010000_011_11100 = .ok (.hault 2 4 3 28) :=
  ⟨rfl, rfl, rfl, rfl, rfl, rfl, rfl, rfl, rfl, rfl⟩

theorem test_words_4 : decodeWord 0 0b100101_000110_101100_010101_001_11101 = .ok (.cvtom 6 44 9 29) ∧
    decodeWord 0 0b100110_001000_001010_001001_110_11110 = .ok (.mmss 8 10 3 2 30) ∧
    decodeWord 0 0b100111_001011_001100_001101_111_11111 = .ok (.hfind 11 12 13 31) ∧
    decodeWord 0 0b101000_001110_010000_010011_111_00001 = .ok (.mpost 14 16 31 1) ∧
    decodeWord 0 0b101001_010010_010100_001101_111_00010 = .ok (.rtri 18 20 15 2) ∧
    decodeWord 0 0b101010_010110_001111_010010_000_00011 = .ok (.cntsum 22 15 4 3) ∧
    decodeWord 0 0b101011_011000_011010_000000_000_00100 = .ok (.launch 24 26 4) ∧
    decodeWord 4 0b101100_011100_011110_101000_000_00101 = .ok (.csaveStatus 28 30 5) ∧
    decodeWord 0 0b111111_001000_000000_000000_011_01010 = .ok (.guardHint 1 42) :=
  ⟨rfl, rfl, rfl, rfl, rfl, rfl, rfl, rfl, rfl⟩

/-- The table of R302 gives these words; HACC's MOD hint names C. -/
theorem test_words_irregular : decodeWord 0 0x9C408600 = .ok (.gather 4 2 6 0) ∧ decodeWord 0 0x9C508620 = .ok (.scatter 5 2 6 0) ∧
    decodeWord 0 0x9C508660 = .ok (.scfadd 5 2 6 0) ∧ decodeWord 0 0xFD802380 = .ok (.modHint 0 1 7 0 0 0 0) ∧
    decodeWord 0 0x9C8086C0 = .ok (.hacc 8 2 6 0) ∧ decodeWord 0 0x9C9086E0 = .ok (.hfind 9 2 6 0) := ⟨rfl, rfl, rfl, rfl, rfl, rfl⟩

/-- The lanyard example of file 06, and the trap handler of R395's example. -/
theorem test_words_examples : decodeWord 0 0x64008100 = .ok (.lbind 2 1 0) ∧ decodeWord 0 0x68404020 = .ok (.ldep 4 1 0) ∧
    decodeWord 0 0x68610060 = .ok (.lrnd 6 4 0) ∧ decodeWord 0 0x688000C0 = .ok (.lstat 8 0) ∧ decodeWord 0 0x64000020 = .ok (.lfree 0) ∧
    decodeWord 4 0xB0200800 = .ok (.sysr 2 0) ∧ decodeWord 0 0x782000C0 = .ok (.stl 2 0 1 2 0) ∧ decodeWord 1 0xB0000400 = .ok (.rte 0) :=
  ⟨rfl, rfl, rfl, rfl, rfl, rfl, rfl, rfl⟩

/-- R25, R35, R37, R42: the zero word, a reserved major opcode, a reserved selector, a reserved kind of hint, an unused field. -/
theorem test_words_refused : decodeWord 0 0 = .error .zeroWord ∧ decodeWord 0 0b101101_000000_000000_000000_000_00000 = .error .reservedMajor ∧
    decodeWord 0 0b010101_000000_000000_000000_110_00000 = .error .reservedSelector ∧
    decodeWord 0 0b111111_100000_000000_000000_000_00000 = .error .reservedHint ∧
    decodeWord 0 0b000011_000001_000010_000001_000_00000 = .error .unusedField := ⟨rfl, rfl, rfl, rfl, rfl⟩

/-! ### Well-formed terms -/

/-! One term for each check refuses it, and the greatest numbers pass. -/

theorem test_ill_formed_1 : (([.add 0 0 0 0, .waitPoll (.group 1152 0 0), .waitPoll (.group 0 16 0), .waitPoll (.group 0 0 64),
    .waitPoll (.lead 1152 0), .waitPoll (.lead 0 16), .waitPoll (.run 1152 0), .waitPoll (.run 0 32),
    .groupRetirement 1152 0, .groupRetirement 0 16, .binAgeExpiry 1152 0, .binAgeExpiry 0 32, .hankPlacement 1152 0,
    .hankPlacement 0 32, .hitArrival 1152, .hitRecordFiling 1152, .priorityAging 1152 0, .priorityAging 0 16,
    .budgetLead 1152 0, .budgetLead 0 16, .nnLinkDelivery 1152 0 0, .nnLinkDelivery 0 16 0, .nnLinkDelivery 0 0 4,
    .dispatchFetchResume 4, .leaseRenewal 1152 0, .clusterLoadReply 1152 0, .storeAtHome 1152 0,
    .storeAcknowledgement 1152 0, .logicalClockTick 1152, .watchRenewal 1152 0] : List Instr).all fun i => !i.wellFormed) = true := by decide +kernel

theorem test_ill_formed_2 : (([.barrierDeparture 0 7 0 0, .lsPageFillComplete 1152 0 0, .lsPageFillComplete 0 0 256,
    .lsPageWritebackComplete 1152 0 0, .lsPageWritebackComplete 0 0 256, .translationWalk 64 0, .faultQueueRecheck 64 0,
    .stationReload 64, .l2Replay 1152 0 0 0 0, .l2Replay 0 17 0 0 0, .l2Replay 0 0 4 0 0, .l2Replay 0 0 0 8192 0,
    .l2Replay 0 0 0 0 64, .engineCommand 1152 0, .enginePiecePerformed 1152 0 0 0, .enginePiecePerformed 0 17 0 0,
    .enginePiecePerformed 0 0 4 0, .enginePiecePerformed 0 0 0 8192, .engineTrapDelivery 1152 0, .engineTrapDelivery 0 16,
    .haultSlotWrite 1152 0 0, .haultSlotWrite 0 16 0, .haultSlotWrite 0 0 4, .tfillComplete 1152 0, .tdrainComplete 1152 0,
    .matrixStepStart 1152, .matrixStepComplete 1152, .splicePairing 1152 0, .spliceExchangeComplete 1152 0,
    .fidCompileStart 1152] : List Instr).all fun i => !i.wellFormed) = true := by decide +kernel

theorem test_ill_formed_3 : (([.fidCompileComplete 1152, .elementMessage 1152 0, .elementReply 1152 0, .handlerDispatch 1152, .hdoneRelease 1152 0,
    .hdoneRelease 0 32, .budget 1152 0, .budget 0 32, .maskWindow 1152 0, .maskWindow 0 32, .mailboxPost 1152 0,
    .mailboxResend 1152 0, .weightReturn 1152 0, .directoryRay 1152 0, .treeletLookup 1152 0, .lookupReply 1152 0,
    .ownerUpdate 1152 0, .frameRequest 1152 0, .frameGrant 1152 0, .tpinRequest 1152 0, .treeletFillComplete 1152 0,
    .treeletFillComplete 0 256, .treeletFillFailed 1152 0, .treeletFillFailed 0 256, .treeletCopyComplete 1152 0,
    .treeletCopyComplete 0 256, .victimRetry 1152 0, .victimRetry 0 1073741824, .arrivalWindowRestart 1152,
    .parkedRayRelease 1152 0] : List Instr).all fun i => !i.wellFormed) = true := by decide +kernel

theorem test_ill_formed_4 : (([.parkedRayRelease 0 1073741824, .treeletEviction 1152 0, .treeletEviction 0 256, .raySpill 1152 0, .raySpill 0 1152,
    .spillRingFeed 1152, .packetRefusal 1152 0 .ctl, .packetRefusal 0 1152 .ctl, .flowAcknowledgement 1152 0 .ctl,
    .flowAcknowledgement 0 1152 .ctl, .slackPromotion 1152 0 .ctl 0, .slackPromotion 0 1152 .ctl 0, .linkTrained 136,
    .linkError 136, .linkRetrained 136, .linkFailureTimeout 136, .fpctlWrite 64 true, .hostBar2Write 0 0 0,
    .hostBar2Read 0 0, .hostWriteCompletion 1152 0 0 0, .hostWriteCompletion 0 17 0 0, .hostWriteCompletion 0 0 4 0,
    .hostWriteCompletion 0 0 0 8192, .heartbeatTimeout 16, .heartbeatResumed 16, .neighbourRefreshAlert 16,
    .alertCleared 16, .packetArrival 1152 0 .ctl 0, .packetArrival 0 1152 .ctl 0, .sliceRequest 1152 0 0 0 0] : List Instr).all fun i => !i.wellFormed) = true := by decide +kernel

theorem test_ill_formed_5 : (([.sliceRequest 0 17 0 0 0, .sliceRequest 0 0 4 0 0, .sliceRequest 0 0 0 8192 0, .sliceRequest 0 0 0 0 64,
    .hbm4ReadComplete 1152 0 0 0 0 true, .hbm4ReadComplete 0 17 0 0 0 true, .hbm4ReadComplete 0 0 4 0 0 true,
    .hbm4ReadComplete 0 0 0 8192 0 true, .hbm4ReadComplete 0 0 0 0 64 true, .stackRefresh 16, .frameHoldsTreelet 1152 0] : List Instr).all fun i => !i.wellFormed) = true := by decide +kernel

theorem test_well_formed_1 : (([.add 0 0 0 1, .waitPoll (.group 1151 15 63), .waitPoll (.lead 1151 15), .waitPoll (.run 1151 31),
    .groupRetirement 1151 15, .binAgeExpiry 1151 31, .hankPlacement 1151 31, .hitArrival 1151, .hitRecordFiling 1151,
    .priorityAging 1151 15, .budgetLead 1151 15, .nnLinkDelivery 1151 15 3, .dispatchFetchResume 3, .leaseRenewal 1151 0,
    .clusterLoadReply 1151 0, .storeAtHome 1151 0, .storeAcknowledgement 1151 0, .logicalClockTick 1151,
    .watchRenewal 1151 0, .barrierDeparture 0 6 0 0, .lsPageFillComplete 1151 0 255, .lsPageWritebackComplete 1151 0 255,
    .translationWalk 63 0, .faultQueueRecheck 63 0, .stationReload 63, .l2Replay 1151 16 3 8191 63, .engineCommand 1151 0,
    .enginePiecePerformed 1151 16 3 8191, .engineTrapDelivery 1151 15, .haultSlotWrite 1151 15 3] : List Instr).all fun i => i.wellFormed) = true := by decide +kernel

theorem test_well_formed_2 : (([.tfillComplete 1151 0, .tdrainComplete 1151 0, .matrixStepStart 1151, .matrixStepComplete 1151, .splicePairing 1151 0,
    .spliceExchangeComplete 1151 0, .fidCompileStart 1151, .fidCompileComplete 1151, .elementMessage 1151 0,
    .elementReply 1151 0, .handlerDispatch 1151, .hdoneRelease 1151 31, .budget 1151 31, .maskWindow 1151 31,
    .mailboxPost 1151 0, .mailboxResend 1151 0, .weightReturn 1151 0, .directoryRay 1151 0, .treeletLookup 1151 0,
    .lookupReply 1151 0, .ownerUpdate 1151 0, .frameRequest 1151 0, .frameGrant 1151 0, .tpinRequest 1151 0,
    .treeletFillComplete 1151 255, .treeletFillFailed 1151 255, .treeletCopyComplete 1151 255,
    .victimRetry 1151 1073741823, .arrivalWindowRestart 1151, .parkedRayRelease 1151 1073741823] : List Instr).all fun i => i.wellFormed) = true := by decide +kernel

theorem test_well_formed_3 : (([.treeletEviction 1151 255, .raySpill 1151 1151, .spillRingFeed 1151, .packetRefusal 1151 1151 .ctl,
    .flowAcknowledgement 1151 1151 .ctl, .slackPromotion 1151 1151 .ctl 0, .linkTrained 135, .linkError 135,
    .linkRetrained 135, .linkFailureTimeout 135, .fpctlWrite 63 true, .hostBar2Write 0 4 0, .hostBar2Write 0 8 0,
    .hostBar2Read 0 4, .hostBar2Read 0 8, .hostWriteCompletion 1151 16 3 8191, .heartbeatTimeout 15, .heartbeatResumed 15,
    .neighbourRefreshAlert 15, .alertCleared 15, .packetArrival 1151 1151 .ctl 0, .sliceRequest 1151 16 3 8191 63,
    .hbm4ReadComplete 1151 16 3 8191 63 true, .stackRefresh 15, .frameHoldsTreelet 1151 0] : List Instr).all fun i => i.wellFormed) = true := by decide +kernel

/-! ### Worked examples of the spec, and single steps -/

/-- R69's example: from 0xE8E1_0002 the generator draws 0xD182 and goes to 0xD182_0003, and 1 + 2^-12 becomes 0x3C01 under RS. -/
theorem test_stochastic_draw : stepGen 0xE8E10002 = (0xD182, 0xD1820003) ∧
    (convertBits f32 f16 false 5 0 0xE8E10002 0x3F800800).bits = 0x3C01 := by decide +kernel

/-- The lanyard example: 2^24 and seven ones sum to 16,777,223 exactly; nearest gives 16,777,224, towards zero 16,777,222, and the
fixed tree 16,777,222. -/
theorem test_lanyard_sum :
    (let v := (deposit f32 160 0x4B800000).1 + 7 * (deposit f32 160 0x3F800000).1
     v = 16777223 * 2 ^ 160 ∧ (segRound f32 false 0 0 ⟨0, true, false⟩ v 160).bits = 0x4B800004 ∧
      (segRound f32 false 1 0 ⟨0, true, false⟩ v 160).bits = 0x4B800003) := by decide +kernel

theorem test_lanyard_tree : (foldTree (faddNode 0) 3 (([0x4B800000, 0x3F800000, 0x3F800000, 0x3F800000, 0x3F800000, 0x3F800000, 0x3F800000,
    0x3F800000] : List Nat).map fun b => (b, {}))).1 = 0x4B800003 := by decide +kernel

/-- The ray along a shared edge: the leaf holds P and Q. -/
def sharedEdge : Nat :=
  let at' (t j : Nat) : Nat := 0x3F800000 * 2 ^ (8 * (16 + 40 * t + 4 * j))
  2 + at' 0 3 + at' 0 6 + at' 0 7 + at' 1 3 + at' 1 4 + at' 1 7

theorem test_triangles : (let ray := [0x3F000000, 0x3F000000, 0x3F800000, 0, 0, 0xBF800000, 0, 0x7F800000]
    triangleWord sharedEdge 0 ray = 0x7F800000 ∧ triangleWord sharedEdge 1 ray = 0x000038003F800000 ∧
      triangleWord sharedEdge 1 (setAt 7 (fun _ => 0x3F800000) ray) = 0x7F800000) := by decide +kernel

/-- The trap example: TCAUSE of a TRAP with one hint on unit 3, and lane 2's spill record. -/
theorem test_trap_example : tcauseWord Cause.trapSw false false 1 3 = 0x30811 ∧ spillAddress 0xF0 3 false 2 = 0xF1840 := by decide +kernel

/-- What lane 0's register n, or the lead's, holds after an instruction. -/
def laneAfter (x : Instr) (s : State) (n : Nat) : Option Word :=
  match exec x s with
  | .next t => (t.unit 2 0).map fun r => t.lane 2 r 0 n
  | _ => none
def leadAfter (x : Instr) (s : State) (n : Nat) : Option Dword :=
  match exec x s with
  | .next t => ((t.unit 2 0).bind (·.lead)).map fun l => SMap.word l.s.regs n
  | _ => none
def two (x y : Word) : State := withLane (withLane asGroup 0 2 x) 0 3 y

/-- R98, R99: w-bit arithmetic wraps; a lead's width is 64. -/
theorem test_add_wraps : laneAfter (.add 1 2 3 0) (two 0xFFFFFFFF 2) 1 = some 1 ∧
    leadAfter (.add 1 2 3 0) (withLead (withLead asLead 2 0xFFFFFFFF) 3 2) 1 = some 0x100000001 := by decide +kernel
theorem test_sub_order : laneAfter (.sub 1 2 3 0) (two 5 7) 1 = some 0xFFFFFFFE := by decide +kernel
theorem test_mul_high : laneAfter (.mulh 1 2 3 0) (two 0x80000000 2) 1 = some 0xFFFFFFFF ∧
    laneAfter (.mulhn 1 2 3 0) (two 0x80000000 2) 1 = some 1 := by decide +kernel
theorem test_shift_amount : laneAfter (.shl 1 2 3 0) (two 1 33) 1 = some 2 ∧ laneAfter (.sar 1 2 3 0) (two 0x80000000 31) 1 = some 0xFFFFFFFF := by
  decide +kernel
theorem test_source_is_destination : laneAfter (.sub 2 2 2 0) (two 9 0) 2 = some 0 := by decide +kernel
theorem test_fadd_tie : laneAfter (.fadd 1 2 3 0) (two 0x4B800000 0x3F800000) 1 = some 0x4B800000 := by decide +kernel
theorem test_store_load : (match exec (.stl 3 2 0 2 0) (withPage (two 64 0x01020304)) with
    | .next t => some (t.localBytes 2 1 64 4)
    | _ => none) = some [4, 3, 2, 1] := by decide +kernel
theorem test_sext_byte : laneAfter (.sxb 1 2 0) (two 0x80 0) 1 = some 0xFFFFFF80 := by decide +kernel

/-- A step fetches ADD g1, g2, g3 and runs it: the group stands at the next word. -/
theorem test_step_runs : (match step (State.reset.withFetchWord 32 0x00108300) with
    | .next t => ((t.unit 2 0).map fun r => r.ctl.paths.map (·.front.pc))
    | _ => none) = some [4] := by decide +kernel

/-! ### Results in registers -/

theorem group_issues : Issues {} 0 asGroup aGroup := issuesIn_sound (by decide +kernel)

theorem wit_PureResults : ∃ r, pureResult (.add 1 2 3 0) = some r ∧ Issues r.attr r.guard asGroup aGroup ∧ r.legal aGroup = true ∧
    aGroup.registersOk (r.cls, r.dst) (r.srcs aGroup) ∧
    ∃ vals u, asGroup.awake.operands aGroup (r.srcs aGroup) [r.dst] = .ok vals u ∧ u.broadcasts aGroup r.dst :=
  ⟨_, rfl, group_issues, rfl, ⟨by decide +kernel, by decide +kernel⟩,
    Fetched.readable asGroup (by decide +kernel) (broadcasts_register rfl)⟩

/-- The lead's queue 0 leads to its group and fetches its entries; s1 names their local address. -/
def fetching (a : Dword) : State := withLead (withPage (asLead.modUnit 2 0 fun r => { r with
  queues := setAt 0 (fun q => { q with ep := 1, opt := 1 }) r.queues })) 1 a

theorem wit_PureResults_forms : ∃ r, pureResult (.mov 56 1 0) = some r ∧ ∀ a ∈ [(0x40, true), (0x41, true), (0xFFFFC, false)],
    (let s := fetching a.1
     let i := issueIn {} 0 s
     Issues r.attr r.guard s i ∧ r.legal i = true ∧ i.registersOk (r.cls, r.dst) (r.srcs i) ∧ i.kind = .lead ∧
      ∃ vals u, s.awake.operands i (r.srcs i) [r.dst] = .ok vals u ∧ ∃ q, u.unit i.core i.unit = some q ∧
        ((q.queues[queueIndex r.dst]?).getD QueueReg.unmapped).opt ≠ 0 ∧ (r.value s.awake i vals 0).toNat % 2 ^ 20 = a.1.toNat ∧
        i.window.holds a.1.toNat (4 * q.info.width) = a.2 ∧
        (a.1 = 0x40 → s.awake.pages i.core i.ctx [0x40, 0x40 + 4 * q.info.width - 1] (some i.who) = .ready)) := by
  refine ⟨_, rfl, fun a h => ?_⟩
  obtain rfl | rfl | rfl := among3 h
  all_goals exact ⟨issuesIn_sound (by decide +kernel), rfl, ⟨by decide +kernel, by decide +kernel⟩, by decide +kernel,
    Fetched.readable asLead (by decide +kernel) ⟨_, Option.eq_some_of_isSome (by decide +kernel), by decide +kernel, by decide +kernel,
      by decide +kernel, fun h => PagesResult.eq_ready (by revert h; decide +kernel)⟩⟩

theorem wit_PureResults_illegal : ∃ r, pureResult (.mov 55 1 0) = some r ∧ Issues r.attr r.guard asGroup aGroup ∧
    r.legal aGroup = true ∧ ¬ aGroup.registersOk (r.cls, r.dst) (r.srcs aGroup) :=
  ⟨_, rfl, group_issues, rfl, fun h => absurd h.1 (by decide +kernel)⟩

abbrev infs : State := withLane (withLane (withMode asGroup 0x20000000) 0 2 0x7F800000) 0 3 0xFF800000
abbrev aFadd : Issue := issueIn { round := 4 } 0 asGroup
abbrev aInf : Issue := issueIn { round := 4 } 0 infs

theorem wit_FloatResults : ∃ r, floatResult (.fadd 1 2 3 0) = some r ∧ Issues r.attr r.guard asGroup aFadd ∧
    aFadd.registersOk (r.cls, r.dst) (r.srcs aFadd) ∧
    ∃ vals u, asGroup.awake.operands aFadd (r.srcs aFadd) [r.dst] = .ok vals u ∧ u.broadcasts aFadd r.dst ∧
      aFadd.trappingLanes (asGroup.modeOf aFadd) (fun l => (r.outIn asGroup.awake aFadd vals l).ev) = 0 :=
  ⟨_, rfl, issuesIn_sound (by decide +kernel), ⟨by decide +kernel, by decide +kernel⟩,
    Fetched.readable asGroup (by decide +kernel) ⟨broadcasts_register rfl, by decide +kernel⟩⟩

theorem wit_FloatResults_traps : ∃ r, floatResult (.fadd 1 2 3 0) = some r ∧ Issues r.attr r.guard infs aInf ∧
    aInf.registersOk (r.cls, r.dst) (r.srcs aInf) ∧
    ∃ vals u, infs.awake.operands aInf (r.srcs aInf) [r.dst] = .ok vals u ∧
      aInf.trappingLanes (infs.modeOf aInf) (fun l => (r.outIn infs.awake aInf vals l).ev) ≠ 0 :=
  ⟨_, rfl, issuesIn_sound (by decide +kernel), ⟨by decide +kernel, by decide +kernel⟩,
    Fetched.readable infs (by decide +kernel) (by decide +kernel)⟩

theorem wit_PredicateResults : (∃ r, predicateResult (.icmpLt 63 2 3 0) = some r ∧ Issues r.attr r.guard asGroup aGroup ∧
      (aGroup.kind = .group ∨ ∀ p ∈ r.dst :: r.preds, p.toNat < 16) ∧ (r.srcs.all fun y => aGroup.regOk false y.1 y.2) = true ∧
      ∃ vals u, asGroup.awake.operands aGroup r.srcs [] = .ok vals u) ∧
    (∃ r, predicateResult (.icmpLt 15 2 3 0) = some r ∧ Issues r.attr r.guard asLead aLead ∧
      (aLead.kind = .group ∨ ∀ p ∈ r.dst :: r.preds, p.toNat < 16) ∧ (r.srcs.all fun y => aLead.regOk false y.1 y.2) = true ∧
      ∃ vals u, asLead.awake.operands aLead r.srcs [] = .ok vals u) :=
  ⟨⟨_, rfl, group_issues, by decide +kernel, by decide +kernel, _, _, Fetched.eq_ok asGroup (by decide +kernel)⟩,
    ⟨_, rfl, issuesIn_sound (by decide +kernel), by decide +kernel, by decide +kernel, _, _, Fetched.eq_ok asLead (by decide +kernel)⟩⟩

theorem wit_PredicateResults_words : aGroup.regOk false .pair 2 = true ∧ aGroup.regOk false .word 4 = true ∧
    (∃ vals u, asGroup.awake.operands aGroup [(.pair, 2), (.word, 4)] [] = .ok vals u) ∧
    aGroup.predWordOk 1 = true ∧ aGroup.regOk false .nat 2 = true ∧
    ∃ vals u, asGroup.awake.operands aGroup [(.nat, 2)] [] = .ok vals u :=
  ⟨by decide +kernel, by decide +kernel, ⟨_, _, Fetched.eq_ok asGroup (by decide +kernel)⟩, by decide +kernel, by decide +kernel,
    _, _, Fetched.eq_ok asGroup (by decide +kernel)⟩

theorem wit_PredicateResults_floats : floatCompare (.fcmpLt 63 2 3 0) = some (f32, .word, 2, 63, 2, 3, 0) ∧ Issues {} 0 asGroup aGroup ∧
    (aGroup.kind = .group ∨ (63 : RegField).toNat < 16) ∧ aGroup.regOk false .word 2 = true ∧ aGroup.regOk false .word 3 = true ∧
    ∃ vals u, asGroup.awake.operands aGroup [(.word, 2), (.word, 3)] [] = .ok vals u ∧
      aGroup.trappingLanes (asGroup.modeOf aGroup) (fun l => Ev.invalid (f32.compare (ftz (asGroup.modeOf aGroup)) 2 (nth vals 0 l).toNat
        (nth vals 1 l).toNat).2) = 0 :=
  ⟨rfl, group_issues, by decide +kernel, by decide +kernel, by decide +kernel,
    Fetched.readable asGroup (by decide +kernel) (by decide +kernel)⟩

abbrev signalling : State := withLane (withMode asGroup 0x20000000) 0 2 0x7F800001
abbrev aSignalling : Issue := issueIn {} 0 signalling

theorem wit_PredicateResults_invalid : Issues {} 0 signalling aSignalling ∧ aSignalling.regOk false .word 2 = true ∧
    aSignalling.regOk false .word 3 = true ∧
    ∃ vals u, signalling.awake.operands aSignalling [(.word, 2), (.word, 3)] [] = .ok vals u ∧
      aSignalling.trappingLanes (signalling.modeOf aSignalling) (fun l => Ev.invalid (f32.compare (ftz (signalling.modeOf aSignalling)) 2
        (nth vals 0 l).toNat (nth vals 1 l).toNat).2) ≠ 0 :=
  ⟨issuesIn_sound (by decide +kernel), by decide +kernel, by decide +kernel, Fetched.readable signalling (by decide +kernel) (by decide +kernel)⟩

abbrev aTree : Issue := issueIn groupOnly 0 asGroup

theorem wit_TreeResults : ∃ r, treeResult (.fscan 1 2 0) = some r ∧ Issues groupOnly r.guard asGroup aTree ∧
    aTree.registersOk (.nat, r.dst) [(.nat, r.src)] ∧
    ∃ vals u, asGroup.awake.operands aTree [(.nat, r.src)] [r.dst] = .ok vals u ∧ u.broadcasts aTree r.dst ∧
      (r.answer (asGroup.modeOf aTree) aTree vals).2.enabled (asGroup.modeOf aTree) = false :=
  ⟨_, rfl, issuesIn_sound (by decide +kernel), ⟨by decide +kernel, by decide +kernel⟩,
    Fetched.readable asGroup (by decide +kernel) ⟨broadcasts_register rfl, by decide +kernel⟩⟩

abbrev opposed : State := withLane (withLane (withMode asGroup 0x20000000) 0 2 0x7F800000) 1 2 0xFF800000
abbrev aOpposed : Issue := issueIn groupOnly 0 opposed

theorem wit_TreeResults_traps : ∃ r, treeResult (.fredadd 1 2 0) = some r ∧ Issues groupOnly r.guard opposed aOpposed ∧
    aOpposed.registersOk (.nat, r.dst) [(.nat, r.src)] ∧
    ∃ vals u, opposed.awake.operands aOpposed [(.nat, r.src)] [r.dst] = .ok vals u ∧
      (r.answer (opposed.modeOf aOpposed) aOpposed vals).2.enabled (opposed.modeOf aOpposed) = true :=
  ⟨_, rfl, issuesIn_sound (by decide +kernel), ⟨by decide +kernel, by decide +kernel⟩,
    Fetched.readable opposed (by decide +kernel) (by decide +kernel)⟩

/-! ### Hints, branches, paths and queues -/

abbrev hinted : State := withHints asGroup { Hints.none with ximm := some 5, guard := some (0, 3), sched := some (0, 1), mod := some 0 }
abbrev aHinted : Issue := (hinted.issue (.group 2 0 0)).getD default
abbrev aPlain : Issue := (asGroup.issue (.group 2 0 0)).getD default

theorem wit_HintWords : (Latches asGroup aPlain ∧ aPlain.front.hints.ximm = none ∧ aPlain.front.hints.guard = none ∧
      aPlain.front.hints.sched = none ∧ aPlain.front.hints.mod = none) ∧
    (Latches hinted aHinted ∧ aHinted.front.hints.ximm ≠ none ∧ aHinted.front.hints.guard ≠ none ∧ aHinted.front.hints.sched ≠ none ∧
      aHinted.front.hints.mod ≠ none) :=
  ⟨⟨by constructor <;> decide +kernel, by decide +kernel⟩,
    ⟨by constructor <;> decide +kernel, by decide +kernel⟩⟩

abbrev aYield : Issue := issueIn groupLead 0 asGroup
abbrev aEnd : Issue := issueIn groupLead 0 asLead
abbrev aBranch : Issue := issueIn branchAttr 0 asGroup

theorem wit_HintWords_ends : (Issues groupLead 0 asGroup aYield ∧ aYield.kind = .group) ∧
    (Issues groupLead 0 asLead aEnd ∧ aEnd.kind = .lead) ∧ Issues branchAttr 0 asGroup aBranch :=
  ⟨⟨issuesIn_sound (by decide +kernel), by decide +kernel⟩, ⟨issuesIn_sound (by decide +kernel), by decide +kernel⟩,
    issuesIn_sound (by decide +kernel)⟩

/-- n loop frames about the word at 0, the innermost of 63 words. -/
def looping (n : Nat) : State := (withLane asGroup 0 1 3).modCtl 2 0 fun k => { k with loops := List.replicate n ⟨0, 252, 2⟩ }

theorem wit_HintWords_loop : ∀ n ∈ [0, 3, 4], Issues branchAttr 0 (looping n) (issueIn branchAttr 0 (looping n)) ∧
    (issueIn branchAttr 0 (looping n)).regOk false .nat 1 = true ∧
    ((issueIn branchAttr 0 (looping n)).kind = .group → (looping n).awake.pathCount (issueIn branchAttr 0 (looping n)) ≤ 1) ∧
    ∃ vals u, (looping n).awake.operands (issueIn branchAttr 0 (looping n)) [(.nat, 1)] [] = .ok vals u ∧
      (nth vals 0 (lowestLane (issueIn branchAttr 0 (looping n)).active)).toNat ≠ 0 ∧
      (u.loops (issueIn branchAttr 0 (looping n))).length = n ∧
      ∀ f ∈ (u.loops (issueIn branchAttr 0 (looping n))).head?,
        f.first.toNat ≤ (issueIn branchAttr 0 (looping n)).front.pc.toNat + 4 ∧
        (issueIn branchAttr 0 (looping n)).front.pc.toNat + 4 * (63 : RegField).toNat ≤ f.last.toNat := by
  intro n h
  obtain rfl | rfl | rfl := among3 h
  all_goals exact ⟨issuesIn_sound (by decide +kernel), by decide +kernel, by decide +kernel,
    Fetched.readable asGroup (by decide +kernel) (by decide +kernel)⟩

theorem wit_HintWords_skip : aBranch.regOk false .nat 1 = true ∧ (aBranch.kind = .group → asGroup.awake.pathCount aBranch ≤ 1) ∧
    (∃ vals u, asGroup.awake.operands aBranch [(.nat, 1)] [] = .ok vals u ∧ (nth vals 0 (lowestLane aBranch.active)).toNat = 0 ∧
      u.loops aBranch = []) :=
  ⟨by decide +kernel, by decide +kernel, Fetched.readable asGroup (by decide +kernel) (by decide +kernel)⟩

theorem wit_HintWords_repeat : aBranch.front.hints.mod = none ∧ (asGroup.awake.loops aBranch).any (·.last == aBranch.front.pc) = false ∧
    (asGroup.awake.repeatsBranch { aBranch with front := { aBranch.front with pc := aBranch.next } } 5).1 = some false := by decide +kernel

/-- Predicate p1 of the group holds in lane 0 alone. -/
def someLanes (s : State) : State := s.modUnit 2 0 fun r => { r with lanes := { r.lanes with preds := SMap.put r.lanes.preds 0 2 } }

/-- Frames of the join stack about the whole group. -/
def joined (s : State) (js : List Join) : State := s.modCtl 2 0 fun k => { k with joins := js }

abbrev parted : State := someLanes asGroup
abbrev aParted : Issue := issueIn branchAttr 1 parted

theorem wit_Branches : Issues branchAttr 1 parted aParted ∧ MayBranch parted.awake aParted [(aParted.active, aParted.target18 8)] ∧
    aParted.regOk false .nat 2 = true ∧ aParted.regOk true .nat 1 = true ∧
    (∃ vals u, parted.awake.operands aParted [(.nat, 2)] [] = .ok vals u ∧ aParted.misaligned (targetIn vals) = 0 ∧
      MayBranch parted.awake aParted (byTarget (targetIn vals) (lanesOf aParted.active))) ∧
    ∃ vals u, parted.awake.operands aParted [(.nat, 2)] [1] = .ok vals u ∧ u.broadcasts aParted 1 :=
  ⟨issuesIn_sound (by decide +kernel), ⟨fun _ => by decide +kernel, fun _ => by decide +kernel⟩, by decide +kernel, by decide +kernel,
    Fetched.readable parted (by decide +kernel) ⟨by decide +kernel, fun _ => by decide +kernel, fun _ => by decide +kernel⟩,
    Fetched.readable parted (by decide +kernel) (broadcasts_register rfl)⟩

abbrev odd : State := withLane asGroup 3 2 6
abbrev aOdd : Issue := issueIn branchAttr 0 odd

theorem wit_Branches_misaligned : Issues branchAttr 0 odd aOdd ∧ aOdd.kind = .group ∧ aOdd.regOk false .nat 2 = true ∧
    aOdd.regOk true .nat 1 = true ∧
    (∃ vals u, odd.awake.operands aOdd [(.nat, 2)] [] = .ok vals u ∧ aOdd.misaligned (targetIn vals) ≠ 0) ∧
    ∃ vals u, odd.awake.operands aOdd [(.nat, 2)] [1] = .ok vals u ∧ aOdd.misaligned (targetIn vals) ≠ 0 :=
  ⟨issuesIn_sound (by decide +kernel), by decide +kernel, by decide +kernel, by decide +kernel,
    Fetched.readable odd (by decide +kernel) (by decide +kernel), Fetched.readable odd (by decide +kernel) (by decide +kernel)⟩

/-- The group is in its trap handler. -/
def trapped (s : State) : State := (s.takeTrap { aGroup with path := 0 } ⟨Cause.trapSw, 0xFF, 0, 0⟩)

abbrev inHandler : State := { someLanes (trapped (withPage asGroup)) with cur := some (.group 2 0 0) }
abbrev aHandled : Issue := issueIn branchAttr 1 inHandler
abbrev inLoop : State := someLanes (asGroup.modCtl 2 0 fun k => { k with loops := [⟨0, 8, 2⟩] })
abbrev aLooped : Issue := issueIn branchAttr 1 inLoop
abbrev withBinding (s : State) : State := s.modUnit 2 0 fun r => { r with lanyard := some ⟨8, 0, [⟨0, true, false⟩]⟩ }
abbrev inSegment : State := someLanes (withBinding asGroup)
abbrev aSegment : Issue := issueIn branchAttr 1 inSegment

theorem wit_Branches_handler : Issues branchAttr 1 inHandler aHandled ∧ aHandled.kind = .group ∧
    aHandled.lanes &&& ~~~aHandled.active ≠ 0 ∧ aHandled.handler = true :=
  ⟨issuesIn_sound (by decide +kernel), by decide +kernel⟩

theorem wit_Branches_loop : Issues branchAttr 1 inLoop aLooped ∧ aLooped.kind = .group ∧ aLooped.lanes &&& ~~~aLooped.active ≠ 0 ∧
    aLooped.handler = false ∧ inLoop.awake.loops aLooped ≠ [] :=
  ⟨issuesIn_sound (by decide +kernel), by decide +kernel⟩

theorem wit_Branches_segment : Issues branchAttr 1 inSegment aSegment ∧ aSegment.kind = .group ∧
    aSegment.lanes &&& ~~~aSegment.active ≠ 0 ∧ aSegment.handler = false ∧ inSegment.awake.loops aSegment = [] ∧
    inSegment.awake.divided aSegment [aSegment.active] = [(0, 0xFF)] :=
  ⟨issuesIn_sound (by decide +kernel), by decide +kernel⟩

abbrev aPath : Issue := issueIn pathAttr 0 asGroup
abbrev deep (n : Nat) : State := joined asGroup (List.replicate n ⟨0, 0xFF, 0⟩)

theorem wit_Divergence : (∀ n ∈ [15, 16], Issues pathAttr 0 (deep n) (issueIn pathAttr 0 (deep n)) ∧
      (((deep n).awake.unit 2 0).map (·.ctl.joins.length)) = some n) ∧
    ((((deep 16).awake.unit 2 0).map fun r => (r.ctl.joins.zipIdx.find? fun x => x.1.includes (issueIn pathAttr 0 (deep 16)).lanes)) =
      some (some (⟨0, 0xFF, 0⟩, 0))) ∧
    (issueIn pathAttr 0 (deep 16)).active = (issueIn pathAttr 0 (deep 16)).lanes ∧
    ((((deep 16).awake.unit 2 0).map fun r => (discarded r.ctl.joins (issueIn pathAttr 0 (deep 16)).lanes 16).map (·.2.1)) = some (some [])) ∧
    (deep 16).awake.divided (issueIn pathAttr 0 (deep 16)) [(issueIn pathAttr 0 (deep 16)).active] = [] := by
  refine ⟨?_, by decide +kernel⟩
  intro n h
  obtain rfl | rfl := among2 h
  all_goals exact ⟨issuesIn_sound (by decide +kernel), by decide +kernel⟩

theorem wit_Divergence_none : Issues pathAttr 0 (deep 0) (issueIn pathAttr 0 (deep 0)) ∧
    ((((deep 0).awake.unit 2 0).map fun r => ((r.ctl.joins.zipIdx.find? fun x => x.1.includes (issueIn pathAttr 0 (deep 0)).lanes).isNone,
      (discarded r.ctl.joins (issueIn pathAttr 0 (deep 0)).lanes 1).isNone)) = some (true, true)) :=
  ⟨issuesIn_sound (by decide +kernel), by decide +kernel⟩

/-- The launch of the placed context is a reforming one. -/
def reformingGroup : State := asGroup.modLaunch 1 placedHandle fun l => { l with record := { l.record with reform := true } }
abbrev aReform : Issue := issueIn pathAttr 0 reformingGroup

theorem wit_Divergence_reform : Issues pathAttr 0 reformingGroup aReform ∧ (16 : RegField).toNat ≤ aReform.regs ∧
    (reformingGroup.awake.unit aReform.core aReform.unit).isSome = true ∧
    aReform.regOk false .nat 60 = true ∧ reformingGroup.awake.reforming aReform = true ∧
    reformingGroup.awake.tokenPending aReform (List.range 16) = false ∧ reformingGroup.awake.lanesBound aReform = false ∧
    ∃ vals u, reformingGroup.awake.operands aReform [(.nat, 60)] [] = .ok vals u ∧ aReform.misaligned (aReform.reformTo 60 vals) = 0 :=
  ⟨issuesIn_sound (by decide +kernel), by decide +kernel, by decide +kernel, by decide +kernel, by decide +kernel, by decide +kernel,
    by decide +kernel, Fetched.readable asGroup (by decide +kernel) (by decide +kernel)⟩

abbrev hankGroup : State := asGroup.modUnit 2 0 fun r => { r with info := { r.info with hank := true } }
abbrev aHank : Issue := issueIn groupLead 0 hankGroup
abbrev endpoint (n : Word) : State := withLane asGroup 0 1 n

theorem wit_QueueMapping : isQueue 56 = true ∧ isQueue 59 = true ∧ (Issues groupLead 0 hankGroup aHank ∧ aHank.hank = true) ∧
    ∀ x ∈ [((0 : Word), (none : Option Nat)), (2, none), (11, some 4), (15, some 4)],
      Issues groupLead 0 (endpoint x.1) (issueIn groupLead 0 (endpoint x.1)) ∧
      (issueIn groupLead 0 (endpoint x.1)).hank = false ∧ (issueIn groupLead 0 (endpoint x.1)).regOk false .nat 1 = true ∧
      ∃ vals u, (endpoint x.1).awake.operands (issueIn groupLead 0 (endpoint x.1)) [(.nat, 1), (.nat, 60)] [] = .ok vals u ∧
        ∃ r, u.unit 2 0 = some r ∧ u.mapRefused (issueIn groupLead 0 (endpoint x.1)) r 0
          ((nth vals 0 (lowestLane (issueIn groupLead 0 (endpoint x.1)).active)).toNat % 16)
          ((nth vals 1 (lowestLane (issueIn groupLead 0 (endpoint x.1)).active)).toNat % 4) = x.2 := by
  refine ⟨by decide, by decide, ⟨issuesIn_sound (by decide +kernel), by decide +kernel⟩, ?_⟩
  intro x h
  obtain rfl | rfl | rfl | rfl := among4 h
  all_goals exact ⟨issuesIn_sound (by decide +kernel), by decide +kernel, by decide +kernel,
    Fetched.readable asGroup (by decide +kernel) ⟨_, Option.eq_some_of_isSome (by decide +kernel), by decide +kernel⟩⟩

/-! ### The lanyard -/

abbrev aLan : Issue := issueIn lanyardAttr 0 asGroup
abbrev boundGroup : State := withBinding asGroup
abbrev aBound : Issue := issueIn lanyardAttr 0 boundGroup
abbrev theLanyard : Lanyard := ⟨8, 0, [⟨0, true, false⟩]⟩

theorem on_lanyard : OnLanyard boundGroup.awake aBound theLanyard := by constructor <;> decide +kernel

theorem wit_LanyardBinding : (Issues lanyardAttr 0 asGroup aLan ∧ 8 * (1 : RegField).toNat ≤ aLan.width ∧ aLan.scalarOk false 60 = true ∧
      asGroup.awake.tokenPending aLan [60] = false ∧ asGroup.awake.lanyardOf aLan = none ∧
      (asGroup.awake.source aLan .nat 60 none (lowestLane aLan.active)).toNat < 512 ∧ asGroup.awake.wholeGroup aLan = true ∧
      mixedSegment 8 aLan.width (asGroup.awake.live aLan) = false ∧ aLan.scalarOk true 5 = true) ∧
    (Issues lanyardAttr 0 boundGroup aBound ∧ (boundGroup.awake.lanyardOf aBound).isSome = true ∧ boundGroup.awake.wholeGroup aBound = true ∧
      OnLanyard boundGroup.awake aBound theLanyard) :=
  ⟨⟨issuesIn_sound (by decide +kernel), by decide +kernel⟩, ⟨issuesIn_sound (by decide +kernel), by decide +kernel, by decide +kernel, on_lanyard⟩⟩

abbrev aRound : Issue := issueIn lanyardRound 0 boundGroup

theorem wit_LanyardBinding_order : aBound.regOk true .nat 1 = true ∧ isQueue 1 = false ∧ aBound.regOk false .pair 2 = true ∧
    aBound.regOk false .pair 4 = true ∧ boundGroup.awake.tokenPending aBound (fieldRegs .pair 2 ++ fieldRegs .pair 4) = false ∧
    (Issues lanyardRound 0 boundGroup aRound ∧ aRound.regOk true .pair 6 = true ∧
      ∀ x ∈ theLanyard.touched aRound.active, ∀ f ∈ [f32, f64], (segRound f (ftz (boundGroup.modeOf aRound))
        (aRound.arith (boundGroup.modeOf aRound)) aRound.modSaturation x.1 (boundGroup.awake.segValue aRound theLanyard x.2 2)
          theLanyard.f).ev.enabled (boundGroup.modeOf aRound) = false) :=
  ⟨by decide +kernel, by decide +kernel, by decide +kernel, by decide +kernel, by decide +kernel,
    issuesIn_sound (by decide +kernel), by decide +kernel, by decide +kernel⟩

abbrev aPart : Issue := issueIn lanyardAttr 1 (someLanes asGroup)
abbrev aHalfBound : Issue := issueIn lanyardAttr 1 (someLanes boundGroup)
/-- The bound segment holds NAN, and invalid is enabled. -/
abbrev nanSegment : State := withMode (asGroup.modUnit 2 0 fun r => { r with lanyard := some ⟨8, 0, [⟨2, true, false⟩]⟩ }) 0x20000000
abbrev aNan : Issue := issueIn lanyardRound 0 nanSegment

theorem wit_LanyardBinding_traps : (boundGroup.awake.lanyardOf aBound).isSome = true ∧
    (∃ s, s = withLane asGroup 0 1 4096 ∧ Issues lanyardAttr 0 s (issueIn lanyardAttr 0 s) ∧ s.awake.lanyardOf (issueIn lanyardAttr 0 s) = none ∧
      (s.awake.source (issueIn lanyardAttr 0 s) .nat 1 none (lowestLane (issueIn lanyardAttr 0 s).active)).toNat = 4096) ∧
    (Issues lanyardAttr 1 (someLanes asGroup) aPart ∧ (someLanes asGroup).awake.lanyardOf aPart = none ∧ aPart.scalarOk false 60 = true ∧
      (someLanes asGroup).awake.tokenPending aPart [60] = false ∧ (someLanes asGroup).awake.wholeGroup aPart = false) ∧
    (Issues lanyardAttr 1 (someLanes boundGroup) aHalfBound ∧ ((someLanes boundGroup).awake.lanyardOf aHalfBound).isSome = true ∧
      (someLanes boundGroup).awake.wholeGroup aHalfBound = false) ∧
    (Issues lanyardRound 0 nanSegment aNan ∧ OnLanyard nanSegment.awake aNan ⟨8, 0, [⟨2, true, false⟩]⟩ ∧ aNan.regOk true .pair 4 = true ∧
      ((Lanyard.touched ⟨8, 0, [⟨2, true, false⟩]⟩ aNan.active).filter fun y => (segRound f32 (ftz (nanSegment.modeOf aNan))
        (aNan.arith (nanSegment.modeOf aNan)) aNan.modSaturation y.1 0 0).ev.enabled (nanSegment.modeOf aNan)) ≠ []) :=
  ⟨by decide +kernel, ⟨_, rfl, issuesIn_sound (by decide +kernel), by decide +kernel, by decide +kernel⟩,
    ⟨issuesIn_sound (by decide +kernel), by decide +kernel⟩, ⟨issuesIn_sound (by decide +kernel), by decide +kernel⟩,
    issuesIn_sound (by decide +kernel), by constructor <;> decide +kernel, by decide +kernel, by decide +kernel⟩

abbrev fullSegment : State := withBinding (withMode ((List.range 8).foldl (fun s l => withLane (withLane s l 2 0xFFFFFFFF) l 3 (if l = 7 then 0x7FFFFFFF else 0xFFFFFFFF)) asGroup)
  0x400000000)
abbrev aFull : Issue := issueIn lanyardAttr 0 fullSegment

theorem wit_LanyardExact : ∃ r, segResult (.ladd 4 2 2 0) = some r ∧
    (Issues lanyardAttr r.guard boundGroup aBound ∧ r.legal aBound = true ∧ boundGroup.awake.tokenPending aBound r.regs = false ∧
      OnLanyard boundGroup.awake aBound theLanyard ∧ (boundGroup.modeOf aBound).getLsbD 34 = false) ∧
    (Issues lanyardAttr r.guard fullSegment aFull ∧ OnLanyard fullSegment.awake aFull theLanyard ∧
      (fullSegment.modeOf aFull).getLsbD 34 = true ∧
      ∃ y ∈ theLanyard.touched aFull.active, segOverflows theLanyard.k (r.value fullSegment.awake aFull theLanyard y).1 = true) :=
  ⟨_, rfl, ⟨issuesIn_sound (by decide +kernel), by decide +kernel, by decide +kernel, on_lanyard, by decide +kernel⟩,
    issuesIn_sound (by decide +kernel), by constructor <;> decide +kernel, by decide +kernel, by decide +kernel⟩

abbrev faultedGroup : State := asGroup.modUnit 2 0 fun r => { r with lanyard := some ⟨8, 0, [⟨0, true, true⟩]⟩ }
abbrev aFaulted : Issue := issueIn lanyardAttr 0 faultedGroup
abbrev aHalf : Issue := issueIn lanyardAttr 1 inSegment

theorem wit_LanyardExact_states : ∃ r, segResult (.ladd 4 2 2 0) = some r ∧
    (Issues lanyardAttr r.guard asGroup aLan ∧ asGroup.awake.lanyardOf aLan = none ∧ asGroup.awake.tokenPending aLan r.regs = false) ∧
    (Issues lanyardAttr r.guard faultedGroup aFaulted ∧ faultedGroup.awake.lanyardOf aFaulted = some ⟨8, 0, [⟨0, true, true⟩]⟩ ∧
      (Lanyard.touched ⟨8, 0, [⟨0, true, true⟩]⟩ aFaulted.active).filter (fun x => x.1.faulted) = [(⟨0, true, true⟩, 0)]) :=
  ⟨_, rfl, ⟨issuesIn_sound (by decide +kernel), by decide +kernel⟩, issuesIn_sound (by decide +kernel), by decide +kernel⟩

theorem wit_LanyardExact_divided : ∃ r, segResult (.ladd 4 2 2 1) = some r ∧ Issues lanyardAttr r.guard inSegment aHalf ∧
    r.legal aHalf = true ∧ inSegment.awake.lanyardOf aHalf = some theLanyard ∧ (∀ x ∈ theLanyard.touched aHalf.active, x.1.faulted = false) ∧
    (theLanyard.touched aHalf.active).filter (fun x => (segLanes 8 x.2 &&& inSegment.awake.live aHalf &&& ~~~aHalf.active) != 0) =
      [(⟨0, true, false⟩, 0)] :=
  ⟨_, rfl, issuesIn_sound (by decide +kernel), by decide +kernel⟩

/-! ### Memory -/

abbrev paged : State := withPage asGroup
abbrev loadAttr : Attr := { memoryAttr with ximm := true }
abbrev aLoad : Issue := issueIn loadAttr 0 paged
abbrev aMem : Issue := issueIn memoryAttr 0 paged
abbrev aVec : Issue := issueIn vectorAttr 0 paged
abbrev stlAttr : Attr := { storeAttr with ximm := true }
abbrev aStl : Issue := issueIn stlAttr 0 paged
abbrev aStore : Issue := issueIn storeAttr 0 paged

theorem wit_Loads : Issues loadAttr 0 paged aLoad ∧ aLoad.registersOk (sizeCls 2, 1) [(.nat, 2)] ∧
    ∃ v u, paged.awake.operands aLoad [(.nat, 2)] [1] = .ok v u ∧ aLoad.addressTrap (paged.awake.wordAccesses aLoad .local 2 63 v) = none ∧
      ∃ vals w, u.loadLanes aLoad (sizeOf' 2) (targets (paged.awake.wordAccesses aLoad .local 2 63 v)) = .ready vals w ∧
        w.broadcasts aLoad 1 :=
  ⟨issuesIn_sound (by decide +kernel), ⟨by decide +kernel, by decide +kernel⟩, Fetched.readable paged (by decide +kernel)
    ⟨by decide +kernel, Access.readable [] paged (by decide +kernel) (broadcasts_register rfl)⟩⟩

/-- Cluster address 0 is the core's own offset 0. -/
abbrev cluster : State := paged
abbrev aCluster : Issue := issueIn loadAttr 0 cluster

theorem wit_Loads_cluster : Issues loadAttr 0 cluster aCluster ∧ aCluster.registersOk (sizeCls 2, 1) [(.nat, 2)] ∧
    ∃ v u, cluster.awake.operands aCluster [(.nat, 2)] [1] = .ok v u ∧
      aCluster.addressTrap (cluster.awake.wordAccesses aCluster .cluster 2 0 v) = none ∧
      ∃ vals w, u.loadLanes aCluster (sizeOf' 2) (targets (cluster.awake.wordAccesses aCluster .cluster 2 0 v)) = .ready vals w :=
  ⟨issuesIn_sound (by decide +kernel), ⟨by decide +kernel, by decide +kernel⟩, Fetched.readable cluster (by decide +kernel)
    ⟨by decide +kernel, _, _, Access.eq_ready [] cluster (by decide +kernel)⟩⟩

theorem wit_Loads_indexed : Issues memoryAttr 0 paged aMem ∧ aMem.registersOk (.word, 1) [(.nat, 2), (.word, 3)] ∧
    ∃ v u, paged.awake.operands aMem [(.nat, 2), (.word, 3)] [1] = .ok v u ∧
      aMem.addressTrap (paged.awake.indexedAccesses aMem v) = none ∧
      ∃ vals w, u.loadLanes aMem 4 (targets (paged.awake.indexedAccesses aMem v)) = .ready vals w :=
  ⟨issuesIn_sound (by decide +kernel), ⟨by decide +kernel, by decide +kernel⟩, Fetched.readable paged (by decide +kernel)
    ⟨by decide +kernel, _, _, Access.eq_ready [] paged (by decide +kernel)⟩⟩

theorem wit_Loads_ranked : Issues vectorAttr 0 paged aVec ∧ aVec.plainRegs [1] [2] = true ∧
    ∃ v u, paged.awake.operands aVec [(.nat, 2)] [] = .ok v u ∧ (nth v 0 (lowestLane aVec.active)).toNat % 4 = 0 ∧
      aVec.addressTrap (aVec.ranked.map (paged.awake.rankAccess aVec (nth v 0 (lowestLane aVec.active)).toNat)) = none ∧
      ∃ vals w, u.loadLanes aVec 4 (targets (aVec.ranked.map (paged.awake.rankAccess aVec (nth v 0 (lowestLane aVec.active)).toNat))) =
        .ready vals w :=
  ⟨issuesIn_sound (by decide +kernel), by decide +kernel, Fetched.readable paged (by decide +kernel)
    ⟨by decide +kernel, by decide +kernel, _, _, Access.eq_ready [] paged (by decide +kernel)⟩⟩

theorem wit_Stores : Issues stlAttr 0 paged aStl ∧ aStl.regOk false (sizeCls 3) 4 = true ∧ aStl.regOk false .nat 2 = true ∧
    ∃ v u, paged.awake.operands aStl [(.nat, 2), (sizeCls 3, 4)] [] = .ok v u ∧
      aStl.addressTrap (paged.awake.wordAccesses aStl .local 3 0 v) = none ∧
      (u.storeLanes aStl (sizeOf' 3) (targets (paged.awake.wordAccesses aStl .local 3 0 v)) fun l => (nth v 1 l).toNat).isReady = true ∧
      u.pages aStl.core aStl.ctx ((targets (paged.awake.wordAccesses aStl .local 3 0 v)).map (·.off)) (some aStl.who) = .ready :=
  ⟨issuesIn_sound (by decide +kernel), by decide +kernel, by decide +kernel, Fetched.readable paged (by decide +kernel)
    ⟨by decide +kernel, by decide +kernel, PagesResult.eq_ready (by decide +kernel)⟩⟩

/-- What each of the listed cores is, and a core at reset, every core is. -/
theorem of_every_core {p : CoreState → Bool} (c : Nat) (z : p CoreState.reset = true) :
    ∀ m : SMap CoreState, (∀ x ∈ m, p x.2 = true) → p ((SMap.find m c).getD CoreState.reset) = true
  | [], _ => z
  | (k, v) :: rest, all => by
    have := of_every_core c z rest fun x i => all x (.tail _ i)
    have := all (k, v) (.head _)
    rw [SMap.find]
    repeat' split
    all_goals assumption

/-- With wit_Stores, wit_Stores_indexed and wit_Stores_ranked, of the same state: every hypothesis of StoreFrame. -/
theorem wit_StoreFrame (c : Nat) : (Memory.wf (paged.core c).store && SMap.wf (paged.core c).frames) = true :=
  of_every_core (p := fun k => Memory.wf k.store && SMap.wf k.frames) c rfl paged.cores (by decide +kernel)

theorem wit_Stores_indexed : Issues storeAttr 0 paged aStore ∧ aStore.regOk false .word 1 = true ∧ aStore.regOk false .nat 2 = true ∧
    ∃ v u, paged.awake.operands aStore [(.nat, 2), (.word, 3), (.word, 1)] [] = .ok v u ∧
      aStore.addressTrap (paged.awake.indexedAccesses aStore v) = none ∧
      (u.storeLanes aStore 4 (targets (paged.awake.indexedAccesses aStore v)) fun l => (nth v 2 l).toNat).isReady = true :=
  ⟨issuesIn_sound (by decide +kernel), by decide +kernel, by decide +kernel, Fetched.readable paged (by decide +kernel) (by decide +kernel)⟩

abbrev cstrAttr : Attr := { vectorAttr with spin := true }
abbrev aCstr : Issue := issueIn cstrAttr 0 paged

theorem wit_Stores_ranked : Issues cstrAttr 0 paged aCstr ∧ aCstr.plainRegs [1] [2, 3] = true ∧
    ∃ v u, paged.awake.operands aCstr [(.nat, 2), (.nat, 3)] [] = .ok v u ∧ (nth v 0 (lowestLane aCstr.active)).toNat % 4 = 0 ∧
      ((aCstr.ranked.map (paged.awake.rankAccess aCstr (nth v 0 (lowestLane aCstr.active)).toNat)).all fun x => x.isOk) = true ∧
      (u.storeLanes aCstr 4 (targets (aCstr.ranked.map (paged.awake.rankAccess aCstr (nth v 0 (lowestLane aCstr.active)).toNat)))
        fun l => (nth v 1 l).toNat).isReady = true :=
  ⟨issuesIn_sound (by decide +kernel), by decide +kernel, Fetched.readable paged (by decide +kernel) (by decide +kernel)⟩

theorem wit_BlockLoads : Issues vectorAttr 0 paged aVec ∧ aVec.plainRegs [] [2, 3] = true ∧ (24 : RegField).toNat + 7 < aVec.regs ∧
    ∃ v u, paged.awake.operands aVec [(.nat, 2), (.nat, 3)] [] = .ok v u ∧ (∀ j < 8, ∀ x ∈ aVec.blockAccesses v j, x.isOk = true) ∧
      AllLocal u aVec (((List.range 8).map (aVec.blockAccesses v)).flatMap targets) ∧
      aVec.window.holds (nth v 0 (lowestLane aVec.active)).toNat 64 = true ∧ (nth v 0 (lowestLane aVec.active)).toNat % 64 = 0 ∧
      u.pages aVec.core aVec.ctx [(nth v 0 (lowestLane aVec.active)).toNat] (some aVec.who) = .ready :=
  ⟨issuesIn_sound (by decide +kernel), by decide +kernel, by decide +kernel, Fetched.readable paged (by decide +kernel)
    ⟨by decide +kernel, ⟨by decide +kernel, PagesResult.eq_ready (by decide +kernel)⟩, by decide +kernel, by decide +kernel,
      PagesResult.eq_ready (by decide +kernel)⟩⟩

theorem wit_LocalAccesses : AllLocal paged aMem [⟨0, 2, 0, 0⟩, ⟨1, 2, 4092, 4092⟩] :=
  ⟨by decide +kernel, PagesResult.eq_ready (by decide +kernel)⟩

abbrev outside : State := withLane paged 3 2 0x100000
abbrev aOut : Issue := issueIn loadAttr 0 outside
abbrev aOutStl : Issue := issueIn stlAttr 0 outside

theorem wit_AddressTraps : Issues loadAttr 0 outside aOut ∧ aOut.registersOk (sizeCls 2, 1) [(.nat, 2)] ∧
    (∃ v u, outside.awake.operands aOut [(.nat, 2)] [1] = .ok v u ∧
      aOut.addressTrap (outside.awake.wordAccesses aOut .local 2 0 v) = some ⟨Cause.lsBound, 8, 0x100000, 0⟩) ∧
    Issues stlAttr 0 outside aOutStl ∧ aOutStl.regOk false (sizeCls 2) 1 = true ∧
    ∃ v u, outside.awake.operands aOutStl [(.nat, 2), (sizeCls 2, 1)] [] = .ok v u ∧
      aOutStl.addressTrap (outside.awake.wordAccesses aOutStl .local 2 0 v) = some ⟨Cause.lsBound, 8, 0x100000, 0⟩ :=
  ⟨issuesIn_sound (by decide +kernel), ⟨by decide +kernel, by decide +kernel⟩, Fetched.readable outside (by decide +kernel) (by decide +kernel),
    issuesIn_sound (by decide +kernel), by decide +kernel, Fetched.readable outside (by decide +kernel) (by decide +kernel)⟩

/-- Every lane's g2 and g3 hold these values. -/
def based (a b : Word) : State := (List.range 8).foldl (fun s l => withLane (withLane s l 2 a) l 3 b) paged

theorem wit_AddressTraps_words :
    (∃ s i v u, s = based 2 0 ∧ i = issueIn memoryAttr 0 s ∧ Issues memoryAttr 0 s i ∧ i.registersOk (.word, 1) [(.nat, 2), (.word, 3)] ∧
      s.awake.operands i [(.nat, 2), (.word, 3)] [1] = .ok v u ∧ (i.addressTrap (s.awake.indexedAccesses i v)).isSome = true ∧
      (i.addressTrap (s.awake.accesses i .unified 4 fun l => addr32 (nth v 0 l))).isSome = true) ∧
    (∃ s i v u, s = based 2 0 ∧ i = issueIn storeAttr 0 s ∧ Issues storeAttr 0 s i ∧
      s.awake.operands i [(.nat, 2), (.word, 3), (.word, 1)] [] = .ok v u ∧
      (i.addressTrap (s.awake.indexedAccesses i v)).isSome = true) ∧
    (∃ s i v u, s = based 2 0 ∧ i = issueIn storeAttr 0 s ∧ s.awake.operands i (atomicSrcs 1 2 3 false) [1] = .ok v u ∧
      (i.addressTrap (s.awake.accesses i .unified 4 fun l => addr32 (nth v 0 l))).isSome = true) ∧
    (∃ s i v u, s = based 2 0 ∧ i = issueIn { lease := true } 0 s ∧ Issues { lease := true } 0 s i ∧
      s.awake.operands i [(.nat, 2)] [] = .ok v u ∧
      (i.addressTrap (s.awake.accesses i .unified 4 fun l => addr32 (nth v 0 l))).isSome = true) :=
  ⟨⟨_, _, _, _, rfl, rfl, issuesIn_sound (by decide +kernel), ⟨by decide +kernel, by decide +kernel⟩, Fetched.eq_ok paged (by decide +kernel),
      by decide +kernel, by decide +kernel⟩,
    ⟨_, _, _, _, rfl, rfl, issuesIn_sound (by decide +kernel), Fetched.eq_ok paged (by decide +kernel), by decide +kernel⟩,
    ⟨_, _, _, _, rfl, rfl, Fetched.eq_ok paged (by decide +kernel), by decide +kernel⟩,
    ⟨_, _, _, _, rfl, rfl, issuesIn_sound (by decide +kernel), Fetched.eq_ok paged (by decide +kernel), by decide +kernel⟩⟩

theorem wit_AddressTraps_ranked : ∀ a ∈ [(2 : Word), 0xFFFF8, 0x100000],
    (let s := based a 0
     let i := issueIn cstrAttr 0 s
     let all := i.ranked.map (s.awake.rankAccess i a.toNat)
     let good := all.takeWhile (·.isOk)
     Issues cstrAttr 0 s i ∧ i.plainRegs [1] [2, 3] = true ∧
      ∃ v u, s.awake.operands i [(.nat, 2), (.nat, 3)] [] = .ok v u ∧ (nth v 0 (lowestLane i.active)).toNat = a.toNat ∧
        (a ≠ 2 → (all.drop good.length).isEmpty = false ∧ (i.addressTrap all).isSome = true ∧ i.window.holds a.toNat 64 = false) ∧
        (a = 0x100000 → (u.storeLanes i 4 (targets good) fun l => (nth v 1 l).toNat).isReady = true)) := by
  intro a h
  obtain rfl | rfl | rfl := among3 h
  all_goals exact ⟨issuesIn_sound (by decide +kernel), by decide +kernel, Fetched.readable paged (by decide +kernel) (by decide +kernel)⟩

abbrev aAtom : Issue := issueIn storeAttr 0 paged

theorem wit_Atomics : atomicOf (.aadd 1 2 3 0) = some (1, 2, 3, 0, false, fun _ => .add) ∧ Issues storeAttr 0 paged aAtom ∧
    aAtom.registersOk (.word, 1) (atomicSrcs 1 2 3 false) ∧
    ∃ v u, paged.awake.operands aAtom (atomicSrcs 1 2 3 false) [1] = .ok v u ∧
      aAtom.addressTrap (paged.awake.accesses aAtom .unified 4 fun l => addr32 (nth v 0 l)) = none ∧
      farLanes aAtom.core (targets (paged.awake.accesses aAtom .unified 4 fun l => addr32 (nth v 0 l))) = 0 ∧
      ∃ olds w, (u.newId aAtom.core).2.atomicLanes aAtom (targets (paged.awake.accesses aAtom .unified 4 fun l => addr32 (nth v 0 l)))
        (fun _ => .add) (fun l => (nth v 1 l).setWidth 32) true (u.newId aAtom.core).1 = .ready olds w ∧ w.broadcasts aAtom 1 :=
  ⟨rfl, issuesIn_sound (by decide +kernel), ⟨by decide +kernel, by decide +kernel⟩, Fetched.readable paged (by decide +kernel)
    ⟨by decide +kernel, by decide +kernel, Access.readable [] paged (by decide +kernel) (broadcasts_register rfl)⟩⟩

/-- Every lane names word 64 of core (1, 0) of the rectangle. -/
abbrev far : State := (List.range 8).foldl (fun s l => withLane s l 2 0x00100040) paged
abbrev aFar : Issue := issueIn storeAttr 0 far

theorem wit_Atomics_far : Issues storeAttr 0 far aFar ∧ aFar.registersOk (.word, 1) (atomicSrcs 1 2 3 true) ∧
    ∃ v u, far.awake.operands aFar (atomicSrcs 1 2 3 true) [1] = .ok v u ∧
      aFar.addressTrap (far.awake.accesses aFar .unified 4 fun l => addr32 (nth v 0 l)) = none ∧
      farLanes aFar.core (targets (far.awake.accesses aFar .unified 4 fun l => addr32 (nth v 0 l))) = 0xFF ∧
      ∃ olds w, (u.newId aFar.core).2.atomicLanes aFar (targets (far.awake.accesses aFar .unified 4 fun l => addr32 (nth v 0 l)))
        (fun l => AtomicOp.cas ((nth v 2 l).setWidth 32)) (fun l => (nth v 1 l).setWidth 32) true (u.newId aFar.core).1 = .ready olds w :=
  ⟨issuesIn_sound (by decide +kernel), ⟨by decide +kernel, by decide +kernel⟩, Fetched.readable far (by decide +kernel)
    ⟨by decide +kernel, by decide +kernel, _, _, Access.eq_ready [] far (by decide +kernel)⟩⟩

abbrev watchState : State := paged
abbrev aWatch : Issue := issueIn {} 0 watchState
abbrev waitAttr : Attr := { memoryAttr with h := false }
abbrev aWait : Issue := issueIn waitAttr 0 paged
/-- The value in every lane's g3 is the word that waits see at 0, or one above it. -/
abbrev expecting : State := (List.range 8).foldl (fun s l => withLane s l 3 1) paged
abbrev aExpect : Issue := issueIn waitAttr 0 expecting

theorem wit_WatchingAndFence : Issues {} 0 watchState aWatch ∧ aWatch.regOk false .nat 2 = true ∧
    (∃ v u, watchState.awake.operands aWatch [(.nat, 2)] [] = .ok v u ∧
      aWatch.addressTrap (watchState.awake.accesses aWatch .unified 4 fun l => addr32 (nth v 0 l)) = none) ∧
    (∀ s ∈ [paged, expecting], Issues waitAttr 0 s (issueIn waitAttr 0 s) ∧
      (issueIn waitAttr 0 s).registersOk (.word, 1) [(.nat, 2), (.word, 3)] ∧
      ∃ v u, s.awake.operands (issueIn waitAttr 0 s) [(.nat, 2), (.word, 3)] [1] = .ok v u ∧
        (issueIn waitAttr 0 s).addressTrap (s.awake.accesses (issueIn waitAttr 0 s) .unified 4 fun l => addr32 (nth v 0 l)) = none ∧
        ∃ vals w, u.loadLanes (issueIn waitAttr 0 s) 4 (targets (s.awake.accesses (issueIn waitAttr 0 s) .unified 4
            fun l => addr32 (nth v 0 l))) = .ready vals w ∧ w.broadcasts (issueIn waitAttr 0 s) 1) := by
  refine ⟨issuesIn_sound (by decide +kernel), by decide +kernel, Fetched.readable paged (by decide +kernel) (by decide +kernel), ?_⟩
  intro s h
  obtain rfl | rfl := among2 h
  all_goals exact ⟨issuesIn_sound (by decide +kernel), ⟨by decide +kernel, by decide +kernel⟩, Fetched.readable asGroup (by decide +kernel)
    ⟨by decide +kernel, Access.readable [] asGroup (by decide +kernel) (broadcasts_register rfl)⟩⟩

/-! ### Barriers, pages and the L2 -/

/-- A barrier of the core that awaits two parties. -/
def armed (s : State) (id : Nat) : State := s.setBarrier 2 1 1 id { Barrier.idle with expected := 2 }

abbrev groupBar : State := armed asGroup 15
abbrev barIn (s : State) : Issue := issueIn barrierAttr 0 s
abbrev leadBar : State := armed (withPage (withLead asLead 2 64)) 0
/-- The group waits at barrier 15 of the core, whose generation has ended or not. -/
abbrev departed (gone : Bool) : State := asGroup.modUnit 2 0 fun r => { r with waits := [⟨false, 0xFF, 0, 1, 15, some 0, none, gone⟩] }
/-- The lead's CNTSUM waits, or has departed. -/
abbrev summed (gone : Bool) : State := leadBar.modUnit 2 0 fun r => { r with waits := [⟨true, 0, 0, 1, 0, some 0, some 64, gone⟩] }
/-- The group's record lies at 64. -/
abbrev groupSum : State := armed (withPage (withLane asGroup 0 2 64)) 0
/-- A generation, and the one that the lead holds. -/
abbrev ended (gen held : Nat) : State := (withLead asLead 2 (BitVec.ofNat 64 held)).setBarrier 2 1 1 0 { Barrier.idle with gen := BitVec.ofNat 32 gen }
/-- Its BARW waits, or its generation has ended. -/
abbrev awaited (gen held : Nat) : State := (ended gen held).modUnit 2 0 fun r => { r with
  waits := [⟨true, 0, 0, 1, 0, some (BitVec.ofNat 32 held), none, false⟩] }

/-- A barrier word of barrier id of the scope issues with legal fields. -/
theorem names_in {s : State} {sc : BitVec 3} {id : RegField} {reads writes : List RegField} {lane : Bool} (h : issuesIn barrierAttr 0 s = true)
    (k : ((barIn s).barrierOk sc id reads writes lane && !s.awake.tokenPending (barIn s) (reads.flatMap fun r => fieldRegs .pair r)) = true) :
    NamesBarrier 0 s (barIn s) sc id reads writes lane :=
  ⟨issuesIn_sound h, (Bool.and_eq_true_iff.1 k).1, by simpa using (Bool.and_eq_true_iff.1 k).2⟩

theorem atBar_in {s : State} {sc : BitVec 3} {id : RegField} {reads writes : List RegField} {lane : Bool} (h : issuesIn barrierAttr 0 s = true)
    (k : ((barIn s).barrierOk sc id reads writes lane && !s.awake.tokenPending (barIn s) (reads.flatMap fun r => fieldRegs .pair r)) = true)
    (p : s.awake.barrierReason (barIn s) sc.toNat id.toNat = none) : AtBarrier 0 s (barIn s) sc id reads writes lane :=
  ⟨names_in h k, p⟩

/-- Group code at a core barrier: it has departed, or waits, or arrives. -/
theorem wit_Barriers_group : (∀ gone ∈ [true, false], AtBarrier 0 (departed gone) (barIn (departed gone)) 1 15 [] [] true ∧
      ((departed gone).awake.ownWait (barIn (departed gone))).map (·.departed) = some gone) ∧
    (AtBarrier 0 groupBar (barIn groupBar) 1 15 [] [] true ∧ groupBar.awake.ownWait (barIn groupBar) = none ∧
      groupBar.awake.barrierIdle (barIn groupBar) 1 15 = false ∧ (barIn groupBar).kind = .group) ∧
    AtBarrier 0 groupBar (barIn groupBar) 1 15 [] [60] true ∧
    (AtBarrier 0 groupSum (barIn groupSum) 1 0 [2] [] false ∧ (barIn groupSum).window.holds 64 64 = true ∧
      (groupSum.awake.wide (barIn groupSum) 2).toNat = 64 ∧ groupSum.awake.ownWait (barIn groupSum) = none ∧
      groupSum.awake.barrierIdle (barIn groupSum) 1 0 = false ∧ (barIn groupSum).kind = .group) := by
  refine ⟨?_, ⟨atBar_in ?_ ?_ ?_, ?_⟩, atBar_in ?_ ?_ ?_, atBar_in ?_ ?_ ?_, ?_⟩
  · simp only [List.forall_mem_cons]
    exact ⟨⟨atBar_in (by decide +kernel) rfl rfl, rfl⟩, ⟨atBar_in (by decide +kernel) rfl rfl, rfl⟩, fun _ h => nomatch h⟩
  all_goals decide +kernel

/-- Lead code: BAR and BARA arrive; CNTSUM arrives, waits or has departed; BARINIT arms. -/
theorem wit_Barriers_lead : (∀ gone ∈ [true, false], AtBarrier 0 (summed gone) (barIn (summed gone)) 1 0 [2] [] false ∧
      ((summed gone).awake.ownWait (barIn (summed gone))).map (·.departed) = some gone) ∧
    (AtBarrier 0 leadBar (barIn leadBar) 1 0 [] [2] true ∧ AtBarrier 0 leadBar (barIn leadBar) 1 0 [] [] true ∧
      leadBar.awake.barrierIdle (barIn leadBar) 1 0 = false ∧ leadBar.awake.ownWait (barIn leadBar) = none) ∧
    (AtBarrier 0 leadBar (barIn leadBar) 1 0 [2] [] false ∧ (leadBar.awake.wide (barIn leadBar) 2).toNat = 64 ∧
      (barIn leadBar).window.holds 64 64 = true ∧ (barIn leadBar).kind = .lead ∧ (leadBar.awake.barrier 2 1 1 0).parties = []) := by
  refine ⟨?_, ⟨atBar_in ?_ ?_ ?_, atBar_in ?_ ?_ ?_, ?_⟩, atBar_in ?_ ?_ ?_, ?_⟩
  · simp only [List.forall_mem_cons]
    exact ⟨⟨atBar_in (by decide +kernel) rfl rfl, rfl⟩, ⟨atBar_in (by decide +kernel) rfl rfl, rfl⟩, fun _ h => nomatch h⟩
  all_goals decide +kernel

/-- How many generations the barrier is past the one that the lead holds. -/
abbrev ahead (s : State) : Int := (s.awake.generation (barIn s) 1 0 - (s.awake.wide (barIn s) 2).setWidth 32).toInt

/-- BARW meets a generation that has ended, the present one, and one to come; and waits, or goes on after a wait. -/
theorem wit_Barriers_token : (∀ held ∈ [0, 1, 2], AtBarrier 0 (ended 1 held) (barIn (ended 1 held)) 1 0 [2] [] true ∧
      (ended 1 held).awake.ownWait (barIn (ended 1 held)) = none ∧ ahead (ended 1 held) = 1 - held) ∧
    (∀ held ∈ [0x7FFFFFFF, 0x80000000], AtBarrier 0 (awaited 0x80000000 held) (barIn (awaited 0x80000000 held)) 1 0 [2] [] true ∧
      ((awaited 0x80000000 held).awake.ownWait (barIn (awaited 0x80000000 held))).isSome = true ∧
      ahead (awaited 0x80000000 held) = 0x80000000 - held) := by
  simp only [List.forall_mem_cons]
  exact ⟨⟨⟨atBar_in (by decide +kernel) rfl rfl, rfl, by decide +kernel⟩, ⟨atBar_in (by decide +kernel) rfl rfl, rfl, by decide +kernel⟩,
      ⟨atBar_in (by decide +kernel) rfl rfl, rfl, by decide +kernel⟩, fun _ h => nomatch h⟩,
    ⟨atBar_in (by decide +kernel) rfl rfl, rfl, by decide +kernel⟩, ⟨atBar_in (by decide +kernel) rfl rfl, rfl, by decide +kernel⟩,
    fun _ h => nomatch h⟩

/-- The launch may REFORM; the group's arrival at another barrier has begun; a party has arrived; a record of address x. -/
abbrev reformer : State := groupBar.modContext 1 fun x => { x with launches := x.launches.map fun l =>
  (l.1, { l.2 with record := { l.2.record with reform := true } }) }
abbrev elsewhere : State := groupBar.modUnit 2 0 fun r => { r with arrival := some ⟨1, 14, 1, [], none⟩ }
abbrev met : State := leadBar.setBarrier 2 1 1 0 { Barrier.idle with expected := 2, parties := [⟨1, 0, some 2, false, []⟩] }
abbrev recordAt (x : Dword) : State := armed (withPage (withLead asLead 2 x)) 0

/-- Every reason of a BARRIER trap, and the records that CNTSUM refuses. -/
theorem wit_Barriers_traps : (∀ x ∈ [(0x100000 : Dword), 68], AtBarrier 0 (recordAt x) (barIn (recordAt x)) 1 0 [2] [] false ∧
      ((recordAt x).awake.wide (barIn (recordAt x)) 2).toNat = x.toNat ∧
      ((barIn (recordAt x)).window.holds x.toNat 64 = true ↔ x.toNat % 64 ≠ 0)) ∧
    (NamesBarrier 0 reformer (barIn reformer) 1 15 [] [] true ∧ reformer.awake.ownWait (barIn reformer) = none ∧
      (barIn reformer).kind = .group ∧ reformer.awake.reforming (barIn reformer) = true) ∧
    (NamesBarrier 0 asGroup (barIn asGroup) 6 15 [] [] true ∧ (asGroup.core 2).podOn = false) ∧
    (NamesBarrier 0 elsewhere (barIn elsewhere) 1 15 [] [] true ∧ (elsewhere.awake.arrival (barIn elsewhere)).map (·.id) = some 14 ∧
      elsewhere.awake.reforming (barIn elsewhere) = false) ∧
    (AtBarrier 0 asGroup (barIn asGroup) 1 15 [] [] true ∧ asGroup.awake.barrierIdle (barIn asGroup) 1 15 = true) ∧
    (AtBarrier 0 met (barIn met) 1 0 [2] [] false ∧ (met.awake.barrier 2 1 1 0).parties ≠ []) ∧
    (AtBarrier 0 (recordAt 0) (barIn (recordAt 0)) 1 0 [2] [] false ∧ ((recordAt 0).awake.barrier 2 1 1 0).parties = []) := by
  refine ⟨?_, ⟨names_in ?_ ?_, ?_⟩, ⟨names_in ?_ ?_, ?_⟩, ⟨names_in ?_ ?_, ?_⟩, ⟨atBar_in ?_ ?_ ?_, ?_⟩, ⟨atBar_in ?_ ?_ ?_, ?_⟩,
    atBar_in ?_ ?_ ?_, ?_⟩
  · simp only [List.forall_mem_cons]
    exact ⟨⟨atBar_in (by decide +kernel) rfl rfl, by decide +kernel⟩, ⟨atBar_in (by decide +kernel) rfl rfl, by decide +kernel⟩,
      fun _ h => nomatch h⟩
  all_goals decide +kernel

/-- The lead's s2 and s4, and K of its unit. -/
def wide (s : State) (x y : Dword) (k : Nat) : State := withLead (withLead (leadHints s { Hints.none with
  ximm := if k = 0 then none else some (BitVec.ofNat 23 k) }) 2 x) 4 y

abbrev bare (s : State) (x y : Dword) : State := withLead (withLead s 2 x) 4 y
abbrev lines (k : Nat) (x y : Dword) : State := wide asLead x y k
abbrev aLines (k : Nat) (x y : Dword) : Issue := issueIn pageAttr 0 (lines k x y)

theorem wit_PagesAndLines : (∃ u, ReadsWide pageAttr 0 2 4 [] (lines 1 0 0) u (aLines 1 0 0) 0 0 ∧ (aLines 1 0 0).k = 1) ∧
    (∃ u, ReadsWide pageAttr 0 2 4 [] (lines 2 (2 ^ 40 - 64) 64) u (aLines 2 (2 ^ 40 - 64) 64) (2 ^ 40 - 64) 64 ∧
      (aLines 2 (2 ^ 40 - 64) 64).k = 2) ∧
    (∃ u, ReadsWide pageAttr 0 2 4 [] (lines 0x20001 (2 ^ 57 - 65536) 65536) u (aLines 0x20001 (2 ^ 57 - 65536) 65536) (2 ^ 57 - 65536) 65536 ∧
      (aLines 0x20001 (2 ^ 57 - 65536) 65536).k = 0x20001) :=
  ⟨⟨_, readsWide_in (by decide +kernel) (by decide +kernel), by decide +kernel⟩,
    ⟨_, readsWide_in (by decide +kernel) (by decide +kernel), by decide +kernel⟩,
    ⟨_, readsWide_in (by decide +kernel) (by decide +kernel), by decide +kernel⟩⟩

abbrev pinning : State := bare (withPage asLead) 0 1
abbrev aPinning : Issue := issueIn pageAttr 0 pinning

/-- Page 0 has n pins, and m other pages of the core one each. -/
abbrev pinnedAt (n m : Nat) : State := pinning.modCore 2 fun k => { k with frames := (List.range (m + 1)).map fun j =>
  (j, ⟨1, j, .resident, if j = 0 then n else 1, false, false, false, 0, none, 0, [], none, false, false, none⟩) }
abbrev aPinnedAt (n m : Nat) : Issue := issueIn pageAttr 0 (pinnedAt n m)

theorem wit_PagesAndLines_pins : (∃ u, ReadsWide pageAttr 0 2 4 [2] pinning u aPinning 0 1 ∧ aPinning.k = 0 ∧ u.broadcasts aPinning 2 ∧
      (pinning.core 2).pinning.any aPinning.pinning = false ∧
      (pinning.core 2).pinned + ((List.range 1).filter fun p => (pinning.core 2).pins 1 p == 0).length ≤ 224 ∧
      (pinning.core 2).pins 1 0 ≠ 255 ∧ SMap.wf (pinning.core 2).frames = true ∧
      ∃ f, (pinning.core 2).frameOf 1 0 = some f ∧ f.2.refused = none ∧ f.2.state = .resident) ∧
    (∃ u, ReadsWide pageAttr 0 2 4 [2] (pinnedAt 0 224) u (aPinnedAt 0 224) 0 1 ∧
      224 < ((pinnedAt 0 224).core 2).pinned + ((List.range 1).filter fun p => ((pinnedAt 0 224).core 2).pins 1 p == 0).length) ∧
    (∃ u, ReadsWide pageAttr 0 2 4 [2] (pinnedAt 255 0) u (aPinnedAt 255 0) 0 1 ∧ ((pinnedAt 255 0).core 2).pins 1 0 = 255) :=
  ⟨⟨_, readsWide_in (by decide +kernel) (by decide +kernel), by decide +kernel, broadcasts_register rfl, by decide +kernel, by decide +kernel,
      by decide +kernel, by decide +kernel, (0, ⟨1, 0, .resident, 0, false, false, false, 0, none, 0, [], none, false, false, none⟩),
      by decide +kernel⟩,
    ⟨_, readsWide_in (by decide +kernel) (by decide +kernel), by decide +kernel⟩,
    _, readsWide_in (by decide +kernel) (by decide +kernel), by decide +kernel⟩

/-! ### The copy engine -/

abbrev hauling : State := bare asLead 0x400000 0x480000040
abbrev aHauling : Issue := issueIn xfAttr 0 hauling
abbrev hauling2 : State := wide asLead 0x400000 0x8000080080000040 (14 * 2 ^ 18 + 4)
abbrev aHauling2 : Issue := issueIn xfAttr 0 hauling2

theorem wit_EngineEntries : (∃ u, ReadsWide xfAttr 0 2 4 [] hauling u aHauling 0x400000 0x480000040 ∧ TakesEntry hauling.awake aHauling 3 ∧
      firstFailing [hauling.awake.spanAt aHauling 0x80000040 4 4, hauling.awake.nearAt aHauling 0] = none) ∧
    (∃ u, ReadsWide xfAttr 0 2 4 [] hauling2 u aHauling2 0x400000 0x8000080080000040 ∧ TakesEntry hauling2.awake aHauling2 0 ∧
      aHauling2.k / 2 ^ 18 = 14 ∧ aHauling2.k % 2 ^ 18 = 4) :=
  ⟨⟨_, readsWide_in (by decide +kernel) (by decide +kernel), by constructor <;> decide +kernel,
      by decide +kernel⟩,
    _, readsWide_in (by decide +kernel) (by decide +kernel), by constructor <;> decide +kernel,
    by decide +kernel⟩

/-- A HAUL2 of 2 to the power 6 bytes. -/
abbrev hauling0 : State := wide asLead 0x400000 0x8000080080000040 4
abbrev aHauling0 : Issue := issueIn xfAttr 0 hauling0

/-- The unit has slots 0 to 3, and a reservation of them all. -/
def slotted (s : State) : State := s.modUnit 2 0 fun r => { r with slotCount := 4, resvs := [⟨0, 4, 1, 0, false, false, 0, 0, 0⟩], rgen := 1, accs := [0] }

abbrev haulting : State := slotted (bare asLead 0x400000 0)
abbrev aHaulting : Issue := issueIn xfAttr 0 haulting
abbrev bumping : State := bare asLead 0x80000040 1
abbrev aBumping : Issue := issueIn xfAttr 0 bumping

theorem wit_EngineEntries_others : (∃ u, ReadsWide xfAttr 0 2 4 [] hauling0 u aHauling0 0x400000 0x8000080080000040 ∧
      TakesEntry hauling0.awake aHauling0 0 ∧
      firstFailing [hauling0.awake.spanAt aHauling0 0x80000040 64 4, hauling0.awake.spanAt aHauling0 0x80000800 4 4,
        hauling0.awake.nearAt aHauling0 4] = none) ∧
    (∃ u, ReadsWide xfAttr 0 2 4 [] haulting u aHaulting 0x400000 0 ∧ TakesEntry haulting.awake aHaulting 0 ∧
      firstFailing [haulting.awake.nearAt aHaulting aHaulting.k] = none ∧ haulting.awake.unheld aHaulting 0 1 = none) ∧
    (∃ u, ReadsWide xfAttr 0 2 4 [] bumping u aBumping 0x80000040 1 ∧ TakesEntry bumping.awake aBumping 0 ∧ aBumping.k = 0 ∧
      firstFailing [bumping.awake.spanAt aBumping 0x80000040 4 4] = none) :=
  ⟨⟨_, readsWide_in (by decide +kernel) (by decide +kernel), by constructor <;> decide +kernel,
      by decide +kernel⟩,
    ⟨_, readsWide_in (by decide +kernel) (by decide +kernel), by constructor <;> decide +kernel,
      by decide +kernel⟩,
    _, readsWide_in (by decide +kernel) (by decide +kernel), by constructor <;> decide +kernel,
    by decide +kernel⟩

abbrev aStat : Issue := issueIn xfAttr 0 asLead
abbrev clearing : State := wide (asLead.modQueue 2 0 1 fun q => { q with faulted := true }) 0 0 1
abbrev aClearing : Issue := issueIn xfAttr 0 clearing

theorem wit_EngineEntries_status : (∃ u, ReadsWide xfAttr 0 60 60 [2] clearing u aClearing 0 0 ∧ aClearing.k = 1 ∧ aClearing.hank = false ∧
      (clearing.awake.queue aClearing.core aClearing.engines 1).faulted = true) ∧
    (∃ u, ReadsWide xfAttr 0 60 60 [] asLead u aStat 0 0 ∧ aStat.k = 0 ∧ ∀ j ∈ (List.range 4).filter fun j => (0xF : BitVec 4).getLsbD j,
      (asLead.awake.queue aStat.core aStat.engines j).faulted = false ∧ (asLead.awake.queue aStat.core aStat.engines j).entries.length < 16) :=
  ⟨⟨_, readsWide_in (by decide +kernel) (by decide +kernel), by decide +kernel⟩,
    _, readsWide_in (by decide +kernel) (by decide +kernel), by decide +kernel⟩

/-! ### Tiles -/

abbrev claiming (n : Nat) : State := asLead.modUnit 2 0 fun r => { r with slotCount := n }
abbrev aClaiming (n : Nat) : Issue := issueIn tileAttr 0 (claiming n)

theorem wit_TileSlots : ∀ n ∈ [0, 1], (∃ u, ReadsWide tileAttr 0 60 60 [2] (claiming n) u (aClaiming n) 0 0 ∧ u.broadcasts (aClaiming n) 2) ∧
    consistent 0 = true ∧ (∃ r, HoldsSlots (claiming n).awake (aClaiming n) r [] ∧
      (((claiming n).awake.core (aClaiming n).core).tile.freeRun r.slotBase r.slotCount 1).isSome = (n == 1)) := by
  intro n h
  obtain rfl | rfl := among2 h
  · exact ⟨⟨_, readsWide_in (by decide +kernel) (by decide +kernel), broadcasts_register rfl⟩, by decide +kernel,
      { placedUnit with slotCount := 0 }, by constructor <;> decide +kernel, by decide +kernel⟩
  · exact ⟨⟨_, readsWide_in (by decide +kernel) (by decide +kernel), broadcasts_register rfl⟩, by decide +kernel,
      { placedUnit with slotCount := 1 }, by constructor <;> decide +kernel, by decide +kernel⟩

/-- The slots stand in a state. -/
def slotsAs (x : SlotState) (s : State) : State := s.modTile 2 fun t => { t with slots := (List.range 5).map fun k => (k, ⟨x, 1, 0, 0⟩) }

abbrev unitOf (s : State) : Resident := (s.unit 2 0).getD placedUnit
abbrev heldSlots : State := bare (slotted asLead) 0x10C0 0
abbrev aHeld : Issue := issueIn tileAttr 0 heldSlots

theorem wit_TileSlots_held : (∃ u, ReadsWide tileAttr 0 2 60 [] heldSlots u aHeld 0x10C0 0) ∧ HoldsSlots heldSlots.awake aHeld (unitOf heldSlots) [] ∧
    (unitOf heldSlots).named 0x10C0 = some ⟨0, 4, 1, 0, false, false, 0, 0, 0⟩ ∧ (∃ u, ReadsWide tileAttr 0 60 60 [2] heldSlots u aHeld 0 0) :=
  ⟨⟨_, readsWide_in (by decide +kernel) (by decide +kernel)⟩, by constructor <;> decide +kernel, by decide +kernel,
    _, readsWide_in (by decide +kernel) (by decide +kernel)⟩

abbrev filling : State := slotsAs .empty (slotted (bare asLead 0x80002000 0xC0))
abbrev aFilling : Issue := issueIn tileCopyAttr 0 filling
abbrev draining : State := slotsAs .ready (slotted (bare asLead 0x80002000 0xC0))
abbrev aDraining : Issue := issueIn tileCopyAttr 0 draining

theorem wit_TileSlots_copies : (∃ u, ReadsWide tileCopyAttr 0 2 4 [] filling u aFilling 0x80002000 0xC0) ∧
    HoldsSlots filling.awake aFilling (unitOf filling) [0, 1, 2, 3] ∧
    firstFailing [filling.awake.spanAt aFilling 0x80002000 (255 * 128 + 128) 64, filling.awake.nearAt aFilling 0] = none ∧
    (filling.awake.core 2).tile.cmds.length < 8 ∧ filling.awake.inboxRoom 2 .req = true ∧ filling.awake.slotsWritable 2 [0, 1, 2, 3] = true ∧
    (∃ u, ReadsWide tileCopyAttr 0 2 4 [] draining u aDraining 0x80002000 0xC0) ∧
    HoldsSlots draining.awake aDraining (unitOf draining) [0, 1, 2, 3] ∧
    ∀ k ∈ [0, 1, 2, 3], ((draining.awake.core 2).tile.slot k).state = .ready :=
  ⟨⟨_, readsWide_in (by decide +kernel) (by decide +kernel)⟩, by constructor <;> decide +kernel, by decide +kernel,
    by decide +kernel, by decide +kernel, by decide +kernel, ⟨_, readsWide_in (by decide +kernel) (by decide +kernel)⟩,
    by constructor <;> decide +kernel, by decide +kernel⟩

abbrev spliceAttr : Attr := { tileAttr with ximm := true, spin := true }
abbrev splicing : State := slotsAs .empty (slotted asLead)
abbrev aSplice : Issue := issueIn spliceAttr 0 splicing

theorem wit_TileSlots_splice : Issues spliceAttr 0 splicing aSplice ∧ aSplice.k < 256 ∧ HoldsSlots splicing.awake aSplice (unitOf splicing) [3] ∧
    splicing.awake.context aSplice.ctx = some placedContext ∧ placedContext.record.rw = placedContext.record.rh ∧
    (splicing.awake.core 2).tile.splices = [] ∧ splicing.awake.slotsWritable 2 [3] = true ∧
    placedContext.partner aSplice.core 0 = some 2 ∧ placedContext.partner aSplice.core 1 ≠ some 2 :=
  ⟨issuesIn_sound (by decide +kernel), by decide +kernel, by constructor <;> decide +kernel, by decide +kernel⟩

abbrev D : Dword := 0x0C000040
/-- A step of A slot 0 and B slot 1, depth 32. -/
abbrev stepping : State := slotsAs .ready (slotted (bare asLead D (BitVec.allOnes 64)))
abbrev aStep : Issue := issueIn tileAttr 0 stepping
abbrev fidStepping : State := stepping.modTile 2 fun t => { t with fid := [(0, { FidRecord.reset with state := .valid, ctx := 1, gen := 1 })] }

theorem wit_MatrixSteps : (∃ u, ReadsWide tileAttr 0 2 4 [] stepping u aStep D (BitVec.allOnes 64)) ∧
    TakesStep stepping.awake aStep D 0 none (unitOf stepping) 0 ∧
    ((stepping.awake.core aStep.core).tile.identity aStep.ctx (stepDesc D).aslot).state = .absent :=
  ⟨⟨_, readsWide_in (by decide +kernel) (by decide +kernel)⟩,
    ⟨by decide +kernel, by constructor <;> decide +kernel, by decide +kernel, by decide +kernel, by decide +kernel,
      by decide +kernel, by decide +kernel⟩, by decide +kernel⟩

abbrev structuredAttr : Attr := { tileAttr with l := false }
abbrev structured : State := slotsAs .ready (slotted ((withLane asGroup 0 2 0x0C000040)))
abbrev aStructured : Issue := issueIn structuredAttr 0 structured

theorem wit_MatrixSteps_others : (∃ u, ReadsWide structuredAttr 0 2 60 [] structured u aStructured D 0) ∧
    aStructured.laneRun 4 1 = true ∧ structured.awake.tokenPending aStructured [4] = false ∧
    TakesStep structured.awake aStructured D 0 (some 0) (unitOf structured) 0 ∧
    (∃ u, ReadsWide tileAttr 0 60 60 [2] stepping u aStep 0 0 ∧ HoldsSlots stepping.awake aStep (unitOf stepping) [] ∧
      stepping.awake.stepBatches aStep.core aStep.unit = []) ∧
    (∃ u, ReadsWide tileAttr 0 60 60 [] stepping u aStep 0 0 ∧ ¬ 0 < ((0 : Word) - ((unitOf stepping).batch - 1)).toInt) :=
  ⟨⟨_, readsWide_in (by decide +kernel) (by decide +kernel)⟩, by decide +kernel, by decide +kernel,
    ⟨by decide +kernel, by constructor <;> decide +kernel, by decide +kernel, by decide +kernel, by decide +kernel,
      by decide +kernel, by decide +kernel⟩,
    ⟨_, readsWide_in (by decide +kernel) (by decide +kernel), by constructor <;> decide +kernel, by decide +kernel⟩,
    _, readsWide_in (by decide +kernel) (by decide +kernel), by decide +kernel⟩

abbrev accGroup : State := slotsAs .empty (slotted asGroup)
abbrev aAcc : Issue := issueIn tileAttr 0 accGroup
abbrev aAccRead : Issue := issueIn structuredAttr 0 accGroup
abbrev convertAttr : Attr := { l := false, h := false, round := 6, sat := 4, info := 21 }
abbrev aConvert : Issue := issueIn convertAttr 0 accGroup

theorem wit_AccumulatorsAndRecords : Issues tileAttr 0 accGroup aAcc ∧ AtAccumulator accGroup.awake aAcc (unitOf accGroup) 0 0 ∧
    Issues structuredAttr 0 accGroup aAccRead ∧ aAccRead.laneRun 24 8 = true ∧
    accGroup.awake.tokenPending aAccRead ((List.range 8).map ((24 : RegField).toNat + ·)) = false ∧
    (Issues convertAttr 0 accGroup aConvert ∧ HoldsSlots accGroup.awake aConvert (unitOf accGroup) [3] ∧
      (unitOf accGroup).reservation 3 = some ⟨0, 4, 1, 0, false, false, 0, 0, 0⟩ ∧ aConvert.satListed 0 = true ∧ 8 * (15 : BitVec 4).toNat < fmtRow 0 ∧
      accGroup.awake.slotsWritable aConvert.core [3] = true ∧
      ∀ z ∈ (accGroup.awake.convertLanes aConvert (unitOf accGroup) ⟨0, 4, 1, 0, false, false, 0, 0, 0⟩ 3 15 24 (lanesOf aConvert.active)
        (accGroup.awake.core aConvert.core).tile).2, z.2.1.enabled (accGroup.modeOf aConvert) = false) ∧
    (∃ u, ReadsWide tileAttr 0 60 60 [2] accGroup u aAcc 0 0) :=
  ⟨issuesIn_sound (by decide +kernel), ⟨by constructor <;> decide +kernel, by decide +kernel, by decide +kernel⟩,
    issuesIn_sound (by decide +kernel), by decide +kernel, by decide +kernel,
    ⟨issuesIn_sound (by decide +kernel), by constructor <;> decide +kernel, by decide +kernel⟩,
    _, readsWide_in (by decide +kernel) (by decide +kernel)⟩

/-! ### Tables -/

/-- A table of len words at base, in lane 0's g2 and g3; the index of lane 1 is b. -/
def tableAt (base len b : Word) : State := withLane (withLane (withLane paged 0 2 base) 0 3 len) 1 4 b
abbrev gatherIn (s : State) : Issue := issueIn irregularAttr 0 s
abbrev scatterAttr : Attr := { irregularAttr with spin := true }
abbrev scatterIn (s : State) : Issue := issueIn scatterAttr 0 s

theorem names_table {s : State} {i : Issue} {write read : List RegField} {base len : Nat} (h : (i.tableOk 2 write read
      && (s.acknowledged i).isNone && !s.tokenPending i (fieldRegs .pair 2 ++ read.map (·.toNat)) && s.table i 2 == (base, len)) = true) :
    NamesTable s i 2 write read base len := by
  simp only [Bool.and_eq_true, Bool.not_eq_true', beq_iff_eq, Option.isNone_iff_eq_none] at h
  exact ⟨h.1.1.1, h.1.1.2, h.1.2, h.2⟩

/-- An index in range, and one past the table's 4 words in lane 1. -/
theorem wit_TableAccesses : ∀ b ∈ [(3 : Word), 4],
    (Issues irregularAttr 0 (tableAt 0x80000040 4 b) (gatherIn (tableAt 0x80000040 4 b)) ∧
      OnTable (tableAt 0x80000040 4 b).awake (gatherIn (tableAt 0x80000040 4 b)) 2 [1] [4] 0x80000040 4 2) ∧
    (Issues scatterAttr 0 (tableAt 0x80000040 4 b) (scatterIn (tableAt 0x80000040 4 b)) ∧ scatterOf (.scmax 1 2 4 0) = some (.max, 1, 2, 4, 0) ∧
      OnTable (tableAt 0x80000040 4 b).awake (scatterIn (tableAt 0x80000040 4 b)) 2 [] [4, 1] 0x80000040 4 2) ∧
    (tableAt 0x80000040 4 b).awake.ownRoom 2 = true ∧
    (let l := (tableAt 0x80000040 4 b).awake.elements (gatherIn (tableAt 0x80000040 4 b)) 0x80000040 4 4
     (indexRange l).isSome = decide (b = 4) ∧ ascending (goodElements l) ≠ []) := by
  simp only [List.forall_mem_cons]
  refine ⟨⟨⟨issuesIn_sound ?_, ⟨names_table ?_, ?_, ?_, ?_⟩, ?_⟩, ⟨issuesIn_sound ?_, ?_, ⟨names_table ?_, ?_, ?_, ?_⟩, ?_⟩, ?_⟩,
    ⟨⟨issuesIn_sound ?_, ⟨names_table ?_, ?_, ?_, ?_⟩, ?_⟩, ⟨issuesIn_sound ?_, ?_, ⟨names_table ?_, ?_, ?_, ?_⟩, ?_⟩, ?_⟩, fun _ h => nomatch h⟩
  all_goals decide +kernel

/-- A GATHER at its word, its elements acknowledged, with the trap that it is to take. -/
abbrev answered (s : State) (r : Option TrapRec) : State := s.modCtl 2 0 fun k => { k with
  pending := [{ (gatherIn s).pendingUnit 1 1 false 0 [] with after := r }] }

/-- Tables that are refused: by LEN, by BASE's space, by its alignment; a table that no core owns; a field that is no pair; a trap due. -/
theorem wit_TableAccesses_traps : tableWord (.gather 1 2 4 0) = some (irregularAttr, 2, 4, 0, [1], [4]) ∧
    (∀ t ∈ [((0x80000040 : Word), (0 : Word)), (0x80000040, 0x1000000), (0x40000000, 4), (0x80000042, 4), (0x07F00000, 4)],
      Issues irregularAttr 0 (tableAt t.1 t.2 0) (gatherIn (tableAt t.1 t.2 0)) ∧
      NamesTable (tableAt t.1 t.2 0).awake (gatherIn (tableAt t.1 t.2 0)) 2 [1] [4] t.1.toNat t.2.toNat) ∧
    namesNoSpace 0x40000000 = true ∧ namesNoSpace 0x07F00000 = false ∧
    (let l := (tableAt 0x07F00000 4 0).awake.elements (gatherIn (tableAt 0x07F00000 4 0)) 0x07F00000 4 4
     (indexRange l).isSome = true ∧ ascending (goodElements l) = []) ∧
    (gatherIn paged).tableOk 3 [1] [4] = false ∧
    (Issues irregularAttr 0 (answered paged (some default)) (gatherIn (answered paged (some default))) ∧
      (gatherIn (answered paged (some default))).tableOk 2 [1] [4] = true ∧
      ((answered paged (some default)).awake.acknowledged (gatherIn (answered paged (some default)))).map (·.after) = some (some default)) := by
  refine ⟨rfl, ?_, ?_, ?_, ?_, ?_, issuesIn_sound ?_, ?_⟩
  · simp only [List.forall_mem_cons]
    exact ⟨⟨issuesIn_sound (by decide +kernel), names_table rfl⟩, ⟨issuesIn_sound (by decide +kernel), names_table rfl⟩,
      ⟨issuesIn_sound (by decide +kernel), names_table rfl⟩, ⟨issuesIn_sound (by decide +kernel), names_table rfl⟩,
      ⟨issuesIn_sound (by decide +kernel), names_table rfl⟩, fun _ h => nomatch h⟩
  all_goals decide +kernel

abbrev haccAttr : Attr := { irregularAttr with c := true, spin := true }
abbrev hashIn (s : State) : Issue := issueIn haccAttr 0 s

theorem names_hash {s : State} {i : Issue} {read : List RegField} {base logc : Nat} (h : (i.tableOk 2 [1] (4 :: read)
      && (s.acknowledged i).isNone && !s.tokenPending i (fieldRegs .pair 2 ++ (4 :: read).map (·.toNat)) && s.table i 2 == (base, logc)) = true) :
    NamesHash s i 2 4 [1] read base logc := by
  simp only [Bool.and_eq_true, Bool.not_eq_true', beq_iff_eq, Option.isNone_iff_eq_none] at h
  exact ⟨h.1.1.1, h.1.1.2, h.1.2, h.2⟩

/-- A hash table of 16 places at 0, before and after its keys are answered. -/
theorem wit_TableAccesses_hash : (∀ r ∈ [none, some (default : TrapRec)], Issues haccAttr 0 (answered paged r) (hashIn (answered paged r)) ∧
      (hashIn (answered paged r)).tableOk 2 [1] [4, (hashIn (answered paged r)).cField 1] = true ∧
      ((answered paged r).awake.acknowledged (hashIn (answered paged r))).map (·.after) = some r) ∧
    (Issues haccAttr 0 (tableAt 0 4 0) (hashIn (tableAt 0 4 0)) ∧
      OnHash (tableAt 0 4 0).awake (hashIn (tableAt 0 4 0)) 2 4 [1] [(hashIn (tableAt 0 4 0)).cField 1] true 0 4) ∧
    (Issues irregularAttr 0 (tableAt 0 4 0) (gatherIn (tableAt 0 4 0)) ∧ OnHash (tableAt 0 4 0).awake (gatherIn (tableAt 0 4 0)) 2 4 [1] [] false 0 4) := by
  refine ⟨?_, ⟨issuesIn_sound ?_, ⟨names_hash ?_, ?_, ?_, ?_, fun _ => ?_⟩⟩, issuesIn_sound ?_, ⟨names_hash ?_, ?_, ?_, ?_, nofun⟩⟩
  · simp only [List.forall_mem_cons]
    exact ⟨⟨issuesIn_sound (by decide +kernel), by decide +kernel⟩, ⟨issuesIn_sound (by decide +kernel), by decide +kernel⟩, fun _ h => nomatch h⟩
  all_goals decide +kernel

/-- Hash tables that are refused by their size, by the window and by alignment, and a reserved key in lane 1. -/
theorem wit_TableAccesses_keys : (∀ t ∈ [((0 : Word), (3 : Word), (0 : Word)), (0xFFFF8, 4, 0), (4, 4, 0), (0, 4, 0xFFFFFFFF)],
      Issues haccAttr 0 (tableAt t.1 t.2.1 t.2.2) (hashIn (tableAt t.1 t.2.1 t.2.2)) ∧
      NamesHash (tableAt t.1 t.2.1 t.2.2).awake (hashIn (tableAt t.1 t.2.1 t.2.2)) 2 4 [1] [1] t.1.toNat t.2.1.toNat) ∧
    (hashIn (tableAt 0 4 0)).window.holds 0xFFFF8 128 = false ∧ (hashIn (tableAt 0 4 0)).window.holds 4 128 = true ∧
    ((lanesOf (hashIn (tableAt 0 4 0xFFFFFFFF)).active).filter fun l =>
      (tableAt 0 4 0xFFFFFFFF).awake.laneWord (hashIn (tableAt 0 4 0xFFFFFFFF)) 4 l == 0xFFFFFFFF) = [1] ∧
    (hashIn paged).tableOk 3 [1] [4, 1] = false := by
  refine ⟨?_, ?_⟩
  · simp only [List.forall_mem_cons]
    exact ⟨⟨issuesIn_sound (by decide +kernel), names_hash rfl⟩, ⟨issuesIn_sound (by decide +kernel), names_hash rfl⟩,
      ⟨issuesIn_sound (by decide +kernel), names_hash rfl⟩, ⟨issuesIn_sound (by decide +kernel), names_hash rfl⟩, fun _ h => nomatch h⟩
  · decide +kernel

/-! ### Messages and handlers -/

abbrev sendAttr : Attr := { messageAttr with ximm := true }
/-- A SEND of 8 registers from a lead to handler 63 on core (1, 0), class RAY. -/
abbrev sending : State := wide asLead 0x087F0001 0 1
abbrev aSending : Issue := issueIn sendAttr 0 sending
/-- A SEND of no words, from local memory. -/
abbrev sendingNone : State := bare (withPage asLead) 0x00010001 0
abbrev aSendingNone : Issue := issueIn sendAttr 0 sendingNone

theorem wit_Messages : (Issues sendAttr 0 sending aSending ∧ aSending.regOk false .pair 2 = true ∧ sending.awake.bufferFull aSending = false ∧
      sending.awake.namesCore aSending 1 3 ∧ aSending.k = 1 ∧ aSending.kind ≠ .group ∧ aSending.scalarRun 48 8 = true ∧
      ∃ v u, sending.awake.operands aSending [(.pair, 2)] [] = .ok v u ∧ nth v 0 (lowestLane aSending.active) = 0x087F0001 ∧
        u.canEmit aSending 3 .ray) ∧
    (Issues sendAttr 0 sendingNone aSendingNone ∧ aSendingNone.k = 0 ∧ sendingNone.awake.namesCore aSendingNone 1 3 ∧
      ∃ v u, sendingNone.awake.operands aSendingNone [(.pair, 2), (.pair, 4)] [] = .ok v u ∧ nth v 0 (lowestLane aSendingNone.active) = 0x00010001 ∧
        nth v 1 (lowestLane aSendingNone.active) = 0 ∧ ∃ vals w, u.readUnits aSendingNone 0 8 0 = .ready vals w) :=
  ⟨⟨issuesIn_sound (by decide +kernel), by decide +kernel, by decide +kernel, by unfold State.namesCore; decide +kernel, by decide +kernel,
      by decide +kernel, by decide +kernel, Fetched.readable sending (by decide +kernel) ⟨by decide +kernel, fun _ => by decide +kernel⟩⟩,
    issuesIn_sound (by decide +kernel), by decide +kernel, by unfold State.namesCore; decide +kernel,
    Fetched.readable sendingNone (by decide +kernel) ⟨by decide +kernel, by decide +kernel, _, _, Access.eq_ready [] sendingNone (by decide +kernel)⟩⟩

/-- A1: core (1, 1), mailbox 31, and a weight word at the end of the window. -/
abbrev posting : State := bare asLead 0x101 5
abbrev aPosting : Issue := issueIn messageAttr 0 posting
abbrev weighing : State := bare asLead 0x010100000FF8 5
abbrev aWeighing : Issue := issueIn messageAttr 0 weighing
abbrev takeAttr : Attr := { messageAttr with h := false }
/-- Mailbox 31 of the core is full. -/
abbrev posted : State := asLead.modHandlers 2 fun h => { h with mailboxes := SMap.put h.mailboxes 31 ⟨true, 7⟩ }
abbrev splitAttr : Attr := { noMod := true, spin := true }
abbrev splitting : State := withLead asLead 2 62
abbrev aSplitting : Issue := issueIn splitAttr 0 splitting

theorem wit_Messages_others : (∃ u, ReadsWide messageAttr 0 2 4 [] posting u aPosting 0x101 5 ∧ posting.awake.bufferFull aPosting = false ∧
      posting.awake.namesCore aPosting 0x101 51 ∧ u.outRoom aPosting.core 51 .ctl = true) ∧
    (∃ u, ReadsWide messageAttr 0 2 4 [] weighing u aWeighing 0x010100000FF8 5 ∧ weighing.awake.weightWord aWeighing 0x010100000FF8 = .ok 51 ∧
      u.outRoom aWeighing.core 51 .req = true) ∧
    (∀ s ∈ [asLead, posted], Issues takeAttr 0 s (issueIn takeAttr 0 s) ∧ (issueIn takeAttr 0 s).regOk true .pair 2 = true ∧
      ∃ v u, s.awake.operands (issueIn takeAttr 0 s) [] [2] = .ok v u ∧ u.broadcasts (issueIn takeAttr 0 s) 2) ∧
    (((asLead.awake.core 2).handlers.mailbox 31).present = false ∧ ((posted.awake.core 2).handlers.mailbox 31).present = true) ∧
    (Issues splitAttr 0 splitting aSplitting ∧ aSplitting.registersOk (.nat, 2) [(.nat, 2)] ∧
      ∃ v u, splitting.awake.operands aSplitting [(.nat, 2)] [2] = .ok v u ∧ (∀ l ∈ lanesOf aSplitting.active, (nth v 0 l).toNat % 256 < 63) ∧
        u.broadcasts aSplitting 2) := by
  refine ⟨⟨_, readsWide_in (by decide +kernel) (by decide +kernel), by decide +kernel, by unfold State.namesCore; decide +kernel, by decide +kernel⟩,
    ⟨_, readsWide_in (by decide +kernel) (by decide +kernel), rfl, by decide +kernel⟩, ?_, by decide +kernel,
    issuesIn_sound (by decide +kernel), ⟨by decide +kernel, by decide +kernel⟩,
    Fetched.readable splitting (by decide +kernel) ⟨by decide +kernel, broadcasts_register rfl⟩⟩
  intro s h
  obtain rfl | rfl := among2 h
  all_goals exact ⟨issuesIn_sound (by decide +kernel), by decide +kernel, Fetched.readable asLead (by decide +kernel) (broadcasts_register rfl)⟩

abbrev hidAttr : Attr := { noMod := true, spin := true }
/-- Handler 63, entry 0xFFFFFFFC, the longest budget. -/
abbrev binding : State := bare asLead 0xFFFFFFFC 0xFFFFFF0000007F
abbrev aBinding : Issue := issueIn hidAttr 0 binding
abbrev unbinding : State := bare asLead 63 0
abbrev aUnbinding : Issue := issueIn hidAttr 0 unbinding
abbrev runAttr : Attr := { g := false, l := false, noMod := true }
abbrev hiRun : State := asRun.modRun 2 0 fun r => { r with hi := true }
abbrev maskedRun : State := asRun.modRun 2 0 fun r => { r with masked := some 9 }

theorem wit_Handlers : (∃ u, ReadsWide hidAttr 0 2 4 [] binding u aBinding 0xFFFFFFFC 0xFFFFFF0000007F ∧
      (60 ≤ 0xFFFFFF0000007F % 64 → aBinding.priv = true)) ∧
    (∃ u, ReadsWide hidAttr 0 2 60 [] unbinding u aUnbinding 63 0 ∧ aUnbinding.priv = true) ∧
    (∀ s ∈ [asRun, hiRun, maskedRun], Issues runAttr 0 s (issueIn runAttr 0 s) ∧ (s.awake.run 2 0).isSome = true) ∧
    (asRun.awake.run 2 0).map (fun r => (r.hi, r.masked)) = some (false, none) ∧ (hiRun.awake.run 2 0).map (·.hi) = some true ∧
    (maskedRun.awake.run 2 0).map (fun r => (r.hi, r.masked)) = some (false, some 9) := by
  refine ⟨⟨_, readsWide_in (by decide +kernel) (by decide +kernel), by decide +kernel⟩,
    ⟨_, readsWide_in (by decide +kernel) (by decide +kernel), by decide +kernel⟩, ?_, by decide +kernel⟩
  intro s h
  obtain rfl | rfl | rfl := among3 h
  all_goals exact ⟨issuesIn_sound (by decide +kernel), by decide +kernel⟩

/-! ### Rays -/

/-- TGT, in s22, is treelet 2; the ray goes to its home as a directory ray, or to core (0, 0). -/
abbrev raying (x : Dword) : State := withLead (wide (hitched asLead) x 0 1) 22 2
abbrev aRaying (x : Dword) : Issue := issueIn sendAttr 0 (raying x)

theorem wit_RaySends : (Issues sendAttr 0 (raying 0x410000) (aRaying 0x410000) ∧ (raying 0x410000).awake.directoryInUse (aRaying 0x410000) ∧
      (aRaying 0x410000).regOk false .pair 2 = true ∧ (raying 0x410000).awake.bufferFull (aRaying 0x410000) = false ∧
      (raying 0x410000).awake.namesCore (aRaying 0x410000) 0 2 ∧ (aRaying 0x410000).k = 1 ∧ (aRaying 0x410000).scalarRun 16 8 = true ∧
      rayTarget ((List.range 8).map fun j => (raying 0x410000).awake.scalarReg (aRaying 0x410000) (16 + j)) = 2 ∧
      placedContext.treeletHome 2 = 2 ∧
      ∃ v u, (raying 0x410000).awake.operands (aRaying 0x410000) [(.pair, 2)] [] = .ok v u ∧
        nth v 0 (lowestLane (aRaying 0x410000).active) = 0x410000 ∧ u.outRoom 2 2 .ray = true) ∧
    (Issues sendAttr 0 (raying 1) (aRaying 1) ∧ (raying 1).awake.namesCore (aRaying 1) 1 3 ∧ (aRaying 1).scalarRun 52 4 = true ∧
      ∃ v u, (raying 1).awake.operands (aRaying 1) [(.pair, 2)] [] = .ok v u ∧ nth v 0 (lowestLane (aRaying 1).active) = 1 ∧
        u.outRoom 2 3 .hit = true) :=
  ⟨⟨issuesIn_sound (by decide +kernel), ⟨placedContext, by decide +kernel, by decide +kernel⟩, by decide +kernel, by decide +kernel,
      by unfold State.namesCore; decide +kernel, by decide +kernel, by decide +kernel, by decide +kernel, by decide +kernel,
      Fetched.readable asLead (by decide +kernel) (by decide +kernel)⟩,
    issuesIn_sound (by decide +kernel), by unfold State.namesCore; decide +kernel, by decide +kernel,
    Fetched.readable asLead (by decide +kernel) (by decide +kernel)⟩

abbrev memRay : State := bare (withPage (hitched asLead)) 0 64
abbrev aMemRay : Issue := issueIn sendAttr 0 memRay

theorem wit_RaySends_memory : Issues sendAttr 0 memRay aMemRay ∧ aMemRay.k = 0 ∧ aMemRay.regOk false .pair 4 = true ∧
    ∃ v u, memRay.awake.operands aMemRay [(.pair, 2), (.pair, 4)] [] = .ok v u ∧ nth v 1 (lowestLane aMemRay.active) = 64 ∧
      ∃ blocks w, u.readUnits aMemRay 64 64 1 = .ready blocks w ∧ blocks.length = 1 ∧ rayTarget (dwords (blocks.headD 0) 8) < 2 ^ 30 :=
  ⟨issuesIn_sound (by decide +kernel), by decide +kernel, by decide +kernel, Fetched.readable memRay (by decide +kernel)
    ⟨by decide +kernel, Access.readable [] memRay (by decide +kernel) (by decide +kernel)⟩⟩

abbrev testing : State := withPage (hitched asGroup)
abbrev aTesting : Issue := issueIn rayAttr 0 testing

theorem wit_RayTests : Issues rayAttr 0 testing aTesting ∧ aTesting.fieldRun 16 16 8 = true ∧ testing.awake.directoryInUse aTesting ∧
    aTesting.regOk true .pair 2 = true ∧ aTesting.fieldRun 24 8 4 = true ∧
    testing.awake.tokenPending aTesting ((List.range 8).map (24 + ·)) = false ∧
    (∃ v u, ReadsBlocks testing.awake u aTesting wholeUnit 4 [] v) ∧ (∃ v u, ReadsBlocks testing.awake u aTesting wholeUnit 4 [2] v) ∧
    (∃ v u, ReadsBlocks testing.awake u aTesting leafParts 4 [2] v ∧ ∀ l ∈ lanesOf aTesting.active, (nth v 0 l).toNat < 2 ^ 22) :=
  ⟨issuesIn_sound (by decide +kernel), by decide +kernel, ⟨placedContext, by decide +kernel, by decide +kernel⟩, by decide +kernel,
    by decide +kernel, by decide +kernel,
    ⟨_, _, by decide +kernel, Fetched.eq_ok testing (by decide +kernel), by decide +kernel, by decide +kernel, PagesResult.eq_ready (by decide +kernel)⟩,
    ⟨_, _, by decide +kernel, Fetched.eq_ok testing (by decide +kernel), by decide +kernel, by decide +kernel, PagesResult.eq_ready (by decide +kernel)⟩,
    _, _, ⟨by decide +kernel, Fetched.eq_ok testing (by decide +kernel), by decide +kernel, by decide +kernel, PagesResult.eq_ready (by decide +kernel)⟩,
    by decide +kernel⟩

abbrev treeAttr : Attr := { noMod := true }
/-- The lead's s4 names treelet 5 and frame 1, frame 1, or a frame that does not exist. -/
abbrev treelets (s : State) (y : Dword) : State := bare (hitched s) 1 y
abbrev resident : State := asLead.modCore 2 fun k => { k with ray := { k.ray with frames := [(1, { TFrame.new 5 0 with use := .resident })] } }

theorem wit_Treelets : ∀ x ∈ [(asLead, (0x100000005 : Dword)), (asLead, 0xF00000005), (resident, 0x100000005)],
    Issues treeAttr 0 (treelets x.1 x.2) (issueIn treeAttr 0 (treelets x.1 x.2)) ∧
    (treelets x.1 x.2).awake.context (issueIn treeAttr 0 (treelets x.1 x.2)).ctx = some placedContext ∧
    (treelets x.1 x.2).awake.hitching placedContext = true ∧ (issueIn treeAttr 0 (treelets x.1 x.2)).regOk true .pair 2 = true ∧
    (∃ v u, (treelets x.1 x.2).awake.operands (issueIn treeAttr 0 (treelets x.1 x.2)) [(.pair, 4)] [2] = .ok v u ∧
      nth v 0 (lowestLane (issueIn treeAttr 0 (treelets x.1 x.2)).active) = x.2) ∧
    (∃ v u, (treelets x.1 x.2).awake.operands (issueIn treeAttr 0 (treelets x.1 x.2)) [(.pair, 2)] [2] = .ok v u ∧
      nth v 0 (lowestLane (issueIn treeAttr 0 (treelets x.1 x.2)).active) = 1) := by
  intro x h
  obtain rfl | rfl | rfl := among3 h
  all_goals exact ⟨issuesIn_sound (by decide +kernel), by decide +kernel, by decide +kernel, by decide +kernel,
    Fetched.readable asLead (by decide +kernel) (by decide +kernel), Fetched.readable asLead (by decide +kernel) (by decide +kernel)⟩

theorem wit_Treelets_frames : ((treelets asLead 0).awake.core 2).ray.hasFrame 1 = true ∧ ((treelets asLead 0).awake.core 2).ray.hasFrame 15 = false ∧
    SMap.find ((treelets asLead 0).awake.core 2).ray.frames 1 = none ∧
    (SMap.find ((treelets resident 0).awake.core 2).ray.frames 1).map (fun t => (t.tid, t.use)) = some (5, .resident) ∧
    (∃ v u, (treelets asLead 0x3FFFFFFF).awake.operands (issueIn treeAttr 0 (treelets asLead 0x3FFFFFFF)) [(.nat, 4)] [2] = .ok v u ∧
      ∀ l ∈ lanesOf (issueIn treeAttr 0 (treelets asLead 0x3FFFFFFF)).active, (nth v 0 l).toNat < 2 ^ 30) :=
  ⟨by decide +kernel, by decide +kernel, by decide +kernel, by decide +kernel, Fetched.readable asLead (by decide +kernel) (by decide +kernel)⟩

/-! ### Kernels, traps and the system -/

/-- A page of the context is resident on core 2, in the frame of its number. -/
def pageAt (s : State) (p : Nat) : State :=
  s.modCore 2 fun k => { k with frames := SMap.put k.frames p ⟨1, p, .resident, 0, false, false, false, 0, none, 0, [], none, false, false, none⟩ }

/-- A launch record of one register and 2 x 2 cores. -/
abbrev aRecord : Nat := 2 ^ 120 + 2 * 2 ^ 224 + 2 * 2 ^ 232
/-- The lead names the record at 64 of the own core; it is malformed, or valid. -/
abbrev launching : State := withLead (withPage asLead) 4 (2 ^ 31 + 64)
abbrev launchable : State := launching.storeLocal ⟨1, 0⟩ 2 64 64 aRecord
abbrev launchAttr : Attr := { kernelAttr with ximm := true }
abbrev aLaunch (s : State) : Issue := issueIn launchAttr 0 s
/-- No index of the launch table is free. -/
abbrev fullTable : State := launching.modContext 1 fun x => { x with
  launches := (List.range 256).map fun n => (n, { (SMap.find x.launches 0).getD default with handle := BitVec.ofNat 32 (256 + n) }) }

theorem resolved {x : Except Nat (Nat × Nat)} {p : Nat × Nat} (h : x.toOption = some p) : x = .ok p := by
  cases x <;> simp_all [Except.toOption]

theorem wit_Kernels : (∀ s ∈ [launching, launchable, fullTable], Issues launchAttr 0 s (aLaunch s) ∧ (aLaunch s).k = 0 ∧
      (aLaunch s).registersOk (.pair, 2) [(.pair, 4)] ∧ ∃ v u, s.awake.operands (aLaunch s) [(.pair, 4)] [2] = .ok v u ∧
        nth v 0 (lowestLane (aLaunch s).active) = 2 ^ 31 + 64 ∧ s.awake.resolve (aLaunch s) .unified (2 ^ 31 + 64) 64 = .ok (2, 64) ∧
        ∃ vals w, u.loadLanes (aLaunch s) 64 [⟨lowestLane (aLaunch s).active, 2, 64, 2 ^ 31 + 64⟩] = .ready vals w ∧ w.broadcasts (aLaunch s) 2) ∧
    (placedContext.state ≠ .dead ∧ placedContext.freeIndex = some 1 ∧ ((fullTable.awake.context 1).map (·.freeIndex)) = some none) ∧
    launchable.launchRefusal 1 placedContext (bytesOfNat aRecord 64) = none ∧
    launching.launchRefusal 1 placedContext (bytesOfNat 0 64) = some 1 := by
  refine ⟨?_, by decide +kernel⟩
  intro s h
  obtain rfl | rfl | rfl := among3 h
  all_goals exact ⟨issuesIn_sound (by decide +kernel), by decide +kernel, ⟨by decide +kernel, by decide +kernel⟩,
    Fetched.readable asLead (by decide +kernel) ⟨by decide +kernel, resolved (by decide +kernel),
      Access.readable [] asLead (by decide +kernel) (broadcasts_register rfl)⟩⟩

/-- A1: the handle of the placed launch, and one that no launch has. -/
abbrev known : State := withLead (withLead asLead 2 0x100) 4 0x100
abbrev unknown : State := withLead (withLead asLead 2 0xFFFFFFFF) 4 0xFFFFFFFF

theorem wit_Kernels_status : (∃ u, ReadsWide kernelAttr 0 2 60 [2] known u (issueIn kernelAttr 0 known) 0x100 0 ∧ u.broadcasts (issueIn kernelAttr 0 known) 2) ∧
    (∃ u, ReadsWide kernelAttr 0 2 60 [2] unknown u (issueIn kernelAttr 0 unknown) 0xFFFFFFFF 0 ∧ u.broadcasts (issueIn kernelAttr 0 unknown) 2) ∧
    (∃ u, ReadsWide kernelAttr 0 60 4 [2] unknown u (issueIn kernelAttr 0 unknown) 0 0xFFFFFFFF ∧ u.broadcasts (issueIn kernelAttr 0 unknown) 2) ∧
    known.awake.launchStatus 1 0x100 % 16 = 3 ∧ unknown.awake.launchStatus 1 0xFFFFFFFF = 8 :=
  ⟨⟨_, readsWide_in (by decide +kernel) (by decide +kernel), broadcasts_register rfl⟩,
    ⟨_, readsWide_in (by decide +kernel) (by decide +kernel), broadcasts_register rfl⟩,
    ⟨_, readsWide_in (by decide +kernel) (by decide +kernel), broadcasts_register rfl⟩, by decide +kernel, by decide +kernel⟩

abbrev trapAttr : Attr := { systemAttr with p := false }
abbrev trapping : State := asLead.modLead 2 0 fun l => { l with s := { l.s with front := { l.s.front with hints := { Hints.none with ximm := some 0xFFFF } } } }
abbrev spilled : State := pageAt (withPage asLead) 8
/-- The group, and the lead, have vectored. -/
def vectoredGroup : State := (withPage asGroup).takeTrap aGroup ⟨Cause.illegal, 0, 0, 0⟩
def vectoredLead : State := spilled.takeTrap aLead ⟨Cause.illegal, 0, 0, 0⟩
abbrev sysIn (s : State) : Issue := issueIn systemAttr 0 s

theorem wit_TrapReturnHalt : (Issues trapAttr 0 asLead (issueIn trapAttr 0 asLead) ∧ (issueIn trapAttr 0 asLead).k < 2 ^ 16) ∧
    (∀ s ∈ [vectoredGroup, vectoredLead], Issues systemAttr 0 s (sysIn s) ∧ (sysIn s).k ≤ 1 ∧ (sysIn s).handler = true ∧
      (∃ t, s.awake.handled (sysIn s) = some t ∧ t.tpc ≠ 0xFFFFFFFF) ∧ s.awake.context (sysIn s).ctx = some placedContext ∧
      s.awake.pages 2 1 (spillPages 0 0 ((sysIn s).kind == .lead) (sysIn s).lanes) (some (sysIn s).who) = .ready) ∧
    (sysIn vectoredGroup).kind = .group ∧ (sysIn vectoredLead).kind = .lead ∧
    (∀ s ∈ [vectoredLead, withLead asLead 2 1], Issues systemAttr 0 s (sysIn s) ∧ (sysIn s).k = 0 ∧ (sysIn s).regOk false .pair 2 = true ∧
      ∃ v u, s.awake.operands (sysIn s) [(.pair, 2)] [] = .ok v u ∧ (sysIn s).haltMode v = if (sysIn s).handler then 0 else 1) ∧
    vectoredLead.awake.unitUnperformed 2 0 = false ∧ spilled.spillHeld aLead = false ∧
    (aLead.kind = .lead ∧ aLead.handler = false ∧ spilled.context aLead.ctx = some placedContext ∧ spilled.unit 2 0 = some placedUnit ∧
      placedUnit.lead.isSome = true ∧ spilled.pages aLead.core aLead.ctx (spillPages 0 0 true aLead.lanes) (some aLead.who) = .ready) := by
  refine ⟨⟨issuesIn_sound (by decide +kernel), by decide +kernel⟩, ?_, by decide +kernel, by decide +kernel, ?_,
    by decide +kernel, by decide +kernel, by decide +kernel, by decide +kernel, by decide +kernel, by decide +kernel, by decide +kernel, PagesResult.eq_ready (by decide +kernel)⟩
  · intro s h
    obtain h | h := among2 h <;> rw [h]
    · exact ⟨issuesIn_sound (by decide +kernel), by decide +kernel, by decide +kernel, ⟨_, Option.eq_some_of_isSome (by decide +kernel), by decide +kernel⟩, by decide +kernel,
        PagesResult.eq_ready (by decide +kernel)⟩
    · exact ⟨issuesIn_sound (by decide +kernel), by decide +kernel, by decide +kernel, ⟨_, Option.eq_some_of_isSome (by decide +kernel), by decide +kernel⟩, by decide +kernel,
        PagesResult.eq_ready (by decide +kernel)⟩
  · intro s h
    obtain rfl | rfl := among2 h
    all_goals exact ⟨issuesIn_sound (by decide +kernel), by decide +kernel, by decide +kernel, Fetched.readable asLead (by decide +kernel) (by decide +kernel)⟩

abbrev sysK (k : Nat) (x : Dword) : State := wide asLead x 0 k

theorem wit_SystemRegisters : (∀ k ∈ [0x4003, 0x5FFF, 0x1FFFF], (sysIn (sysK k 0)).k = k ∧
      ∃ u, ReadsWide systemAttr 0 60 60 [2] (sysK k 0) u (sysIn (sysK k 0)) 0 0 ∧ u.broadcasts (sysIn (sysK k 0)) 2) ∧
    (∀ k ∈ [0x4003, 0x5FFF, 0x10600], (sysIn (sysK k 3)).k = k ∧
      ∃ u, ReadsWide systemAttr 0 2 60 [] (sysK k 3) u (sysIn (sysK k 3)) 3 0 ∧ (sysK k 3).l2.commit = none) := by
  refine ⟨?_, ?_⟩ <;> intro k h <;> obtain rfl | rfl | rfl := among3 h
  · exact ⟨by decide +kernel, _, readsWide_in (by decide +kernel) (by decide +kernel), broadcasts_register rfl⟩
  · exact ⟨by decide +kernel, _, readsWide_in (by decide +kernel) (by decide +kernel), broadcasts_register rfl⟩
  · exact ⟨by decide +kernel, _, readsWide_in (by decide +kernel) (by decide +kernel), broadcasts_register rfl⟩
  all_goals exact ⟨by decide +kernel, _, readsWide_in (by decide +kernel) (by decide +kernel), by decide +kernel⟩

/-- CSAVE operation op on context n with second operand y. -/
abbrev saving (op n y : Nat) : State := wide asLead (BitVec.ofNat 64 n) (BitVec.ofNat 64 y) op
/-- Context 2 is created, in a rectangle of 2 x 2. -/
def twoContexts (s : State) : State := { s with contexts := SMap.put s.contexts 2 { placedContext with
  state := .created, placed := false, launches := [], lastIndex := 255, serial := 0, accepted := 0 } }
abbrev saving2 (op n y : Nat) : State := twoContexts (saving op n y)

theorem wit_ContextOperations : (∀ s ∈ [saving 0 2 128, saving 1 7 0xFFFF, saving2 1 2 4, saving 2 1 0, saving 3 1 0, saving 4 1 0],
      ∃ x y u, ReadsWide systemAttr 0 2 4 [2] s u (sysIn s) x y ∧ x.toNat < 2 ^ 16 ∧ u.broadcasts (sysIn s) 2) ∧
    ((saving 0 2 128).awake.context 2 = none ∧ ((saving2 1 2 4).awake.context 2).map (·.placeable) = some true) ∧
    ((((twoContexts asLead).modContext 2 fun x => { x with state := .faulted }).context 2).map fun c => (c.state, c.midSave, c.closing)) =
      some (.faulted, false, false) := by
  refine ⟨?_, by decide +kernel, by decide +kernel⟩
  intro s h
  obtain h | h | h | h | h | h := among6 h <;> rw [h]
  · exact ⟨2, 128, _, readsWide_in (by decide +kernel) (by decide +kernel), by decide, broadcasts_register rfl⟩
  · exact ⟨7, 0xFFFF, _, readsWide_in (by decide +kernel) (by decide +kernel), by decide, broadcasts_register rfl⟩
  · exact ⟨2, 4, _, readsWide_in (by decide +kernel) (by decide +kernel), by decide, broadcasts_register rfl⟩
  all_goals exact ⟨1, 0, _, readsWide_in (by decide +kernel) (by decide +kernel), by decide, broadcasts_register rfl⟩

/-- The placed context in another state. -/
def inState (st : CtxState) : State := State.modContext asGroup 1 fun x => { x with state := st }
/-- Its tables map the first GiB to the device addresses below 2 ^ 30. -/
def mappedLow (s : State) : State := { s with
  hbm := Memory.writeNat (Memory.writeNat (Memory.writeNat s.hbm 0x100000 8 0x101001) 0x101000 8 0x102001) 0x102000 8 0xF }
/-- Its save area is mapped, or not. -/
def mappedSave : State := mappedLow (inState .preempting)
def unmappedSave : State := mappedSave.modContext 1 fun x => { x with record := { x.record with save := 2 ^ 30 } }

/-- It has faulted, and its save was asked for. -/
def closingSave : State := (mappedLow (inState .faulted)).modContext 1 fun x => { x with closing := true }

theorem wit_ContextOperations_ends : (∀ s ∈ [mappedSave, unmappedSave], ∃ x, s.context 1 = some x ∧ x.state = .preempting ∧
      (let t := x.cores.foldl (fun s c => s.endDoneRuns c) s
       t.saveReady 1 x = true ∧ ∃ va, va ∈ x.savePages ∧ x.savePages.head? = some va)) ∧
    ((mappedSave.context 1).map fun x => x.savePages.all fun va => (mappedSave.savePlace 1 x va).isSome) = some true ∧
    ((unmappedSave.context 1).map fun x => x.savePages.find? fun va => (unmappedSave.savePlace 1 x va).isNone) = some (some (2 ^ 30)) ∧
    (∃ x, closingSave.context 1 = some x ∧ x.state = .faulted ∧ x.closing = true ∧ closingSave.faultedReady 1 x = true) ∧
    (∃ x, (inState .restoring).context 1 = some x ∧ x.state = .restoring ∧ x.pinsDue = [] ∧ x.image = none) ∧
    (∃ x, (inState .dead).context 1 = some x ∧ x.state = .dead) := by
  refine ⟨?_, by decide +kernel, by decide +kernel, ⟨_, Option.eq_some_of_isSome (by decide +kernel), by decide +kernel⟩,
    ⟨_, Option.eq_some_of_isSome (by decide +kernel), by decide +kernel⟩, _, Option.eq_some_of_isSome (by decide +kernel), by decide +kernel⟩
  intro s h
  obtain h | h := among2 h <;> rw [h] <;>
    exact ⟨_, Option.eq_some_of_isSome (by decide +kernel), by decide +kernel, by decide +kernel, _, List.head_mem (by decide +kernel), by decide +kernel⟩

/-! ### What the machine does by itself -/

/-- The placed launch, changed. -/
def launchIs (s : State) (f : Launch → Launch) : State := s.modLaunch 1 placedHandle f
/-- The placed launch is queued behind another, at index 1, in a state. -/
def behind (st : LaunchState) : State := (launchIs asGroup fun l => { l with state := .queued, record := { l.record with preds := [0x201] } }).modContext 1
  fun x => { x with launches := SMap.put x.launches 1 { (SMap.find x.launches 0).getD default with handle := 0x201, state := st, record := placedLaunch } }
/-- It is to be placed, and nothing is resident. -/
def placing : State := (launchIs asGroup fun l => { l with state := .placing, nextGroup := 0 }).modCore 2 fun k => { k with units := [] }
/-- Its group, or a hank, has nothing left. -/
def spent (hank : Bool) : State := (asGroup.modLead 2 0 fun l => { l with ended := true }).modUnit 2 0 fun r => { r with
  info := { r.info with hank := hank }, lanes := { r.lanes with live := 0 }, ctl := { r.ctl with paths := [] } }
/-- It drains, with a held far stow of 64 bytes, or none. -/
def drainingLaunch (held : Bool) : State := (launchIs asGroup fun l => { l with
  state := .draining, release := if held then [(.package 3 64, List.replicate 64 1)] else [] }).modCore 2 fun k => { k with units := [] }
/-- It replays, with a block of core (0, 0) logged. -/
def rolling : State := launchIs (withPage asGroup) fun l => { l with
  state := .replaying, record := { l.record with replay := true }, log := [(2 ^ 63 + 64, List.replicate 64 7)] }

theorem wit_LaunchEvents : (∀ st ∈ [LaunchState.failed, .running, .retired], ∃ x l, (behind st).context 1 = some x ∧
      (behind st).launch 1 placedHandle = some l ∧ x.state ≠ .dead ∧ l.state = .queued ∧ x.placed = true ∧ x.issues = true ∧
      l.record.preds.filterMap (fun p => (x.launch p).map (·.state)) = [st] ∧
      ∀ m ∈ x.launches, x.eligible m.2 = true → m.2.ahead l = false) ∧
    (∃ x l d, placing.context 1 = some x ∧ placing.launch 1 placedHandle = some l ∧ l.pending = true ∧ x.issues = true ∧
      (∀ m ∈ x.launches, x.before m.2 l = false) ∧ placing.placeFor x l = some d) ∧
    (∀ hank ∈ [true, false], ∃ x r, (spent hank).context 1 = some x ∧ (spent hank).unit 2 0 = some r ∧ r.info.ctx = 1 ∧
      r.info.handle = placedHandle ∧ (spent hank).unitDone 2 0 r = true ∧ x.issues = true ∧ x.launchRuns placedHandle = true ∧
      r.info.hank = hank) ∧
    (∀ held ∈ [true, false], ∃ x l, (drainingLaunch held).context 1 = some x ∧ (drainingLaunch held).launch 1 placedHandle = some l ∧
      l.state = .draining ∧ (drainingLaunch held).strandsOf x placedHandle = false ∧ l.release.isEmpty = !held ∧
      (drainingLaunch held).releasing ⟨1, placedHandle⟩ = false) ∧
    (∃ x l, rolling.context 1 = some x ∧ rolling.launch 1 placedHandle = some l ∧ l.state = .replaying ∧
      rolling.rollbackQuiet x placedHandle = true) ∧
    ((asGroup.cores.map (·.1)).flatMap (asGroup.fetchesReading 0) ≠ [] ∧
      asGroup.cached 0 = false ∧ asGroup.lineFetches 0 = true) := by
  refine ⟨?_, ⟨_, _, _, Option.eq_some_of_isSome (by decide +kernel), Option.eq_some_of_isSome (by decide +kernel), by decide +kernel,
      by decide +kernel, by decide +kernel, Option.eq_some_of_isSome (by decide +kernel)⟩, ?_, ?_,
    ⟨_, _, Option.eq_some_of_isSome (by decide +kernel), Option.eq_some_of_isSome (by decide +kernel), by decide +kernel, by decide +kernel⟩,
    by decide +kernel, by decide +kernel⟩
  · intro st h
    obtain rfl | rfl | rfl := among3 h
    all_goals exact ⟨_, _, Option.eq_some_of_isSome (by decide +kernel), Option.eq_some_of_isSome (by decide +kernel), by decide +kernel⟩
  all_goals
    intro b h
    cases b
    all_goals exact ⟨_, _, Option.eq_some_of_isSome (by decide +kernel), Option.eq_some_of_isSome (by decide +kernel), by decide +kernel⟩

/-- A bin of core 2 with one strand of two registers. -/
def binned (drawn : Bool) : State := asGroup.modCore 2 fun k => { k with
  cycle := 2048, bins := [(1, ⟨placedHandle, 0, [⟨[1, 2], 0, 0⟩], drawn, 0, 5⟩)] }
/-- A hit record arrives at core 2, and then stands in the hit queue; its launch bins at RCFG2. -/
def aHit : List Byte := bytesOfNat 0x40 32
def hitComing : State := asGroup.modCore 2 fun k => k.setInbox .hit [⟨0, .hit aHit, none⟩]
def hitKept (handle : Nat) : State := (launchIs asGroup fun l => { l with record := { l.record with lead := none, reform := true } }).modCore 2 fun k => { k with hitQueue := [aHit], ray := { k.ray with rcfg2 := BitVec.ofNat 64 handle } }

def aged : State := asGroup.modUnit 2 0 fun r => { r with info := { r.info with ready := 4096 } }
def budgeted : State := asGroup.modLead 2 0 fun l => { l with budget := 1, readyFor := 512 }

/-- The context lies on the quad of dispatch core 0, whose ring holds 64 bytes. -/
def dispatching : State := ((((asGroup.modContext 1 fun x => { x with x := 0 }).setUnit 0 0 placedUnit).modCore 0 fun k => { k with
  frames := [(0, ⟨1, 0, .resident, 0, false, false, false, 0, none, 0, [], none, false, false, none⟩)] }).storeLocal ⟨1, 0⟩ 0 0 4 64)

theorem wit_CoreEvents : (∀ drawn ∈ [true, false], ∃ x, SMap.find ((binned drawn).core 2).bins 1 = some x ∧ x.drawn = drawn ∧
      x.born + 2048 ≤ ((binned drawn).core 2).cycle ∧ (binned drawn).holder 2 = some (1, placedContext) ∧
      (∃ l, placedContext.launch x.launch = some l ∧ ((binned drawn).core 2).freeUnit = some 1 ∧
        ((binned drawn).core 2).baseFor 0 8 l.record.regs = some 32) ∧ placedContext.issues = true ∧ placedContext.launchRuns x.launch = true) ∧
    (hitComing.core 2).inbox .hit = [⟨0, .hit aHit, none⟩] ∧
    (∀ h ∈ [0x100, 0x999], ∃ y, ((hitKept h).core 2).hitQueue = [aHit] ∧ (hitKept h).holder 2 = some (1, y) ∧ y.issues = true ∧
      y.hitFate (((hitKept h).core 2).ray.rcfg2.setWidth 32) aHit = if h = 0x100 then .files 0x100 0x40 else .removed 0x215) ∧
    ((hitKept 0x100).fileStrand 2 0x100 0x40 (hitStrand aHit)).isSome = true ∧
    (∃ r, aged.unit 2 0 = some r ∧ r.info.ready = 4096) ∧
    (∃ r e, budgeted.unit 2 0 = some r ∧ r.lead = some e ∧ e.budget = 1 ∧ 2 ^ 9 ≤ e.readyFor) ∧
    ((dispatching.core (dispatchCore 0)).units.find? fun z => dispatching.resumes (dispatchCore 0) z.1).isSome = true := by
  refine ⟨?_, by decide +kernel, ?_, by decide +kernel, ⟨_, Option.eq_some_of_isSome (by decide +kernel), by decide +kernel⟩,
    ⟨_, _, Option.eq_some_of_isSome (by decide +kernel), Option.eq_some_of_isSome (by decide +kernel), by decide +kernel⟩, by decide +kernel⟩
  intro b h
  cases b
  rotate_left 2
  · intro h m
    obtain rfl | rfl := among2 m
    all_goals exact ⟨((hitKept 0).holder 2).elim default (·.2), by decide +kernel⟩
  all_goals exact ⟨_, Option.eq_some_of_isSome (by decide +kernel), by decide +kernel, by decide +kernel, by decide +kernel,
    ⟨_, Option.eq_some_of_isSome (by decide +kernel), by decide +kernel⟩, by decide +kernel⟩

/-! ### Messages that homes and requesters take -/

/-- A message from core (1, 0) stands in an inbox of core 2, whose page 0 is resident, or not. -/
def incoming (cls : MsgClass) (m : Msg) (s : State := withPage asGroup) : State := s.modCore 2 fun k => k.setInbox cls [⟨3, m, none⟩]
/-- A stream of core (1, 0) that waits, and the group of core (0, 0), whose unit 7 awaits two lanes. -/
def asker : Asker := ⟨3, .lanes 0, 7, 0, ⟨1, placedHandle⟩⟩
def ownAsker : Asker := ⟨2, .lanes 0, 7, 0, ⟨1, placedHandle⟩⟩
def awaiting (s : State) : State := s.modCtl 2 0 fun k => { k with pending := [⟨7, false, 3, 0, 0, 5, false, 3, [], none, 3, false⟩] }
/-- No walk succeeds: the requests of page 0 have been refused. -/
def refusing : State := asGroup.modCore 2 fun k => { k with frames := [(0, ⟨1, 0, .filling, 0, false, false, false, 0, some .refused, 0, [asker.waiter, .reader 3 0], none, false, false, none⟩)] }

/-- What an event needs of the oldest message of class REQ. -/
def atHome (s : State) : Bool := s.inTurn 2 .req 0 && s.replyRoom 2 3 && (s.pages 2 1 [64] (some asker.waiter)).isReady
  && (s.pages 2 1 [64] (some (.reader 3 1))).isReady && s.holder 2 == some (1, placedContext)

/-- A refused renewal has come, and the group waits for its line. -/
def readBy : State := (incoming .rsp (.renewed 1 [] 13 0)).modCluster 2 fun p => { p with readers := [(lineKey 3 1, .lanes 0)] }

theorem wit_ClusterEvents : (∀ m ∈ [Msg.renew 1 5, .store [(64, 7), (65, 8)] 5 asker, .atomics [(0, 64, .add, 1)] true 5 asker],
      (incoming .req m).message 2 .req 0 = some ⟨3, m, none⟩ ∧ atHome (incoming .req m) = true) ∧
    (∀ x ∈ [(Msg.renew 0 5, Issuer.reader 3 0), (.store [(0, 7)] 5 asker, asker.waiter)], let m := x.1; (incoming .req m refusing).message 2 .req 0 = some ⟨3, m, none⟩ ∧
      (incoming .req m refusing).inTurn 2 .req 0 = true ∧ (incoming .req m refusing).replyRoom 2 3 = true ∧
      ∃ t, (incoming .req m refusing).pages 2 1 [0] (some x.2) = .refused 0 6 t) ∧
    (∀ m ∈ [Msg.renewed 1 (List.replicate 64 1) 3 9, .renewed 1 [] 13 0, .ack 5 [(0, 1)] ownAsker, .ack 5 [] ownAsker,
      .postAnswer true 31 5 ownAsker], (incoming .rsp m).message 2 .rsp 0 = some ⟨3, m, none⟩) ∧
    (((readBy.core 2).cluster.readers.filter (·.1 == lineKey 3 1)).map (·.2) = [.lanes 0] ∧
      readBy.message 2 .rsp 0 = some ⟨3, .renewed 1 [] 13 0, none⟩) ∧
    ((incoming .ctl (.watched 3 1 (List.replicate 64 1) 3 9)).message 2 .ctl 0 = some ⟨3, .watched 3 1 (List.replicate 64 1) 3 9, none⟩ ∧
      (incoming .ctl (.watched 3 1 (List.replicate 64 1) 3 9)).inTurn 2 .ctl 0 = true) ∧
    (SMap.find ((incoming .ctl (.watched 3 1 (List.replicate 64 1) 3 9)).core 2).cluster.cache (lineKey 3 1) = none) ∧
    ((incoming .ctl (.podArrive 1 15)).cores.findSome? (fun k => ((k.2.inbox .ctl).findIdx? fun m => m.msg == .podArrive 1 15).map fun n => (k.1, n))) = some (2, 0) ∧
      (incoming .ctl (.podArrive 1 15)).inTurn 2 .ctl 0 = true ∧
    (asGroup.context 1 = some placedContext ∧ placedContext.placed = true) := by
  refine ⟨by decide +kernel, ?_, by decide +kernel⟩
  intro m h
  obtain rfl | rfl := among2 h
  all_goals exact ⟨by decide +kernel, by decide +kernel, by decide +kernel, _, PagesResult.eq_refused asGroup (by decide +kernel)⟩

/-- Two elements of a GATHER of core (1, 0), in the packets that have come, and the reply to the group. -/
abbrev twoWords : List Element := [⟨0, 64, 0, false⟩, ⟨1, 68, 0, false⟩]
abbrev asked (p : Part) (s : State := withPage asGroup) : State := incoming .req (.elements p .read 0 twoWords 5 asker) s
abbrev replied (r : Option TrapRec) : State := incoming .rsp (.elementsDone ⟨0, 1⟩ r twoWords 5 ownAsker) (awaiting asGroup)

theorem wit_ClusterEvents_elements : (∀ p ∈ [(⟨0, 2⟩ : Part), ⟨0, 1⟩], (asked p).message 2 .req 0 = some ⟨3, .elements p .read 0 twoWords 5 asker, none⟩ ∧
      (asked p).inTurn 2 .req 0 = true ∧ (asked p).replyRoom 2 3 = true ∧ p.whole = decide (p.length = 1)) ∧
    (∃ l t, (asked ⟨0, 1⟩).performMessage 2 5 asker .read 0 twoWords = .ready l t) ∧
    (∃ r t, (asked ⟨0, 1⟩ refusing).performMessage 2 5 asker .read 0 twoWords = .refused r t ∧ (asked ⟨0, 1⟩ refusing).inTurn 2 .req 0 = true ∧
      (asked ⟨0, 1⟩ refusing).replyRoom 2 3 = true) ∧
    (∀ r ∈ [none, some (default : TrapRec)], (replied r).message 2 .rsp 0 = some ⟨3, .elementsDone ⟨0, 1⟩ r twoWords 5 ownAsker, none⟩) ∧
    ((((replied none).take 2 .rsp 0).raiseClock 2 5).pendingOf ownAsker).isSome = true ∧
    ((((replied none).take 2 .rsp 0).raiseClock 2 5).unit 2 0).isSome = true :=
  ⟨by decide +kernel, ⟨_, _, Access.eq_ready [] asGroup (by decide +kernel)⟩, ⟨_, _, rfl, by decide +kernel⟩, by decide +kernel⟩

/-- R191's worked example: at T = wts = rts = 271 the second lease ends at 526. -/
theorem test_lease_extends : ((⟨271, 271, none, [], []⟩ : HomeLine).renew 271).rts = 526 := by decide

/-! ### Pages, slices, engines and tiles -/

/-- Frame 0 of core 2 holds page 0 of the context, in a state, at device address 4096. -/
def framed (st : FrameState) (touched : Bool) : State := asGroup.modCore 2 fun k => { k with
  frames := [(0, ⟨1, 0, st, 0, true, touched, false, 0, none, 0, [], some (.hbm 4096), false, false, none⟩)] }
/-- A request stalls at station 0: of the frame, for a mapped address or another. -/
def stallAt (va : Nat) : Stalled := ⟨.page 2 0, 1, va, 0, 2, 0, 0, .walking, 0, 0, 0⟩
/-- The die-edge links are up. -/
def linksUp (s : State) : State := s.modLink fun l => { l with edges := (List.range 72).map fun e => (e, LinkState.up) }
def stalledAt (va : Nat) : State := (linksUp (mappedLow (framed .filling false))).modStation 0 fun t => { t with stalled := [stallAt va] }
/-- A TSINV of the group awaits its end. -/
def shooting (action : Nat) : State := (awaiting asGroup).modL2 fun l => { l with shootdowns := [⟨ownAsker, 1, true, 0, 0, action, []⟩] }

/-- No domain holds an address. -/
def unmappedAll (s : State) : State := s.modL2 fun l => { l with active := [(0, { Domain.reset 0 with en := false })] }

theorem wit_PageEvents_frames : (∀ s ∈ [framed .filling false, unmappedAll (framed .filling false)],
      ((((s.core 2).framesIn 1 0 .filling).find? fun f => f.2.refused.isNone && f.2.place.isSome).bind (·.2.place)) = some (.hbm 4096)) ∧
    ((framed .filling false).mapped (.hbm 4096) = true ∧ (unmappedAll (framed .filling false)).mapped (.hbm 4096) = false ∧
      (framed .filling false).pagePoisoned (.hbm 4096) = false ∧ (framed .filling false).placeRead 0 (.hbm 4096) false = true) ∧
    (∀ touched ∈ [true, false], ((((framed .draining touched).core 2).framesIn 1 0 .draining).find? (fun f => f.2.place.isSome)).map
        (fun x => (x.2.place, x.2.touched, x.2.lost)) = some (some (.hbm 4096), touched, false) ∧
      (framed .draining touched).placeAnswers 0 (.hbm 4096) 4096 = true) ∧
    (unmappedAll (framed .draining false)).mapped (.hbm 4096) = false := by
  decide +kernel

theorem wit_PageEvents_walks : (∀ va ∈ [4096, 2 ^ 57 - 1], ((stalledAt va).station 0).stalled[0]? = some (stallAt va) ∧
      (stalledAt va).walkAnswers 0 1 va = true ∧ (((stalledAt va).walkRead 1 va).walk 1 va 0).isOk = decide (va = 4096)) ∧
    (∀ a ∈ [0, 1, 2], (shooting a).l2.shootdowns = [⟨ownAsker, 1, true, 0, 0, a, []⟩]) := by
  decide +kernel

/-- A commit of domain 0 by the group, which leaves it as it is, or would give it two slices and no way to choose. -/
def sameMap : Domain := Domain.reset 0
def badMap : Domain := { Domain.reset 0 with slices := 3 }
/-- It would give every line to slice 5. -/
def oneSlice : Domain := { Domain.reset 0 with slices := 32, log2n := 0, mask := 0 }
def commitOf (stage : CommitStage) (d : Domain) (reload : List Nat) : Commit := ⟨1, stage, [(0, d)], reload, ownAsker⟩
def committing (m : Commit) (s : State := asGroup) : State := (awaiting s).modL2 fun l => { l with commit := some m }
/-- The first queue of the group works at a HAUL or STOW of 64 bytes at 4096, whose one line stands so. -/
def working (op : EngineOp) (p : Piece) (s : State := withPage asGroup) : State :=
  s.modQueue 2 0 0 fun q => { q with entries := [⟨0, op, .lanes 0, placedHandle, true, false, [(0, p)]⟩], nextSeq := 1 }
def aCopy (stow : Bool) : EngineOp := .copy stow 4096 64 (2 ^ 31 + 64) none 0
def lineIs (st : LineState) (s : State := withPage asGroup) : State :=
  working (aCopy false) ⟨.ready, some (.hbm 4096), [(0, st)], [], false⟩ s
/-- The commit that drains takes the line from its slice, or not. -/
def contested (d : Domain) : State := committing (commitOf .draining d []) (lineIs .asked)
/-- The station's copy names another slice for the line. -/
def staleCopy : State := (lineIs .asked).modStation (stationOf 2) fun t => { t with copies := [(0, oneSlice)] }
/-- No domain holds the line. -/
def noDomain : State := unmappedAll (lineIs .asked)

theorem wit_SliceEvents :
    ((committing (commitOf .requested sameMap [])).commitErr (commitOf .requested sameMap []) = 0 ∧
      (committing (commitOf .requested badMap [])).commitErr (commitOf .requested badMap []) = 1) ∧
    (∀ n ∈ [[3], [3, 4]], (committing (commitOf .switched sameMap n)).l2.commit = some (commitOf .switched sameMap n) ∧
      ((commitOf .switched sameMap n).reload.erase 3 = [] ↔ n = [3])) ∧
    (((awaiting asGroup).modL2 fun l => { l with maintenance := [⟨ownAsker, true, 0, 0, true, true⟩] }).l2.maintenance ≠ [] ∧
      ∀ f, asGroup.stacksTake (asGroup.l2.lines.filter f) = true) ∧
    (∀ s ∈ [noDomain, staleCopy, lineIs .asked, contested sameMap, contested oneSlice],
      ((s.lineRequest 2 0 0 0 0).map fun r => (r.line, r.state)) = some (64, .asked)) ∧
    (noDomain.sliceOf 4096 = none ∧ staleCopy.sliceOf 4096 ≠ some 5 ∧ (staleCopy.station (stationOf 2)).fold .asked 4096 = some 5 ∧
      staleCopy.routeUp (dieOf 2) 0 = true) ∧
    (∃ k, (lineIs .asked).sliceOf 4096 = some k ∧ (contested oneSlice).departs (commitOf .draining oneSlice []) 64 k = true ∧
      (contested sameMap).departs (commitOf .draining sameMap []) 64 k = false ∧
      ((lineIs .asked).station (stationOf 2)).fold .asked 4096 = some k ∧ (lineIs .asked).routeUp (dieOf 2) (k / 128) = true) ∧
    (∀ x ∈ [none, some (0, (1 : Word)), some (0, 0)], (((lineIs (.replayed x)).lineRequest 2 0 0 0 0).map (·.state)) = some (.replayed x)) ∧
    (((lineIs .asked).station (stationOf 2)).copy 0).gen = 0 ∧
    ((((lineIs .missed).lineRequest 2 0 0 0 0).map (·.state)) = some .missed ∧ (lineIs .missed).lineAnswers (dieOf 2) 64 = true ∧
      (lineIs .missed).cached 64 = false ∧ (lineIs .missed).lineHeld 64 = false ∧
      (committing (commitOf .draining oneSlice []) (lineIs .missed)).lineHeld 64 = true) := by
  refine ⟨by decide +kernel, by decide +kernel, ⟨by decide +kernel, fun _ => rfl⟩, by decide +kernel, by decide +kernel,
    ⟨_, Option.eq_some_of_isSome (by decide +kernel), by decide +kernel⟩, by decide +kernel⟩

/-- A HAUL or STOW whose one piece awaits its translation, with the translation cached or not. -/
def untranslated (s : State) : State := working (aCopy true) Piece.fresh s
def uncached : State := asGroup.modStation 0 fun t => { t with cache := [] }
/-- The line of a HAUL, or of a STOW, is answered. -/
def answeredLine (stow : Bool) : State := working (aCopy stow) ⟨.ready, some (.hbm 4096), [(0, .done)], [(0, 9)], false⟩
/-- A HAULT of one slot, whose slots do not fill yet. -/
def aHault : State := slotsAs .empty (working (.tiles 4096 128 0 1 0) Piece.fresh)
/-- A STOW to host memory, sent and not yet answered. -/
def toHost : State := working (aCopy true) ⟨.ready, some (.host 4096), [(0, .asked)], [], true⟩
/-- The engine's command messages. -/
def commanding (m : Msg) : State := incoming .req m ((working (aCopy false) Piece.fresh).modTile 2 fun t => { t with
  cmds := [⟨true, 0, false, 2 ^ 31, 128, 0, 1, 0, placedHandle, false⟩]
  steps := [⟨0, 1, 0, false, 1, 0, 1, 0, 0, 1, none, none, false, false⟩] })
/-- A QUEUE_FULL of an engine waits for the lanes; the group has its lead, or only its lanes, or has lost every stream. -/
def engineTrap : TrapRec := ⟨Cause.illegal, 3, 64, 9⟩
def trapWaits (lead lanes : Bool) : State := (pageAt (withPage asGroup) 8).modUnit 2 0 fun r => { r with
  lead := if lead then r.lead else none, lanes := { r.lanes with live := if lanes then r.lanes.live else 0 }
  ctl := { r.ctl with waiting := [(false, engineTrap)], paths := if lanes then r.ctl.paths else [] } }

theorem wit_EngineEvents :
    ((incoming .req (.entry 0 0 0) (working (aCopy false) Piece.fresh)).message 2 .req 0 = some ⟨3, .entry 0 0 0, none⟩ ∧
      (incoming .req (.entry 0 0 0) (working (aCopy false) Piece.fresh)).inTurn 2 .req 0 = true) ∧
    ((commanding (.tile 0)).message 2 .req 0 = some ⟨3, .tile 0, none⟩ ∧ (commanding (.step 0)).message 2 .req 0 = some ⟨3, .step 0, none⟩ ∧
      (commanding (.compile 0)).message 2 .req 0 = some ⟨3, .compile 0, none⟩ ∧
      ∀ m ∈ [Msg.tile 0, .step 0, .compile 0], (commanding m).inTurn 2 .req 0 = true) ∧
    ((incoming .page (.fill 0)).message 2 .page 0 = some ⟨3, .fill 0, none⟩ ∧ (incoming .page (.fill 0)).inTurn 2 .page 0 = true ∧
      ((incoming .page (.fill 0)).holder 2).isSome = true) ∧
    (∃ e, aHault.working 2 0 0 = some e ∧ e.op = .tiles 4096 128 0 1 0 ∧ e.filling = false ∧ ((aHault.core 2).tile.slot 0).writable = true) ∧
    (∀ s ∈ [untranslated asGroup, untranslated uncached], ∃ e b, s.working 2 0 0 = some e ∧ e.op.blocks[0]? = some b ∧ e.op.moves = true ∧
      (e.piece 0).state = .untranslated ∧ ((s.context (s.queueCtx 2 0)).map (·.issues)) = some true ∧ s.unreachable 2 0 e = false ∧
      (s.translate 2 1 (e.op.firstVa b) 1 0 (.piece 2 0 0 0 e.seq)).1 = if s = untranslated uncached then none else some (.hbm 4096)) ∧
    (∀ stow ∈ [false, true], ∃ e b x, (answeredLine stow).working 2 0 0 = some e ∧ e.op.blocks[0]? = some b ∧ (e.piece 0).state = .ready ∧
      (e.piece 0).place = some (.hbm 4096) ∧ (answeredLine stow).piecePages 2 0 e.op b = some x ∧
      ((answeredLine stow).pages x.1 1 x.2 (some (.queue 2 0 0))).isReady = true ∧ ∀ l ∈ e.op.lines b, SMap.find (e.piece 0).lines (l % 64) = some .done) ∧
    (∃ e, toHost.working 2 0 0 = some e ∧ (e.piece 0).place = some (.host 4096) ∧ (e.piece 0).sent = true ∧ e.op.stows = true ∧
      (e.piece 0).state = .ready ∧ toHost.routeUp (dieOf 2) 0 = true) ∧
    (∀ s ∈ [trapWaits true true, trapWaits true false, trapWaits false true, trapWaits false false], ∃ r, s.unit 2 0 = some r ∧
      r.ctl.waiting = [(false, engineTrap)] ∧ s.context r.info.ctx = some placedContext ∧ r.ctl.trap = none) ∧
    ((trapWaits false false).pages 2 1 (spillPages 0 0 false (firstLanes 8)) none).isReady = true ∧
    (∀ d ∈ [(trapWaits true false, true), (trapWaits false true, false)], ∃ i,
      (d.1.modCtl 2 0 fun k => { k with waiting := [(d.2, engineTrap)] }).issue (if d.2 then .lead 2 0 else .group 2 0 0) = some i ∧
      i.front.hints.count = 0 ∧ ((d.1.modCtl 2 0 fun k => { k with waiting := [(d.2, engineTrap)] }).dueTrap i).isSome = true) := by
  refine ⟨by decide +kernel, by decide +kernel, by decide +kernel, ⟨_, Option.eq_some_of_isSome (by decide +kernel), by decide +kernel⟩, ?_, ?_,
    ⟨_, Option.eq_some_of_isSome (by decide +kernel), by decide +kernel⟩, ?_, by decide +kernel, ?_⟩
  · intro s h
    obtain h | h := among2 h <;> rw [h] <;>
      exact ⟨_, _, Option.eq_some_of_isSome (by decide +kernel), Option.eq_some_of_isSome (by decide +kernel), by decide +kernel⟩
  · intro b h
    cases b <;> exact ⟨_, _, _, Option.eq_some_of_isSome (by decide +kernel), Option.eq_some_of_isSome (by decide +kernel), by decide +kernel,
      by decide +kernel, Option.eq_some_of_isSome (by decide +kernel), by decide +kernel⟩
  · intro s h
    obtain h | h | h | h := among4 h <;> rw [h] <;> exact ⟨_, Option.eq_some_of_isSome (by decide +kernel), by decide +kernel⟩
  · intro s h
    obtain h | h := among2 h <;> rw [h] <;> exact ⟨_, Option.eq_some_of_isSome (by decide +kernel), by decide +kernel⟩

/-- A TFILL or TDRAIN of one slot from 0 of the own core. -/
def tileCmd (fill : Bool) : TileCmd := ⟨fill, 0, false, 2 ^ 31, 128, 0, 1, 0, placedHandle, true⟩
def tileWork (fill : Bool) : State := slotsAs .filling (slotted ((pageAt (withPage asGroup) 1).modTile 2 fun t => { t with cmds := [tileCmd fill] }))
def aStepOf (started : Bool) : MatrixStep := ⟨0, 1, 0, false, 1, 0, 1, 0, 0, 1, none, none, true, started⟩
def stepWork (started : Bool) : State := slotsAs .ready (slotted (asGroup.modTile 2 fun t => { t with steps := [aStepOf started] }))
/-- Cores (0, 0) and (1, 0) each arm a SPLICE of shift 1. -/
def aSpliceOf (m : Nat) : Splice := ⟨0, 0, m, 7, placedHandle, false⟩
def spliced : State := (asGroup.modTile 2 fun t => { t with splices := [aSpliceOf 1] }).modTile 3 fun t => { t with splices := [aSpliceOf 1] }
/-- The exchange of a pair arrives. -/
def exchanging : State := incoming .req (.splice 0 [1, 2]) ((withPage asGroup).modTile 2 fun t => { t with splices := [{ aSpliceOf 1 with paired := true }] })
/-- The fid compiles slot 0, of which 25 values of row 63 hold what is given. -/
def compiling (b : Byte) : State := (asGroup.modUnit 2 0 fun r => { r with resvs := [⟨0, 1, 1, 3, false, false, 0, 0, 0⟩] }).modTile 2 fun t => { t with
  fid := [(0, { FidRecord.reset with state := .compiling, ctx := 1, gen := 1 })], requests := [(0, true)], compiling := true
  opmem := if b = 0 then [] else
    [(8064, b), (8068, b), (8072, b), (8076, b), (8080, b), (8084, b), (8088, b), (8092, b), (8096, b), (8100, b), (8104, b), (8108, b), (8112, b),
    (8116, b), (8120, b), (8124, b), (8128, b), (8132, b), (8136, b), (8140, b), (8144, b), (8148, b), (8152, b), (8156, b), (8160, b)] }

theorem wit_TileEvents : (∀ fill ∈ [true, false], ((tileWork fill).core 2).tile.cmds[0]? = some (tileCmd fill) ∧
      ((tileWork fill).tileReady 2 (tileCmd fill)).toOption = some (2, 0, ⟨1, placedHandle⟩)) ∧
    (∀ b ∈ [true, false], ((stepWork b).core 2).tile.steps = [aStepOf b] ∧ ∃ r x y, (stepWork b).unit 2 0 = some r ∧
      r.reservation 0 = some x ∧ r.reservation 1 = some y) ∧
    ((spliced.core 2).tile.splices[0]? = some (aSpliceOf 1) ∧ spliced.splicePartner 2 (aSpliceOf 1) = some (3, 0, aSpliceOf 1) ∧
      spliced.room 2 3 .req = true ∧ spliced.room 3 2 .req = true) ∧
    (exchanging.message 2 .req 0 = some ⟨3, .splice 0 [1, 2], none⟩ ∧
      (((exchanging.take 2 .req 0).core 2).tile.splices.any fun y => y.paired && y.slot == 0) = true) ∧
    (∀ b ∈ [0, 1], ((compiling b).core 2).tile.requests = [(0, true)] ∧ ∃ f v, SMap.find ((compiling b).core 2).tile.fid 0 = some f ∧
      f.state = .compiling ∧ ((compiling b).core 2).reservation 0 = some v ∧
      (decide (3 * fmtRow v.fmt < 4 * (((compiling b).core 2).tile.pack v 0).1.length) = (b == 1)) ∧
      (((compiling b).core 2).tile.makeRoom 1 65).isSome = true) := by
  refine ⟨by decide +kernel, ?_, by decide +kernel, by decide +kernel, ?_⟩
  · intro b h
    cases b <;> exact ⟨by decide +kernel, _, _, _, Option.eq_some_of_isSome (by decide +kernel), Option.eq_some_of_isSome (by decide +kernel),
      Option.eq_some_of_isSome (by decide +kernel)⟩
  · intro b h
    obtain rfl | rfl := among2 h
    all_goals exact ⟨by decide +kernel, _, _, Option.eq_some_of_isSome (by decide +kernel), by decide +kernel,
      Option.eq_some_of_isSome (by decide +kernel), by decide +kernel⟩

/-! ### Handlers and the directory -/

/-- Handler 5 is bound in a bank of core 2, and a message for it stands in the REQ inbox. -/
def called (hi : Bool) : State := (asGroup.modHandlers 2 fun h => { h with bindings := [(5, ⟨.bound, 64, hi, 65536, placedHandle⟩)] }).modCore 2
  fun k => k.setInbox .req [⟨3, .handler 5 9 1 [7], none⟩]
/-- A ray to treelet 4, whose home is core 3. -/
def aRay (n : Nat) : List Dword := [0, 0, 0, 0, 0, 0, BitVec.ofNat 64 n, 0]
def strayed : State := (hitched asGroup).modCore 2 fun k => k.setInbox .ray [⟨3, .handler 5 9 1 (aRay 4), none⟩]
def runIs (f : Run → Run) : State := asRun.modRun 2 0 f
def posted31 (present : Bool) : State := incoming .ctl (.post 31 5 asker)
  (asGroup.modHandlers 2 fun h => { h with mailboxes := if present then [(31, ⟨true, 7⟩)] else [] })
def refusedPost : State := asGroup.modHandlers 2 fun h => { h with posts := [(⟨3, .ctl, .post 31 5 ownAsker⟩, true)] }

theorem wit_HandlerEvents : (∀ hi ∈ [true, false], (called hi).holder 2 = some (1, placedContext) ∧ (called hi).strayRay 2 placedContext = none ∧
      ((called hi).core 2).handlers.dispatched ≠ ((called hi).core 2).cycle + 1 ∧
      ((called hi).dispatchIn 2 1 placedContext true).isSome = hi ∧ ((called hi).dispatchIn 2 1 placedContext false).isSome = !hi) ∧
    (strayed.holder 2 = some (1, placedContext) ∧ placedContext.issues = true ∧
      strayed.strayRay 2 placedContext = some (0, 3, .dirRay 5 0 (aRay 4)) ∧ (strayed.take 2 .ray 0).outRoom 2 3 .ray = true) ∧
    (let s := runIs fun r => { r with done := true, sendBuffer := [⟨3, .req, .handler 5 0 0 []⟩] }
     (((s.releasePending 2 16).run 2 0).map (·.done)) = some true) ∧
    (let s := runIs fun r => { r with count := 65536 }
     ((s.run 2 0).map fun r => decide (r.budget ≤ r.count)) = some true ∧ (s.issue (.run 2 0)).isSome = true) ∧
    (let s := runIs fun r => { r with masked := some 256 }
     ((s.issue (.run 2 0)).map fun i => (s.maskExceeded i, i.front.hints.count)) = some (true, 0)) ∧
    (∀ present ∈ [true, false], (posted31 present).message 2 .ctl 0 = some ⟨3, .post 31 5 asker, none⟩ ∧
      (posted31 present).inTurn 2 .ctl 0 = true ∧ (posted31 present).replyRoom 2 3 = true ∧
      (((posted31 present).core 2).handlers.mailbox 31).present = present) ∧
    ((refusedPost.core 2).handlers.posts[0]? = some (⟨3, .ctl, .post 31 5 ownAsker⟩, true) ∧ refusedPost.outRoom 2 3 .ctl = true ∧
      HandlerPart.posting { (refusedPost.core 2).handlers with posts := (refusedPost.core 2).handlers.posts.take 0 } 3 31 = false) ∧
    (let s := incoming .req (.weight 4088 5 asker)
     s.message 2 .req 0 = some ⟨3, .weight 4088 5 asker, none⟩ ∧ s.inTurn 2 .req 0 = true ∧ s.replyRoom 2 3 = true ∧
      (s.pages 2 1 [4088] (some asker.waiter)).isReady = true) := by
  refine ⟨?_, ?_, ?_, ?_, ?_, ?_, ?_, ?_⟩ <;> decide +kernel

/-- An entry of treelet 2, whose home is core 2, in frame 1 of core 3 where it is held. -/
def anEntry (st : DirState) (parked : List (Nat × BitVec 16 × List Dword)) (asking : Option Nat) : DirEntry :=
  { state := st, owners := if st = .resident then [(3, 1)] else [], arrivals := 0, next := 0, parked := parked, lastArrival := 0, counted := 0,
    asking := asking, taking := false, ticket := 6, leaving := [], copying := false }
def entered (e : Option DirEntry) : State := (hitched asGroup).modRay 2 fun r => { r with entries := match e with
  | some e => [(2, e)]
  | none => [] }
/-- All 512 entries are taken by other treelets, resident without parked rays. -/
def crowded : State := (hitched asGroup).modRay 2 fun r => { r with entries := (List.range 512).map fun n => (n + 10, anEntry .resident [] none) }
def rayTo2 (s : State) : State := incoming .ray (.dirRay 5 1 (aRay 2)) s
/-- The two frames of core 2: none, one of a treelet that nothing uses, or two fills. -/
def framesAs (n : Nat) : State := (hitched asGroup).modRay 2 fun r => { r with
  frames := if n = 0 then [] else (List.range 2).map (fun f => (f, { TFrame.new (10 + 3 * f) 0 with use := if n = 1 then .resident else .filling }))
  entries := if n = 1 then [(10, anEntry .resident [] none), (13, anEntry .resident [] none)] else [] }
def requests (n : Nat) (evict : Bool) : State := incoming .ctl (.frameRequest 2 2 evict false 6) (framesAs n)

/-- A core that fills treelet 10 is asked for a frame for a copy of it. -/
def copyAsked : State := incoming .ctl (.frameRequest 10 2 true true 6) (framesAs 2)
/-- A ray released to its owner waits for room in RAY. -/
def leaving : State := (entered (some (anEntry .resident [] none))).modRay 2 fun r => { r with forwards := [(2, (3, 1), 5, 1, aRay 2)] }

/-- The answer of core (1, 0) to search 6, or to another. -/
def granted (f : Option Nat) (ticket : Nat) : State := incoming .ctl (.frameGrant 2 3 f ticket) (entered (some (anEntry .paging [] (some 0))))

theorem wit_DirectoryEvents : (∀ s ∈ [rayTo2 (entered none), rayTo2 crowded, rayTo2 (entered (some (anEntry .paging [] (some 0)))),
      rayTo2 (entered (some (anEntry .resident [] none)))], s.holder 2 = some (1, placedContext) ∧
      s.message 2 .ray 0 = some ⟨3, .dirRay 5 1 (aRay 2), none⟩ ∧ rayTarget (aRay 2) = 2 ∧ placedContext.treeletHome 2 = 2 ∧ (s.core 2).ray.parked < 512 ∧
      ((s.core 2).inbox .ray).take 0 = []) ∧
    (SMap.find ((rayTo2 crowded).core 2).ray.entries 2 = none ∧ 512 ≤ ((rayTo2 crowded).core 2).ray.entries.length) ∧
    ((rayTo2 (entered (some (anEntry .resident [] none)))).nextOwner placedContext 2 = some (3, 1)) ∧
    ((leaving.core 2).ray.forwards.find? (fun y => y.1 = 2) = some (2, (3, 1), 5, 1, aRay 2) ∧ leaving.outRoom 2 3 .ray = true) ∧
    ((incoming .ctl (.lookup 2 51) (entered none)).message 2 .ctl 0 = some ⟨3, .lookup 2 51, none⟩ ∧
      (incoming .ctl (.lookup 2 51) (entered none)).inTurn 2 .ctl 0 = true) ∧
    ((copyAsked.message 2 .ctl 0).isSome = true ∧ copyAsked.inTurn 2 .ctl 0 = true ∧ ((copyAsked.take 2 .ctl 0).core 2).ray.touches 10 = true) ∧
    (∀ x ∈ [(0, false), (1, true), (2, true), (2, false)], ((requests x.1 x.2).message 2 .ctl 0).isSome = true ∧ (requests x.1 x.2).inTurn 2 .ctl 0 = true ∧
      (let t := (requests x.1 x.2).take 2 .ctl 0
       ((List.range 16).find? fun f => (t.core 2).ray.hasFrame f && (SMap.find (t.core 2).ray.frames f).isNone).isSome = (x.1 == 0) ∧
        (t.takableFrame placedContext 2 2).isSome = (x.1 == 1))) ∧
    (∀ f ∈ [none, some 1], ∀ ticket ∈ [6, 7], (granted f ticket).message 2 .ctl 0 = some ⟨3, .frameGrant 2 3 f ticket, none⟩ ∧
      (granted f ticket).inTurn 2 .ctl 0 = true ∧
      (SMap.find (((granted f ticket).take 2 .ctl 0).core 2).ray.entries 2).map (fun e => (e.asking, e.ticket)) = some (some 0, 6)) ∧
    (∀ k ∈ placedContext.cores, ((entered (some (anEntry .paging [] none))).core k).ray.frames = []) ∧
    (∀ e ∈ [none, some (anEntry .resident [] none)], (incoming .ctl (.pinRequest 2 3 0 asker) (entered e)).message 2 .ctl 0 =
      some ⟨3, .pinRequest 2 3 0 asker, none⟩ ∧ (incoming .ctl (.pinRequest 2 3 0 asker) (entered e)).inTurn 2 .ctl 0 = true) := by
  refine ⟨?_, ?_, ?_, ?_, ?_, ?_, ?_, ?_, ?_, ?_⟩ <;> decide +kernel

/-- The frames of core 2, and an entry for treelet 2. -/
def withFrame (t : TFrame) (e : Option DirEntry) (s : State := hitched asGroup) : State := s.modRay 2 fun r => { r with
  frames := [(0, t)], entries := match e with
    | some e => [(2, e)]
    | none => [] }
/-- Treelet 2's frame 0 of core 2. -/
def aFrame (use : FrameUse) : TFrame := { TFrame.new 2 0 with
  use := use, commanded := true, held := true, pages := (List.range 16).map fun p => (p, .hbm (4096 * p)) }
/-- Frame 0's local pages are resident. -/
def framePaged : State := (List.range 16).foldl (fun s p => pageAt s (16 + p)) (linksUp (hitched asGroup))
def filled (st : DirState) : State := withFrame (aFrame .filling) (some (anEntry st [] none)) framePaged
def failedFill : TFrame := { aFrame .filling with refused := some 13 }
/-- A spill ring of 2 records from page 40 on, which holds one ray; another waits in the flow from core (1, 0). -/
def ringed (inFlow : Bool) : State :=
  let s := (pageAt asGroup 40).modRay 2 fun r => { r with rcfg0 := 0x12800000105, spill := [⟨3, .dirRay 5 1 (aRay 2), none⟩] }
  if inFlow then s.setFlow 3 2 .ray ⟨1, [⟨0, .dirRay 5 1 (aRay 2), 3, 0, .flying⟩], 0⟩ else s

/-- The pages of the fill have landed, but for the last, whose read is still on its way from another package. -/
def partly (last : Bool) : State := withFrame { aFrame .filling with
  pages := if last then [] else [(7, .package 5 4096)]
  landed := (List.range 16).filter (last || · ≠ 7) } (some (anEntry .paging [] none)) framePaged

theorem wit_FrameEvents : (∀ m ∈ [Msg.lookupReply 2 (some (3, 1)), .lookupReply 2 none, .ownerUpdate 2 3 1, .frameHolds 2 0],
      (let s := incoming .ctl m (withFrame (aFrame .filled) none)
       s.message 2 .ctl 0 = some ⟨3, m, none⟩ ∧ s.inTurn 2 .ctl 0 = true ∧ s.holder 2 = some (1, placedContext) ∧
        SMap.find ((s.take 2 .ctl 0).core 2).ray.frames 0 = some (aFrame .filled))) ∧
    (∀ st ∈ [DirState.paging, .resident], SMap.find ((filled st).core 2).ray.frames 0 = some (aFrame .filling) ∧
      (((SMap.find ((filled st).core (placedContext.treeletHome 2)).ray.entries 2).map (·.state == .paging)).getD false) = (st == .paging) ∧
      ((filled st).pages 2 1 ((((filled st).core 2).ray.framePages 0).map (4096 * ·)) none).isReady = true) ∧
    (∀ last ∈ [true, false], (SMap.find ((((List.range 16).foldl (fun (s : State) p => s.landTreelet 1 2 0 p) (partly last)).core 2).ray.frames)
      0).map TFrame.full = some last) ∧
    (∀ st ∈ [DirState.paging, .resident], SMap.find (((withFrame failedFill (some (anEntry st [] none))).fillGone 1 2 0 failedFill).core 2).ray.entries 2 =
        some (anEntry st [] none) ∧ ((withFrame failedFill (some (anEntry st [] none))).fillGone 1 2 0 failedFill).fillsOf placedContext 2 = 0) ∧
    (SMap.find ((withFrame (aFrame .evicting) none).core 2).ray.frames 0 = some (aFrame .evicting) ∧
      ((withFrame (aFrame .evicting) none).core 2).handlers.rayLive 2 = false) ∧
    (∀ m ∈ [Msg.evict 2 0, .evicting 2 3 1, .evicted 2 3 1],
      (let s := incoming .ctl m (withFrame (aFrame .resident) (some (anEntry .resident [] none)))
       s.message 2 .ctl 0 = some ⟨3, m, none⟩ ∧ s.inTurn 2 .ctl 0 = true ∧ SMap.find ((s.take 2 .ctl 0).core 2).ray.frames 0 = some (aFrame .resident) ∧
        (SMap.find ((s.take 2 .ctl 0).core 2).ray.entries 2).map (·.owners) = some [(3, 1)])) ∧
    (let r := ((ringed true).core 2).ray
     ((ringed true).flow 3 2 .ray).packets[0]? = some ⟨0, .dirRay 5 1 (aRay 2), 3, 0, .flying⟩ ∧ (ringed true).routeUp (dieOf 3) (dieOf 2) = true ∧ r.spl = 1 ∧ r.spb = 40 ∧
      r.spill.length < 2 ^ r.spl ∧ r.spill ≠ []) ∧
    (((ringed false).core 2).ray.spill = [⟨3, .dirRay 5 1 (aRay 2), none⟩] ∧ (((ringed false).core 2).inbox .ray).length < msgDepth .ray) := by
  refine ⟨?_, ?_, ?_, ?_, ?_, ?_, ?_, ?_⟩ <;> decide +kernel

/-- A flow of class CTL from core (1, 0) to core (0, 0). -/
def flowing (l : List Packet) : State := (asGroup.modCore 3 fun k => { k with cycle := 512 }).setFlow 3 2 .ctl ⟨4, l, 1⟩
def packetOf (seq slack : Nat) (st : PacketState) : Packet := ⟨seq, .ownerUpdate 2 3 1, slack, 0, st⟩
/-- The group of core (0, 0) has an entry for its east neighbour, whose unit has mapped its side, or has been and gone. -/
def eastward (ended : Bool) : State :=
  let s := asGroup.modUnit 2 0 fun r => { r with queues := setAt 0 (fun q => { q with ep := 6, entries := [List.replicate 64 9], hadPeer := ended }) r.queues }
  if ended then s else (s.setUnit 3 0 placedUnit).modUnit 3 0 fun r => { r with queues := setAt 1 (fun q => { q with ep := 9 }) r.queues }

theorem wit_PacketEvents : (∀ l ∈ [[packetOf 1 5 .flying], [packetOf 1 5 .early, packetOf 2 5 .early]],
      ((flowing l).flow 3 2 .ctl).packets.findIdx? (·.seq == 1) = some 0 ∧ (flowing l).routeUp (dieOf 3) (dieOf 2) = true ∧
        ((flowing l).flow 3 2 .ctl).expected = 1 ∧ (flowing l).enters 2 .ctl (.ownerUpdate 2 3 1) = true) ∧
    (((flowing [packetOf 1 5 .flying, packetOf 2 5 .flying]).flow 3 2 .ctl).packets.findIdx? (·.seq == 2) = some 1) ∧
    (((flowing [packetOf 1 5 .flying, packetOf 2 5 .flying]).flow 3 2 .ctl).packets.any fun p => p.seq == 2 && p.slack != 0 && decide (p.born + 512 ≤ ((flowing []).core 3).cycle)) = true ∧
    (∀ st ∈ [PacketState.refused, .delivered], ((flowing [packetOf 0 5 st]).flow 3 2 .ctl).packets = [packetOf 0 5 st]) ∧
    (∀ ended ∈ [true, false], ∃ r x, (eastward ended).unit 2 0 = some r ∧ r.queues[0]? = some x ∧ x.entries = [List.replicate 64 9] ∧ x.ep = 6 ∧
      (eastward ended).readerEnded 2 r x = ended ∧ (eastward ended).wireUp 2 6 = true ∧
      (ended = false → (eastward ended).peer 2 x = some (3, 0, 1))) ∧
    (∃ w y, (eastward false).unit 3 0 = some w ∧ w.queues[1]? = some y ∧ y.entries.length + y.kept < 8) := by
  refine ⟨by decide +kernel, by decide +kernel, by decide +kernel, by decide +kernel, ?_,
    _, _, Option.eq_some_of_isSome (by decide +kernel), Option.eq_some_of_isSome (by decide +kernel), by decide +kernel⟩
  intro b h
  cases b <;> exact ⟨_, _, Option.eq_some_of_isSome (by decide +kernel), Option.eq_some_of_isSome (by decide +kernel), by decide +kernel⟩

/-! ### Links, the host and the package -/

def edgeIs (l : Nat) (st : LinkState) : State := asGroup.modLink fun k => { k with edges := SMap.put k.edges l st }
/-- A port, on a package that has accepted the fabric. -/
def portIs (p : Nat) (x : Port) : State := (asGroup.modLink fun k => { k with ports := SMap.put k.ports p x }).modHost fun h => { h with facc := [(0, 1)] }
/-- A packet to package 3 is unacknowledged, and its port is up or down. -/
def fabricked (up : Bool) (expiries : Nat) : State := (portIs 0 { Port.reset with state := if up then .up else .failed }).modLink fun k => { k with
  fps := [(3, 1), (4, 1)], fabric := [3, 4].map fun p => (p, { FabricFlow.reset with replay := [(0, .arrive 1 15)], nextExpected := 1, expiries := expiries }) }

theorem wit_LinkEvents : (∀ l ∈ [0, 71], ∀ st ∈ [LinkState.training, .retraining, .up], (edgeIs l st).edge l = st) ∧
    (∀ p ∈ [0, 63], ∀ st ∈ [LinkState.training, .retraining, .up], ((portIs p { Port.reset with state := st }).port p).state = st) ∧
    (∀ en ∈ [true, false], ∀ st ∈ [LinkState.disabled, .up, .failed, .training], ((portIs 63 ⟨en, true, st, 0⟩).port 63).en = en ∧
      ((portIs 63 ⟨en, true, st, 0⟩).port 63).written = true) ∧
    (0 = ((portIs 0 { Port.reset with state := .up }).fabricFlow 511).nextExpected ∧ (portIs 0 { Port.reset with state := .up }).portUp 0 = true) ∧
    (∃ p ∈ [3, 4], p ≠ ownPackage ∧ (fabricked true 0).reachable p = true) ∧
    (∀ p ∈ [3, 4], ∀ up ∈ [true, false], ∀ n ∈ [0, 7], (((fabricked up n).fabricFlow p).replay.take 256).findIdx? (·.1 == 0) = some 0 ∧
      (fabricked up n).portsFailed p = !up ∧ ((fabricked up n).fabricFlow p).duplicate 0 = true ∧
      (fabricked up n).fabricReady (.read 0 64) = true ∧
      ((fabricked up n).fabricFlow p).acked ≠ ((fabricked up n).fabricFlow p).nextExpected ∧ ((fabricked up n).fabricFlow p).expiries = n) := by
  refine ⟨by decide +kernel, by decide +kernel, by decide +kernel, by decide +kernel, ?_, by decide +kernel⟩
  have up : ∀ p ∈ [3, 4], ((fabricked true 0).portsOf p).any (fabricked true 0).portUp = true := by decide +kernel
  by_cases h : ownPackage = 3
  · exact ⟨4, by decide, by omega, by simp [State.reachable, up 4, h]⟩
  · exact ⟨3, by decide, Ne.symm h, by simp [State.reachable, up 3, Ne.symm h]⟩

def phaseIs (n : Nat) (s : State := asGroup) : State := s.modHost fun h => { h with phase := n }
/-- A dispatch context's window, and the HBM4 aperture, are open. -/
def windowed : State := phaseIs 4 dispatching
def apertured : State := linksUp ((phaseIs 4).modHost fun h => { h with facc := [(0, 16)] })
/-- A write of one byte at the aperture's last place, and one of no byte. -/
abbrev apertureReads (s : State) (off size : Nat) : Prop :=
  s.apertureOpen off size = true ∧ (linesOf (s.host.hapBase.toNat + off) size).all (s.lineAnswers 0) = true ∧
    (linesOf (s.host.hapBase.toNat + off) (min size (hbmTop - (s.host.hapBase.toNat + off)))).all (s.lineAnswers 0) = true

theorem wit_HostRegisters : ((phaseIs 2).host.phase = 2 ∧ (phaseIs 2).host.hwlock = false ∧ (phaseIs 3).host.phase = 3 ∧ (phaseIs 4).host.phase = 4 ∧
      (phaseIs 3).host.attesting = false ∧ ((phaseIs 3).modHost fun h => { h with attesting := true }).host.attesting = true) ∧
    (asGroup.dispatchWindow 0 8 = none ∧ windowed.dispatchWindow 4088 8 = some (1, 0, 4088) ∧ windowed.routeUp 0 (dieOf 0) = true ∧
      windowed.pages 0 1 [4088] none = .ready) ∧
    apertureReads apertured (2 ^ 36 - 1) 1 ∧ asGroup.apertureOpen 0 1 = false :=
  ⟨by decide +kernel, ⟨by decide +kernel, by decide +kernel, by decide +kernel, PagesResult.eq_ready (by decide +kernel)⟩, by decide +kernel⟩

/-- The controller has taken over the refresh of stack 15, which is still owed one, or is not. -/
def taken (owed : Bool) : State := asGroup.modHost fun h => { h with tko := 0x8000, owed := if owed then 0x8000 else 0 }

theorem wit_PackageEvents : (phaseIs 1).host.phase = 1 ∧ asGroup.host.tko.getLsbD 15 = false ∧ (∀ owed ∈ [true, false],
      (taken owed).host.tko.getLsbD 15 = true ∧ (taken owed).host.owed.getLsbD 15 = owed) ∧
    1 ≤ (phaseIs 4).host.phase ∧ (phaseIs 4).host.phase ≤ 4 := ⟨rfl, by decide +kernel⟩

/-- At each boundary of what the phases reach, and where writes are stored. -/
theorem wit_HostReads : (∀ a ∈ [0, 0x1008], (phaseIs 0).host.phase = 0 ∧ (phaseIs 0).host.readRegister a = some (BitVec.allOnes 64)) ∧
    (∀ n ∈ [1, 5], ∀ a ∈ [0x10, 0x200], (phaseIs n).host.phase = n ∧ a ≠ 0 ∧ a ≠ 8 ∧
      (phaseIs n).host.readRegister a = some (BitVec.allOnes 64)) ∧
    (∀ a ∈ [0x1F8, 0x300], (phaseIs 2).host.phase = 2 ∧ a ≠ 0 ∧ a ≠ 8 ∧ (a < 0x200 ∨ 0x280 < a)) ∧
    (phaseIs 2).host.readRegister 0x280 = some 0 ∧ (phaseIs 2).host.hwlock = false ∧ (phaseIs 1).host.clk < 65536 ∧
    (phaseIs 3).host.phase = 3 ∧ (phaseIs 4).host.phase = 4 := by decide +kernel

/-- R431's table, by hand: in phase 1 the clock is 1,400 MHz = 0x578, and VENDOR and DEVICE stand in HID 31:0. -/
theorem test_host_identity : (phaseIs 1).host.readRegister 8 = some 0x0578000000000001 ∧
    (phaseIs 3 (asGroup.modHost fun h => { h with hevt := 0x10001 })).host.readRegister 0x1008 = some 0x10001 := by decide +kernel

/-! ### The step, the encoding, and rules of the whole machine -/

/-- The stream whose turn it is, at the start of that turn. -/
def turnOf (s : State) : State := { s with agenda := [], stalled := false }
def fetchedWord : FetchResult → Option (Nat × State)
  | .word w s => some (w, s)
  | _ => none
theorem fetched_sound {x : FetchResult} {w : Nat} {s : State} (h : fetchedWord x = some (w, s)) : x = .word w s := by
  cases x <;> simp_all [fetchedWord]

/-- ADD g1, g2, g3, and a word of a reserved major opcode. -/
def fetchAdd : State := State.reset.withFetchWord 32 0x00108300
def fetchBad : State := State.reset.withFetchWord 32 0xF8000000

theorem wit_StepRunsDecoded : (∀ x ∈ [(fetchAdd, 0x00108300), (fetchBad, 0xF8000000)], x.1.agenda = [.stream (.group 2 0 0)] ∧
      ∃ i, (turnOf x.1).issue (.group 2 0 0) = some i ∧ ((fetchedWord ((turnOf x.1).fetchNext i)).map (·.1)) = some x.2) ∧
    decodeWord 0 0x00108300 = .ok (.add 1 2 3 0) ∧ (decodeWord 0 0xF8000000).toOption = none ∧
    ((Instr.logicalClockTick 2).wellFormed = true ∧ encode (.logicalClockTick 2) = none ∧ (phaseIs 4).eventRuns (.logicalClockTick 2) = true ∧
      (phaseIs 0).eventRuns (.logicalClockTick 2) = false ∧ (phaseIs 5).eventRuns .packageReset = true) ∧
    (encode (.add 1 2 3 0)).isSome = true ∧
    (∃ i, (turnOf fetchAdd).issue (.group 2 0 0) = some i ∧ (turnOf fetchAdd).codeAddress i = some 0 ∧ (turnOf fetchAdd).isDispatchLead i = false ∧
      ((turnOf fetchAdd).core i.core).fetchRefused.find? (·.1 == i.ref) = none ∧ ((turnOf fetchAdd).station (stationOf i.core)).hit i.ctx 0 4 = some (.hbm 0) ∧
      ((turnOf fetchAdd).sliceOf 0).isSome = true ∧ (turnOf fetchAdd).l2.poisoned = [] ∧
      ((turnOf fetchAdd).modStation (stationOf i.core) (·.touch i.ctx 0 4)).lineAnswers (dieOf i.core) 0 = true ∧ i.handler = false ∧
      (turnOf fetchAdd).context i.ctx = some placedContext ∧ (placedContext.launch i.launch).isSome = true) ∧
    (∃ i, vectoredGroup.issue (.group 2 0 0) = some i ∧ i.handler = true ∧ vectoredGroup.context i.ctx = some placedContext) := by
  refine ⟨?_, rfl, rfl, ⟨rfl, rfl, rfl, rfl, rfl⟩, rfl, ⟨_, Option.eq_some_of_isSome (by decide +kernel), by decide +kernel⟩,
    _, Option.eq_some_of_isSome (by decide +kernel), by decide +kernel⟩
  intro x h
  obtain rfl | rfl := among2 h
  all_goals exact ⟨by decide +kernel, _, Option.eq_some_of_isSome (by decide +kernel), by decide +kernel⟩

theorem wit_DecodeEncode : (Instr.csaveDestroy 2 4 0).wellFormed = true ∧ (encode (.csaveDestroy 2 4 0)).isSome = true ∧
    selectorK (.csaveDestroy 2 4 0) = 3 ∧ (Instr.modHint 1 7 7 7 1 3 63).wellFormed = true ∧ (encode (.modHint 1 7 7 7 1 3 63)).isSome = true := by decide

/-- What a stream reaches, as one condition to evaluate. -/
theorem reaches_sound {t : Attr} {g : GuardField} {s : State} (h : (s.cur.bind s.issue).isSome = true ∧
      let i := (s.cur.bind s.issue).getD default
      s.awake.dueTrap i = none ∧ s.awake.fenced i = false ∧ s.awake.maskExceeded i = false ∧
        t.guardOk g i.front.hints = true ∧ guardInRange i.kind i.front.hints = true) :
    Reaches t g s ((s.cur.bind s.issue).getD default) :=
  have ⟨h0, h1, h2, h3, h4, h5⟩ := h
  ⟨by obtain ⟨j, hj⟩ := Option.isSome_iff_exists.1 h0; simp [hj], h1, h2, h3, h4, h5⟩

abbrev reacher (s : State) : Issue := (s.cur.bind s.issue).getD default

theorem wit_GuardedOff : (encode (.add 1 2 3 1) = some 0x00108301 ∧ 0x00108301 / 2 ^ 26 ≠ 0x3F ∧
      Reaches {} (BitVec.ofNat 5 0x00108301) asGroup (reacher asGroup) ∧
      asGroup.activeLanes {} (BitVec.ofNat 5 0x00108301) (reacher asGroup) = 0) ∧
    ∃ r, pureResult (.ballot 2 3 0) = some r ∧ Reaches r.attr r.guard asLead (reacher asLead) ∧
      asLead.activeLanes r.attr r.guard (reacher asLead) ≠ 0 ∧ r.attr.legalIn (reacher asLead).kind = false :=
  ⟨⟨by decide, by decide, reaches_sound (by decide +kernel), by decide +kernel⟩,
    _, rfl, reaches_sound (by decide +kernel), by decide +kernel⟩

/-- The context is not privileged. -/
def plain (s : State) : State := s.modContext 1 fun x => { x with record := { x.record with priv := false } }

/-- A stream of code that is not privileged, at a unit of a system instruction. -/
abbrev unprivilegedAt (s : State) : Prop := Reaches systemAttr 0 s (reacher s) ∧ s.activeLanes systemAttr 0 (reacher s) ≠ 0 ∧
  systemAttr.legalIn (reacher s).kind = true ∧ (systemAttr.noHandler && (reacher s).handler) = false ∧ (reacher s).priv = false

/-- The unit's hints are accepted, or it has a MOD hint. -/
def modHinted : State := withHints (plain asGroup) { Hints.none with mod := some 1 }

theorem wit_PrivilegedTraps : privileged (.sysr 2 0) = some (systemAttr, 0) ∧ privileged (.rte 0) = some (systemAttr, 0) ∧
    (∀ s ∈ [plain asGroup, plain asLead, plain asRun, modHinted], unprivilegedAt s) ∧
    (∀ s ∈ [plain asGroup, plain asLead, plain asRun], systemAttr.acceptsHints (reacher s).front.hints = true ∧
      s.awake.legalFields { reacher s with active := s.activeLanes systemAttr 0 (reacher s) } (.sysr 2 0)) ∧
    systemAttr.acceptsHints (reacher modHinted).front.hints = false := by
  refine ⟨rfl, rfl, ?_, ?_, by decide +kernel⟩
  · intro s h
    obtain h | h | h | h := among4 h <;> rw [h]
    all_goals exact ⟨reaches_sound (by decide +kernel), by decide +kernel⟩
  · intro s h
    obtain h | h | h := among3 h <;> rw [h]
    all_goals exact ⟨by decide +kernel, by constructor <;> decide +kernel⟩

theorem wit_RegisterWrites : (aGroup.kind = .group ∧ asGroup.unit aGroup.core aGroup.unit = some placedUnit ∧ placedUnit.fits ∧
      SMap.wf (asGroup.core aGroup.core).lrf = true) ∧
    (aRun.kind = .run ∧ (asRun.run aRun.core aRun.unit).isSome = true ∧ SMap.wf (asRun.scalar aRun).regs = true) ∧
    (aLead.kind = .lead ∧ ((asLead.unit aLead.core aLead.unit).bind (·.lead)).isSome = true ∧ SMap.wf (asLead.scalar aLead).regs = true) :=
  ⟨⟨by decide +kernel, by decide +kernel, by unfold Resident.fits; decide, by decide +kernel⟩, by decide +kernel, by decide +kernel⟩

/-- ADDC with a pair of a hank's or group's last registers, and a lane exchange. -/
abbrev addcAttr : Attr := { c := true }
/-- A stream whose issue meets the frame's premises: its registers, and the values it fetches. -/
abbrev framedBy (r : ResultSpec) (s : State) (i : Issue) : Prop :=
  Issues r.attr r.guard s i ∧ r.legal i = true ∧ i.registersOk (r.cls, r.dst) (r.srcs i) ∧
    ∃ vals u, s.awake.operands i (r.srcs i) [r.dst] = .ok vals u ∧ u.broadcasts i r.dst

theorem wit_ComputeFrame : (∃ r, pureResult (.addc 30 2 3 0) = some r ∧ framedBy r asGroup (issueIn addcAttr 0 asGroup) ∧
      (issueIn addcAttr 0 asGroup).kind = .group ∧ asGroup.unit (issueIn addcAttr 0 asGroup).core (issueIn addcAttr 0 asGroup).unit = some placedUnit ∧
      SMap.wf (asGroup.core (issueIn addcAttr 0 asGroup).core).lrf = true) ∧ placedUnit.fits ∧
    (∃ r, pureResult (.add 30 2 3 0) = some r ∧ (framedBy r asLead aLead ∧ framedBy r asRun aRun) ∧
      ∀ s ∈ [(asLead, aLead), (asRun, aRun)], SMap.wf (s.1.scalar s.2).regs = true) := by
  refine ⟨⟨_, rfl, ⟨issuesIn_sound (by decide +kernel), rfl, ⟨by decide +kernel, by decide +kernel⟩,
    Fetched.readable asGroup (by decide +kernel) (broadcasts_register rfl)⟩, by decide +kernel⟩, by unfold Resident.fits; decide,
    _, rfl, ⟨⟨issuesIn_sound (by decide +kernel), rfl, ⟨by decide +kernel, by decide +kernel⟩,
    Fetched.readable asLead (by decide +kernel) (broadcasts_register rfl)⟩, issuesIn_sound (by decide +kernel), rfl, ⟨by decide +kernel, by decide +kernel⟩,
    Fetched.readable asRun (by decide +kernel) (broadcasts_register rfl)⟩, by decide +kernel⟩

abbrev guardHinted : State := withHints asGroup { Hints.none with guard := some (0, 3) }

theorem wit_SelSelects : (Issues { guard := false } 0b10000 asGroup (issueIn { guard := false } 0b10000 asGroup) ∧
      (issueIn { guard := false } 0b10000 asGroup).registersOk (.nat, 1) [(.nat, 2), (.nat, 3)] ∧
      ∃ vals u, asGroup.awake.operands (issueIn { guard := false } 0b10000 asGroup) [(.nat, 2), (.nat, 3)] [1] = .ok vals u ∧
        u.broadcasts (issueIn { guard := false } 0b10000 asGroup) 1) ∧
    (∃ i, guardHinted.cur.bind guardHinted.issue = some i ∧ guardHinted.awake.dueTrap i = none ∧ guardHinted.awake.fenced i = false ∧
      guardHinted.awake.maskExceeded i = false ∧ i.front.hints.guard ≠ none) :=
  ⟨⟨issuesIn_sound (by decide +kernel), ⟨by decide +kernel, by decide +kernel⟩, Fetched.readable asGroup (by decide +kernel) (broadcasts_register rfl)⟩,
    _, Option.eq_some_of_isSome (by decide +kernel), by decide +kernel⟩

theorem wit_ShiftAmounts : (Issues {} 0 asGroup aGroup ∧ aGroup.kind = .group) ∧ (Issues {} 0 asLead aLead ∧ aLead.kind ≠ .group) ∧
    ∀ s ∈ [(asGroup, aGroup), (asLead, aLead)], s.2.registersOk (.nat, 1) [(.nat, 2), (.nat, 3)] ∧ s.1.broadcasts s.2 1 ∧
      (∃ x u, s.1.awake.operands s.2 [(.nat, 2)] [1] = .ok x u) ∧ ∃ y v, s.1.awake.operands s.2 [(.nat, 2), (.nat, 3)] [1] = .ok y v := by
  refine ⟨⟨group_issues, by decide +kernel⟩, ⟨issuesIn_sound (by decide +kernel), by decide +kernel⟩, ?_⟩
  intro s h
  obtain rfl | rfl := among2 h
  all_goals exact ⟨⟨by decide +kernel, by decide +kernel⟩, broadcasts_register rfl, ⟨_, _, Fetched.eq_ok asGroup (by decide +kernel)⟩,
    _, _, Fetched.eq_ok asGroup (by decide +kernel)⟩

theorem wit_ThermalStop : ∀ n ∈ [1, 4], 1 ≤ (phaseIs n).host.phase ∧ (phaseIs n).host.phase ≤ 4 := by decide +kernel

end Sys2Proof.Tests
end

section
/-! PROOF. What a host read of BAR0 answers (O48). -/

namespace Sys2Proof.Machine

/-! ### Which registers the phase reaches (R430) -/

/-- R430: what the host reaches, phase by phase. -/
theorem HostPart.reaches_iff (h : HostPart) (addr : Nat) : h.reaches addr = true ↔
    h.phase ≠ 0 ∧ ((h.phase = 1 ∨ h.phase = 5) → addr = 0 ∨ addr = 8) ∧
      (h.phase = 2 → addr = 0 ∨ addr = 8 ∨ (0x200 ≤ addr ∧ addr ≤ 0x280)) := by
  unfold HostPart.reaches
  split <;> simp_all [or_assoc]

theorem HostPart.readRegister_of_reaches {h : HostPart} {addr : Nat} (r : h.reaches addr = true) :
    h.readRegister addr = h.register addr := if_pos r

theorem HostPart.readRegister_of_not_reaches {h : HostPart} {addr : Nat} (r : ¬ h.reaches addr = true) :
    h.readRegister addr = some (BitVec.allOnes 64) := if_neg r

theorem HostPart.reaches_of_reached {h : HostPart} (p : h.phase = 3 ∨ h.phase = 4) (addr : Nat) : h.reaches addr = true := by
  rw [HostPart.reaches_iff]
  omega

/-! ### HSTAT (R431) -/

/-- The fields of HSTAT do not overlap: the doubleword is their sum. -/
theorem HostPart.status_toNat {h : HostPart} (c : h.clk < 65536) :
    h.status.toNat = h.phase % 8 + 2 ^ 8 * (h.fail % 16) + 2 ^ 16 * h.tko.toNat + 2 ^ 32 * h.pclamp.toNat
      + 2 ^ 33 * h.tclamp.toNat + 2 ^ 48 * h.clk := by
  have tko := h.tko.isLt
  have power := h.pclamp.toNat_le
  have heat := h.tclamp.toNat_le
  exact (BitVec.toNat_ofNat ..).trans (Nat.mod_eq_of_lt (by omega))

theorem HostPart.status_phase {h : HostPart} (c : h.clk < 65536) (p : h.phase ≤ 5) : h.status.toNat % 8 = h.phase := by
  rw [HostPart.status_toNat c]
  omega

theorem HostPart.status_clk {h : HostPart} (c : h.clk < 65536) : h.status.toNat / 2 ^ 48 = h.clk := by
  have tko := h.tko.isLt
  have power := h.pclamp.toNat_le
  have heat := h.tclamp.toNat_le
  rw [HostPart.status_toNat c]
  omega

theorem HostPart.status_tclamp {h : HostPart} (c : h.clk < 65536) : h.status.getLsbD 33 = h.tclamp := by
  have tko := h.tko.isLt
  have power := h.pclamp.toNat_le
  have bit : h.status.toNat / 2 ^ 33 % 2 = h.tclamp.toNat := by
    have heat := h.tclamp.toNat_le
    rw [HostPart.status_toNat c]
    omega
  rw [← BitVec.testBit_toNat, Nat.testBit_eq_decide_div_mod_eq, bit]
  cases h.tclamp <;> rfl

/-! ### Host window registers (R433) -/

/-- In phase 2, before HWLOCK, a write to HWINBk stores bits 63:12 in the map of bases. -/
theorem exec_hostRegWrite_hwinb {s : State} {k : Nat} (v : Dword) (hk : k < 8) (p : s.host.phase = 2) (l : s.host.hwlock = false) :
    exec (.hostRegWrite (0x200 + 16 * k) v) s = .next (s.modHost fun h =>
      { h with hwinBase := SMap.setWord h.hwinBase k (v &&& ~~~(0xFFF : Dword)) }) := by
  have place : (0x200 + 16 * k - 0x200) / 16 = k := by omega
  have window : 0x200 ≤ 0x200 + 16 * k ∧ 0x200 + 16 * k < 0x280 ∧ (0x200 + 16 * k) % 8 = 0 := by omega
  have base : (0x200 + 16 * k) % 16 = 0 := by omega
  have arm : exec (.hostRegWrite (0x200 + 16 * k) v) s = execHostRegWrite (0x200 + 16 * k) v s := rfl
  have unlocked : ¬ (decide (s.host.phase ≠ 2) || s.host.hwlock) = true := by simp [p, l]
  rw [arm, execHostRegWrite]
  simp only [if_pos window, if_pos base, place, if_neg unlocked]
  rfl

/-- In phase 2 a read of HWINBk answers the word that the map of bases holds at k. -/
theorem HostPart.readRegister_hwinb {h : HostPart} {k : Nat} (hk : k < 8) (p : h.phase = 2) :
    h.readRegister (0x200 + 16 * k) = some (SMap.word h.hwinBase k) := by
  have place : (0x200 + 16 * k - 0x200) / 16 = k := by omega
  have base : (0x200 + 16 * k) % 16 = 0 := by omega
  rw [HostPart.readRegister_of_reaches (by rw [HostPart.reaches_iff]; omega), HostPart.register, place, if_pos base]
  repeat rw [if_neg (by omega)]
  rw [if_pos (by omega)]

/-! ### Event flags (R424) -/

/-- HEVT_WRITE in phases 3 and 4 (R424): the written ones of bits 2:0 clear their flags. -/
theorem exec_hevtWrite_of_reached {s : State} (v : Dword) (p : s.host.phase = 3 ∨ s.host.phase = 4) :
    exec (.hevtWrite v) s = .next (s.modHost fun h => { h with hevt := h.hevt &&& ~~~(v &&& 7) }) := by
  have arm : exec (.hevtWrite v) s = execHevtWrite v s := rfl
  have reached : s.host.reached = true := by simpa [HostPart.reached] using p
  rw [arm, execHevtWrite, if_pos reached]

/-! ### What holds where the map of window bases is in canonical form -/

/-- The statement of O48 with the premise that it lacks: the map of window bases has strictly rising keys, as it has at reset. -/
theorem hostReads_of_wf (s : State) (v : Dword) (addr k : Nat) (canonical : SMap.wf s.host.hwinBase = true) :
    (s.host.phase = 0 ∨ ((s.host.phase = 1 ∨ s.host.phase = 5) ∧ addr ≠ 0 ∧ addr ≠ 8) ∨
      (s.host.phase = 2 ∧ addr ≠ 0 ∧ addr ≠ 8 ∧ (addr < 0x200 ∨ 0x280 < addr)) →
      s.host.readRegister addr = some (BitVec.allOnes 64)) ∧
    (0 < s.host.phase → s.host.phase ≤ 5 → s.host.clk < 65536 → ∃ w, s.host.readRegister 8 = some w ∧
      w.toNat % 8 = s.host.phase ∧ w.toNat / 2 ^ 48 = s.host.clk ∧ (w.getLsbD 33 = s.host.tclamp)) ∧
    (k < 8 → s.host.phase = 2 → s.host.hwlock = false → ∃ t, exec (.hostRegWrite (0x200 + 16 * k) v) s = .next t ∧
      t.host.readRegister (0x200 + 16 * k) = some (v &&& ~~~(0xFFF : Dword))) ∧
    (s.host.phase = 3 ∨ s.host.phase = 4 → ∃ t, exec (.hevtWrite v) s = .next t ∧
      t.host.readRegister 0x1008 = some (s.host.hevt &&& ~~~(v &&& 7)) ∧ t.host.readRegister 0x320 = some 0) := by
  refine ⟨fun closed => ?_, fun lo hi clk => ?_, fun hk p l => ?_, fun p => ?_⟩
  · exact HostPart.readRegister_of_not_reaches (by rw [HostPart.reaches_iff]; omega)
  · have open8 : s.host.reaches 8 = true := by rw [HostPart.reaches_iff]; omega
    exact ⟨s.host.status, HostPart.readRegister_of_reaches open8, HostPart.status_phase clk hi, HostPart.status_clk clk,
      HostPart.status_tclamp clk⟩
  · refine ⟨_, exec_hostRegWrite_hwinb v hk p l, ?_⟩
    rw [State.modHost_host, HostPart.readRegister_hwinb hk, SMap.word_setWord canonical, if_pos rfl]
    exact p
  · refine ⟨_, exec_hevtWrite_of_reached v p, ?_, ?_⟩ <;> exact HostPart.readRegister_of_reaches (HostPart.reaches_of_reached p _)

/-- The premise is met: a package in phase 2 whose windows stand as at reset, HWINB1 written with bits below its field. -/
theorem hostReads_of_wf_witness : ∃ t, exec (.hostRegWrite 0x210 0x12345) (State.reset.modHost fun h => { h with phase := 2 }) = .next t ∧
    t.host.readRegister 0x210 = some 0x12000 :=
  (hostReads_of_wf (State.reset.modHost fun h => { h with phase := 2 }) 0x12345 0 1 rfl).2.2.1 (by decide) rfl rfl

/-! ### The refutation -/

/-- A package in phase 2 whose map of window bases lists key 0 twice. -/
def repeatedWindow : State := State.reset.modHost fun h => { h with phase := 2, hwinBase := [(0, 0x1000), (0, 0x1000)] }

/-- Storing 0 at key 0 there drops the first entry only, so the second one is read. -/
theorem word_setWord_repeatedWindow : SMap.word (SMap.setWord repeatedWindow.host.hwinBase 0 0) 0 = 0x1000 := by decide

/-- Refutes O48: its third clause, that a write to HWINBk reads back, has no premise that the map of window bases is in canonical form
(SMap.wf). A write of 0 to HWINB0 of `repeatedWindow`, whose map lists key 0 twice, reads back 0x1000. Such a map is
not the one of reset, and with the premise every clause holds (`hostReads_of_wf`). -/
theorem not_hostReads : ¬ Obligations.HostReads := by
  unfold Obligations.HostReads
  intro claim
  obtain ⟨-, -, readsBack, -⟩ := claim repeatedWindow 0 0 0
  obtain ⟨t, next, answer⟩ := readsBack (by decide) rfl rfl
  rw [exec_hostRegWrite_hwinb 0 (by decide) rfl rfl] at next
  obtain rfl := Host.Outcome.next.inj next
  rw [State.modHost_host, HostPart.readRegister_hwinb (by decide) rfl] at answer
  have kept : (0x1000 : Dword) = 0 := word_setWord_repeatedWindow.symm.trans (Option.some.inj answer)
  exact absurd kept (by decide)

end Sys2Proof.Machine
end

section
/-! PROOF. The events of the engine: commands, pieces and trap delivery (O40). -/

namespace Sys2Proof.Machine

/-! ### Elements of a list -/

theorem length_setAt {α : Type} (f : α → α) (l : List α) (n : Nat) : (setAt n f l).length = l.length := by
  induction l generalizing n with
  | nil => simp [setAt]
  | cons a r ih => cases n <;> simp [setAt, ih]

theorem getElem?_setAt_self {α : Type} (f : α → α) (l : List α) (n : Nat) : (setAt n f l)[n]? = l[n]?.map f := by
  induction l generalizing n with
  | nil => simp [setAt]
  | cons a r ih => cases n <;> simp [setAt, ih]

/-- Changes the first element that passes a test: what a command does to the list of what its engine has accepted (R12). -/
def setFirst {α : Type} (test : α → Bool) (f : α → α) (l : List α) : List α :=
  match l.findIdx? test with
  | some j => setAt j f l
  | none => l

theorem length_setFirst {α : Type} (test : α → Bool) (f : α → α) (l : List α) : (setFirst test f l).length = l.length := by
  unfold setFirst
  split
  · exact length_setAt ..
  · rfl

theorem getElem?_setFirst {α : Type} {test : α → Bool} (f : α → α) {l : List α} {j : Nat} {y : α}
    (first : l.findIdx? test = some j) (here : l[j]? = some y) : (setFirst test f l)[j]? = some (f y) := by
  unfold setFirst
  rw [first]
  exact (getElem?_setAt_self f l j).trans (congrArg _ here)

/-! ### Commands (R12, R313, R346) -/

theorem State.tile_modTile (s : State) (c : Nat) (f : TilePart → TilePart) : ((s.modTile c f).core c).tile = f (s.core c).tile := by
  unfold State.modTile
  rw [State.core_modCore_self]

section Command
variable {s : State} {c n src : Nat} {run : Option Nat}

/-- R12: the command of a queue entry marks the entry, and the queues of its unit go on. -/
theorem exec_engineCommand_entry {u q : Nat} {seq : Word} (small : n < 32) (msg : s.message c .req n = some ⟨src, .entry u q seq, run⟩)
    (turn : s.inTurn c .req n = true) : exec (.engineCommand c n) s =
      .next (((s.take c .req n).modQueue c u q fun y => { y with
        entries := y.entries.map fun e => if e.seq = seq then { e with commanded := true } else e }).advance c u 64) := by
  change execEngineCommand c n s = _
  simp only [execEngineCommand, if_pos small, msg, turn, Bool.not_true, Bool.false_eq_true, if_false]

/-- R12, R313: the command of a TFILL or TDRAIN marks the first one of its unit that has none yet. -/
theorem exec_engineCommand_tile {u : Nat} (small : n < 32) (msg : s.message c .req n = some ⟨src, .tile u, run⟩)
    (turn : s.inTurn c .req n = true) : exec (.engineCommand c n) s = .next ((s.take c .req n).modTile c fun t => { t with
      cmds := setFirst (fun x => x.unit == u && !x.commanded) (fun x => { x with commanded := true }) t.cmds }) := by
  change execEngineCommand c n s = _
  simp only [execEngineCommand, if_pos small, msg, turn, Bool.not_true, Bool.false_eq_true, if_false]
  congr 2
  funext t
  unfold setFirst
  cases t.cmds.findIdx? fun x => x.unit == u && !x.commanded <;> rfl

/-- R12, R313: the command of a matrix step marks the first one of its unit that has none yet. -/
theorem exec_engineCommand_step {u : Nat} (small : n < 32) (msg : s.message c .req n = some ⟨src, .step u, run⟩)
    (turn : s.inTurn c .req n = true) : exec (.engineCommand c n) s = .next ((s.take c .req n).modTile c fun t => { t with
      steps := setFirst (fun x => x.unit == u && !x.commanded) (fun x => { x with commanded := true }) t.steps }) := by
  change execEngineCommand c n s = _
  simp only [execEngineCommand, if_pos small, msg, turn, Bool.not_true, Bool.false_eq_true, if_false]
  congr 2
  funext t
  unfold setFirst
  cases t.steps.findIdx? fun x => x.unit == u && !x.commanded <;> rfl

/-- R12: the command of the fid marks its request. -/
theorem exec_engineCommand_compile {k : Nat} (small : n < 32) (msg : s.message c .req n = some ⟨src, .compile k, run⟩)
    (turn : s.inTurn c .req n = true) : exec (.engineCommand c n) s = .next ((s.take c .req n).modTile c fun t => { t with
      requests := t.requests.map fun x => if x.1 = k then (k, true) else x }) := by
  change execEngineCommand c n s = _
  simp only [execEngineCommand, if_pos small, msg, turn, Bool.not_true, Bool.false_eq_true, if_false]

/-- R346: places 32 and up of the event are those of the PAGE inbox, where the command of a treelet fill starts it. -/
theorem exec_engineCommand_fill {f ctx : Nat} {x : Context} (msg : s.message c .page n = some ⟨src, .fill f, run⟩)
    (turn : s.inTurn c .page n = true) (holds : s.holder c = some (ctx, x)) :
    exec (.engineCommand c (n + 32)) s = .next (s.startFill ctx c n f) := by
  change execEngineCommand c (n + 32) s = _
  have large : ¬ n + 32 < 32 := by omega
  simp only [execEngineCommand, if_neg large, Nat.add_sub_cancel, msg, turn, holds, Bool.not_true, Bool.false_eq_true, if_false]

end Command

/-! ### The head entry of a queue (R245 to R247, R257) -/

section Head
variable {s : State} {c u q p : Nat} {e : Entry}

/-- R257, R271: once the readers of its slots are gone, a HAULT at its turn begins to fill them. -/
theorem exec_haultSlotWrite_of_writable {va pitch slot count near : Nat} (head : s.working c u q = some e)
    (op : e.op = .tiles va pitch slot count near) (idle : e.filling = false)
    (writable : ((List.range count).all fun j => ((s.core c).tile.slot (slot + j)).writable) = true) :
    exec (.haultSlotWrite c u q) s = .next ((s.modQueue c u q fun y => { y with
      entries := setAt 0 (fun e => { e with filling := true }) y.entries }).modTile c fun t =>
        (List.range count).foldl (fun t j => t.beginWrite (slot + j)) t) := by
  change execHaultSlotWrite c u q s = _
  simp only [execHaultSlotWrite, head, op, idle, writable, Bool.not_true, Bool.or_self, Bool.false_eq_true, if_false]

/-- R245, R257: a piece of the head entry goes one stage on; one of a HAULT, once its slots fill. -/
theorem exec_enginePiecePerformed_of_moves {b : Nat} (head : s.working c u q = some e) (block : e.op.blocks[p]? = some b)
    (moves : e.op.moves = true)
    (fills : (∃ va pitch slot count near, e.op = .tiles va pitch slot count near) → e.filling = true) :
    exec (.enginePiecePerformed c u q p) s = .next (execEnginePiecePerformed.go c u q p s e) := by
  change execEnginePiecePerformed c u q p s = _
  simp only [execEnginePiecePerformed, head]
  split
  · next op _ => rw [fills ⟨_, _, _, _, _, op⟩]; rfl
  · rfl
  · next notTiles notCopy => cases op : e.op with
    | copy => exact absurd block (notCopy _ _ _ _ _ _ _ op)
    | tiles => exact absurd block (notTiles _ _ _ _ _ _ op)
    | bump => rw [op] at moves; cases moves
    | join => rw [op] at moves; cases moves

/-- R245: a piece whose page is in the package's memory gets its place from its translation. -/
theorem piece_go_of_translated {b place : Nat} {t : State} (block : e.op.blocks[p]? = some b)
    (fresh : (e.piece p).state = .untranslated) (issues : ((s.context (s.queueCtx c u)).map (·.issues)) = some true)
    (reach : s.unreachable c u e = false)
    (found : s.translate c (s.queueCtx c u) (e.op.firstVa b) (if e.op.stows then 1 else 0) q (.piece c u q p e.seq) =
      (some (.hbm place), t)) :
    execEnginePiecePerformed.go c u q p s e = t.modPiece c u q p fun y => { y with
      state := .ready, place := some (Place.block (.hbm place) (e.op.firstVa b)) } := by
  simp only [execEnginePiecePerformed.go, block, Option.getD_some, fresh, issues, reach, found, Place.block, Bool.not_true,
    Bool.and_false, Bool.false_eq_true, if_false]

/-- R245: a piece whose translation the station has not yet waits for it. -/
theorem piece_go_of_walking {b : Nat} {t : State} (block : e.op.blocks[p]? = some b)
    (fresh : (e.piece p).state = .untranslated) (issues : ((s.context (s.queueCtx c u)).map (·.issues)) = some true)
    (reach : s.unreachable c u e = false)
    (asked : s.translate c (s.queueCtx c u) (e.op.firstVa b) (if e.op.stows then 1 else 0) q (.piece c u q p e.seq) = (none, t)) :
    execEnginePiecePerformed.go c u q p s e = t.modPiece c u q p id := by
  simp only [execEnginePiecePerformed.go, block, Option.getD_some, fresh, issues, reach, asked, Bool.not_true,
    Bool.and_false, Bool.false_eq_true, if_false]

/-- R234, R245: once every line of a piece is answered and its local pages are there, it moves its bytes and is performed. -/
theorem piece_go_of_answered {b pa home : Nat} {pages : List Nat} (block : e.op.blocks[p]? = some b)
    (ready : (e.piece p).state = .ready) (place : (e.piece p).place = some (.hbm pa))
    (side : s.piecePages c u e.op b = some (home, pages))
    (there : s.pages home (s.queueCtx c u) pages (some (.queue c u q)) = .ready)
    (answered : ∀ l ∈ e.op.lines b, SMap.find (e.piece p).lines (l % 64) = some .done) :
    execEnginePiecePerformed.go c u q p s e =
      (if e.op.stows then s else s.landPiece c u e b (e.piece p).data).performPiece c u q p := by
  have all : ((e.op.lines b).all fun l => SMap.find (e.piece p).lines (l % 64) == some .done) = true :=
    List.all_eq_true.mpr fun l here => beq_iff_eq.mpr (answered l here)
  simp only [execEnginePiecePerformed.go, block, Option.getD_some, ready, place, side, there, all, Bool.not_true,
    Bool.false_eq_true, if_false]
  split <;> rfl

/-- R247: the host's completion performs the piece of a write. -/
theorem exec_hostWriteCompletion_of_sent {a : Nat} (head : s.working c u q = some e) (place : (e.piece p).place = some (.host a))
    (sent : (e.piece p).sent = true) (stows : e.op.stows = true) (ready : (e.piece p).state = .ready)
    (route : s.routeUp (dieOf c) 0 = true) : exec (.hostWriteCompletion c u q p) s = .next (s.performPiece c u q p) := by
  change execHostWriteCompletion c u q p s = _
  simp only [execHostWriteCompletion, head, place, sent, stows, ready, route, beq_self_eq_true, Bool.and_self, if_true]

end Head

/-! ### Traps left for a unit (R252, R396) -/

section Delivery
variable {s : State} {c u : Nat} {r : Resident} {x : Context} {lead : Bool} {t : TrapRec} {more : List (Bool × TrapRec)}

/-- R252: a trap waits at a unit that is in no handler, in a context that issues. -/
structure TrapAwaits (s : State) (c u : Nat) (r : Resident) (x : Context) (lead : Bool) (t : TrapRec)
    (more : List (Bool × TrapRec)) : Prop where
  unit : s.unit c u = some r
  waiting : r.ctl.waiting = (lead, t) :: more
  context : s.context r.info.ctx = some x
  free : r.ctl.trap = none
  issues : x.issues = true

/-- R252, R396: with no stream left, a new handler path of all the group's lanes takes the trap. -/
theorem exec_engineTrapDelivery_of_no_stream (h : TrapAwaits s c u r x lead t more) (lanes : r.lanes.live = 0)
    (ended : (r.lead.map (!·.ended)).getD false = false)
    (spill : s.pages c r.info.ctx (spillPages x.record.tsa u false (firstLanes r.info.width)) none = .ready) :
    exec (.engineTrapDelivery c u) s = .next ((s.modCtl c u fun k => { k with waiting := more }).vectorLanes c u 0
      (firstLanes r.info.width) 0xFFFFFFFF (Front.at 0xFFFFFFFF) true { t with mask := 0 }) := by
  change execEngineTrapDelivery c u s = _
  simp only [execEngineTrapDelivery, h.unit, h.waiting, h.context, h.free, h.issues, lanes, ended, spill, Option.isSome_none,
    Bool.not_true, Bool.or_self, Bool.false_and, Bool.not_false, beq_self_eq_true, Bool.and_self, Bool.false_eq_true, if_false, if_true]

/-- R252: a trap is due to the lead where it issued or no lane lives, else to the lanes. -/
theorem exec_engineTrapDelivery_of_stream (h : TrapAwaits s c u r x lead t more) {toLead : Bool}
    (due : toLead = ((r.lead.map (!·.ended)).getD false && (lead || r.lanes.live == 0)))
    (live : (toLead || r.lanes.live != 0) = true) :
    exec (.engineTrapDelivery c u) s = .next (s.modCtl c u fun k => { k with waiting := (toLead, t) :: more }) := by
  change execEngineTrapDelivery c u s = _
  have stream : (!toLead && r.lanes.live == 0) = false := by
    rw [← Bool.not_eq_true', Bool.not_and, Bool.not_not]; exact live
  simp only [execEngineTrapDelivery, h.unit, h.waiting, h.context, h.free, h.issues, ← due, stream, Option.isSome_none,
    Bool.not_true, Bool.or_self, Bool.false_eq_true, if_false]

end Delivery

/-- Settles O40: every clause is the lemma of its event. -/
theorem engineEvents : Obligations.EngineEvents := by
  unfold Obligations.EngineEvents
  intro s c n u q p src seq run e b r x lead t more
  refine ⟨exec_engineCommand_entry, fun small msg turn => ?tile, fun small msg turn => ?step,
    fun k => exec_engineCommand_compile, fun f ctx => exec_engineCommand_fill, fun head => ⟨?haul, ?piece, ?host⟩,
    fun unit waiting context free issues => ?trap⟩
  case tile =>
    refine ⟨_, exec_engineCommand_tile small msg turn, ?_, fun j y first here => ?_⟩
    · rw [State.tile_modTile, length_setFirst]
    · rw [State.tile_modTile]; exact getElem?_setFirst _ first here
  case step =>
    refine ⟨_, exec_engineCommand_step small msg turn, ?_, fun j y first here => ?_⟩
    · rw [State.tile_modTile, length_setFirst]
    · rw [State.tile_modTile]; exact getElem?_setFirst _ first here
  case haul => exact fun va pitch slot count near => exec_haultSlotWrite_of_writable head
  case piece =>
    intro block moves fills
    rw [exec_enginePiecePerformed_of_moves head block moves fills]
    refine ⟨fun fresh issues reach => ⟨fun place t found => ?_, fun t asked => ?_⟩,
      fun pa home pages ready place side there answered => ?_⟩
    · rw [piece_go_of_translated block fresh issues reach found]
    · rw [piece_go_of_walking block fresh issues reach asked]
    · rw [piece_go_of_answered block ready place side there answered]
  case host => exact fun a => exec_hostWriteCompletion_of_sent head
  case trap =>
    have awaits : TrapAwaits s c u r x lead t more := ⟨unit, waiting, context, free, issues⟩
    exact ⟨exec_engineTrapDelivery_of_no_stream awaits, fun toLead => exec_engineTrapDelivery_of_stream awaits⟩

end Sys2Proof.Machine
end

section
/-! PROOF. Floating-point instructions, reductions and scans: their values, their events and FP_TRAP (O2, O4). -/

namespace Sys2Proof.Machine

/-! ### Lanes -/

theorem lanesOf_sorted (m : LaneMask) : (lanesOf m).Pairwise (· < ·) := List.pairwise_lt_range.filter _

theorem lt_of_mem_lanesOf {m : LaneMask} {l : Nat} (h : l ∈ lanesOf m) : l < 64 :=
  List.mem_range.mp (List.mem_filter.mp h).1

/-- A table made lane by lane, in rising order, holds the entries of its own lanes. -/
theorem SMap.find_map_of_sorted {β : Type} {ls : List Nat} (sorted : ls.Pairwise (· < ·)) (f : Nat → β) (k : Nat) :
    SMap.find (ls.map fun l => (l, f l)) k = if k ∈ ls then some (f k) else none := by
  induction ls with
  | nil => rfl
  | cons a r ih =>
    obtain ⟨above, sorted⟩ := List.pairwise_cons.mp sorted
    simp only [List.map_cons, SMap.find, ih sorted, List.mem_cons]
    by_cases same : a = k
    · simp [same]
    · by_cases below : k < a
      · have out : k ∉ r := fun mem => absurd (above k mem) (by omega)
        simp [same, below, out, Ne.symm same]
      · simp [same, below, Ne.symm same]

theorem laneBit_ne_zero {l : Nat} (h : l < 64) : laneBit l ≠ 0 := fun zero => by
  have set : (laneBit l).getLsbD l = true := by simp [laneBit, h]
  simp [zero] at set

/-- Lanes added to a mask make the empty mask only when there are none. -/
theorem foldl_laneBit_eq_zero {ls : List Nat} (small : ∀ l ∈ ls, l < 64) (m : LaneMask) :
    ls.foldl (fun w l => w ||| laneBit l) m = 0 ↔ m = 0 ∧ ls = [] := by
  induction ls generalizing m with
  | nil => simp
  | cons a r ih =>
    obtain ⟨first, rest⟩ := List.forall_mem_cons.mp small
    rw [List.foldl_cons, ih rest]
    exact iff_of_false (fun ⟨zero, _⟩ => laneBit_ne_zero first (BitVec.or_eq_zero_iff.mp zero).2) fun ⟨_, nil⟩ => List.cons_ne_nil a r nil

theorem Issue.trappingLanes_eq_zero (i : Issue) (m : Dword) (ev : Nat → Ev) :
    i.trappingLanes m ev = 0 ↔ ((lanesOf i.active).filter fun l => (ev l).enabled m) = [] :=
  (foldl_laneBit_eq_zero (fun _ h => lt_of_mem_lanesOf (List.mem_filter.mp h).1) 0).trans (and_iff_right rfl)

/-! ### Events, counted or trapped (R76, R77) -/

section Events
variable {s u : State} {i : Issue} {ev : Nat → Ev}

/-- The lanes among the events of the active lanes in which one is enabled. -/
theorem filter_map_enabled (ls : List Nat) (m : Dword) (ev : Nat → Ev) :
    ((ls.map fun l => (l, ev l)).filter fun x => x.2.enabled m) = (ls.filter fun l => (ev l).enabled m).map fun l => (l, ev l) :=
  List.filter_map

theorem State.withEvents_of_quiet (quiet : i.trappingLanes (s.modeOf i) ev = 0) (k : State → Eff) :
    s.withEvents u i ((lanesOf i.active).map fun l => (l, ev l)) k = k (u.count i.core (i.eventsOf ev)) := by
  rw [Issue.trappingLanes_eq_zero] at quiet
  unfold State.withEvents Issue.eventsOf
  simp only [filter_map_enabled, quiet, List.map_map, List.map_nil, List.isEmpty_nil, if_true, Function.comp_def]

theorem State.withEvents_of_enabled (enabled : i.trappingLanes (s.modeOf i) ev ≠ 0) (k : State → Eff) :
    s.withEvents u i ((lanesOf i.active).map fun l => (l, ev l)) k =
      .trap ⟨Cause.fpTrap, i.trappingLanes (s.modeOf i) ev, 0, BitVec.ofNat 64 (i.eventsOf ev).info⟩ s := by
  rw [Ne, Issue.trappingLanes_eq_zero] at enabled
  unfold State.withEvents Issue.eventsOf Issue.trappingLanes
  simp only [filter_map_enabled, List.isEmpty_iff, List.map_eq_nil_iff, if_neg enabled, List.map_map, List.foldl_map, Function.comp_def]

end Events

/-! ### Results that need no local memory (R30, R31, R151) -/

section Delivery
variable {s t u : State} {i : Issue} {f : RegField}

@[simp] theorem State.unit_count (s : State) (c d v : Nat) (e : Ev) : (s.count c e).unit d v = s.unit d v := by
  unfold State.unit State.count
  rw [State.core_modCore]
  split
  · subst d; rfl
  · rfl

/-- A state in which the issuing unit has the queues that it had broadcasts as before. -/
theorem State.broadcasts_of_queues (b : u.broadcasts i f)
    (same : i.kind ≠ .group → (t.unit i.core i.unit).map (·.queues) = (u.unit i.core i.unit).map (·.queues)) :
    t.broadcasts i f := by
  intro queue lead
  obtain ⟨r, unit, opt⟩ := b queue lead
  have kept := same lead
  rw [unit, Option.map_some, Option.map_eq_some_iff] at kept
  obtain ⟨r', unit', queues⟩ := kept
  exact ⟨r', unit', by rw [queues]; exact opt⟩

theorem State.broadcasts_count (b : u.broadcasts i f) (c : Nat) (e : Ev) : (u.count c e).broadcasts i f :=
  State.broadcasts_of_queues b fun _ => by rw [State.unit_count]

/-- The scalar part of a lead or run holds no queue. -/
theorem State.queues_modScalar (s : State) (i : Issue) (g : Scalar → Scalar) :
    ((s.modScalar i g).unit i.core i.unit).map (·.queues) = (s.unit i.core i.unit).map (·.queues) := by
  unfold State.modScalar
  split
  case h_1 => rfl
  case h_2 =>
    unfold State.modLead
    rw [State.unit_modUnit, if_pos rfl, Option.map_map]
    rfl
  case h_3 =>
    unfold State.unit State.modRun
    rw [State.modHandlers_core_units]

theorem State.broadcasts_setGen (b : u.broadcasts i f) (l : Nat) (g : Word) : (u.setGen i l g).broadcasts i f := by
  refine State.broadcasts_of_queues b fun scalar => ?_
  unfold State.setGen
  split
  case isTrue => rfl
  case isFalse => cases kind : i.kind with
    | group => exact absurd kind scalar
    | lead => exact State.queues_modScalar ..
    | run => exact State.queues_modScalar ..

theorem State.broadcasts_setGens (b : u.broadcasts i f) (gen : Nat → Word) : (u.setGens i gen).broadcasts i f := by
  unfold State.setGens
  generalize lanesOf i.active = ls
  induction ls generalizing u with
  | nil => exact b
  | cons a r ih => exact ih (State.broadcasts_setGen b a (gen a))

theorem State.clearSpin_of_not_group (scalar : i.kind ≠ .group) : t.clearSpin i = t := by
  simp [State.clearSpin, scalar]

/-- R151: a lead's push to a queue that fetches no entries is one entry, broadcast. -/
theorem State.leadPush_of_broadcast {r : Resident} {k : Nat} (unit : t.unit i.core i.unit = some r)
    (opt : ((r.queues[k]?).getD QueueReg.unmapped).opt = 0) (v : Dword) :
    s.leadPush t i k v = .done (t.pushQueue i k (List.replicate 64 (v.setWidth 32))) := by
  simp only [State.leadPush, unit, opt, if_true]

theorem State.result_of_broadcasts (b : t.broadcasts i f) (c : Cls) (v : Nat → Dword) :
    s.result t i c f v = .done (t.delivered i c f v) := by
  unfold State.result State.delivered
  by_cases queue : isQueue f = true
  · rw [if_pos queue, if_pos queue]
    by_cases group : i.kind = .group
    · simp only [group, beq_self_eq_true, if_true]
    · obtain ⟨r, unit, opt⟩ := b queue group
      have scalar : (i.kind == .group) = false := beq_eq_false_iff_ne.mpr group
      simp only [scalar, Bool.false_eq_true, if_false, State.clearSpin_of_not_group group, State.leadPush_of_broadcast unit opt]
  · rw [if_neg queue, if_neg queue]

end Delivery

/-! ### Floating-point instructions (R77, R81 to R94) -/

/-- Every instruction of R81 to R94 that may trap on its events is the unit that its specification names. -/
theorem exec_of_floatResult {x : Instr} {r : FloatSpec} (h : floatResult x = some r) (s : State) :
    exec x s = fpUnit r.attr r.guard (r.cls, r.dst) r.srcs r.lane s := by
  unfold floatResult at h
  split at h <;> cases h <;> rfl

section Float
variable {r : FloatSpec} {s u : State} {i : Issue} {vals : List (Nat → Dword)}

/-- What the lanes of a floating-point unit compute, from the state before it: its events first, then generators and values. -/
theorem FloatSpec.fpCompute_eq (ok : i.registersOk (r.cls, r.dst) (r.srcs i)) (read : s.operands i (r.srcs i) [r.dst] = .ok vals u) :
    s.fpCompute i 0 (r.cls, r.dst) (r.srcs i) r.lane =
      s.withEvents u i ((lanesOf i.active).map fun l => (l, (r.outIn s i vals l).ev)) fun t =>
        s.result (t.setGens i fun l => (r.outIn s i vals l).gen) i r.cls r.dst (i.inLanes fun l => (r.outIn s i vals l).value) := by
  obtain ⟨dst, srcs⟩ := ok
  unfold State.fpCompute
  simp only [dst, srcs, read, Bool.not_true, Bool.or_self, Bool.false_eq_true, if_false, List.map_map, List.foldl_map,
    SMap.find_map_of_sorted (lanesOf_sorted i.active)]
  congr 1
  funext t
  congr 1
  funext l
  unfold Issue.inLanes
  by_cases active : l ∈ lanesOf i.active
  · simp only [if_pos active]; rfl
  · simp only [if_neg active]

end Float

/-- Settles O2: the unit's events are counted or trap before its generators and its values. -/
theorem floatResults : Obligations.FloatResults := by
  unfold Obligations.FloatResults
  refine ⟨fun x r s u i vals spec issues ok read b quiet => ?completes, fun x r s u i vals spec issues ok read enabled => ?traps⟩
  case completes =>
    rw [exec_of_floatResult spec]
    refine runUnit_done issues ?_
    rw [FloatSpec.fpCompute_eq ok read, State.withEvents_of_quiet (s := s.awake) quiet]
    exact State.result_of_broadcasts (State.broadcasts_setGens (State.broadcasts_count b _ _) _) _ _
  case traps =>
    rw [exec_of_floatResult spec]
    exact runUnit_trapsAt issues ((FloatSpec.fpCompute_eq ok read).trans (State.withEvents_of_enabled (s := s.awake) enabled _))

/-! ### Reductions and scans (R77, R78, R120, R121) -/

section Tree
variable {r : TreeSpec} {s u : State} {i : Issue} {vals : List (Nat → Dword)}

/-- The body of a reduction or scan with an answer, lane by lane, under a MODE: operands, the events of all nodes, then the values. -/
def treeBody (d a : RegField) (answer : Dword → Issue → List (Nat → Dword) → (Nat → Nat) × Ev) (i : Issue) (s : State) : Eff :=
  if !i.regOk true .nat d || !i.regOk false .nat a then i.illegal 0 s
  else match s.operands i [(.nat, a)] [d] with
    | .stop e => e
    | .ok v t =>
      s.withNodeEvents t i (answer (s.modeOf i) i v).2 fun t => s.result t i .nat d fun l =>
        BitVec.ofNat 64 ((answer (s.modeOf i) i v).1 l)

/-- The model's operation of a tree. -/
def TreeSpec.exec (r : TreeSpec) : State → Host.Outcome State Fault Refusal :=
  match r.exclusive with
  | none => reduce r.identity r.node r.dst r.src r.guard
  | some exclusive => scan r.identity exclusive r.node r.dst r.src r.guard

/-- R121: an exclusive scan gives lane 0 the identity, and every other lane what the lane below it has. -/
theorem TreeSpec.answer_exclusive (identity : Nat) (op : Dword → Nat → Nat → FRes) (d a : RegField) (g : GuardField) :
    TreeSpec.answer ⟨identity, op, some true, d, a, g⟩ = fun mode i v =>
      let out := scanTree (op mode) 6 1 (treeInput i identity v)
      (fun l => if l = 0 then identity else ((out[l - 1]?).getD (identity, ({} : Ev))).1, Ev.sum (out.map (·.2))) := by
  funext mode i v
  simp only [TreeSpec.answer, Bool.true_and, beq_iff_eq, if_true]

/-- Every reduction and every scan is the operation that its specification names. -/
theorem exec_of_treeResult {x : Instr} (h : treeResult x = some r) (s : State) : exec x s = r.exec s := by
  unfold treeResult at h
  split at h <;> cases h <;> rfl

theorem TreeSpec.exec_eq_runUnit (r : TreeSpec) (s : State) : r.exec s = runUnit groupOnly r.guard (treeBody r.dst r.src r.answer) s := by
  obtain ⟨identity, node, exclusive, dst, src, guard⟩ := r
  match exclusive with
  | none => rfl
  | some false => rfl
  | some true => rw [TreeSpec.answer_exclusive]; rfl

theorem TreeSpec.treeBody_of_readable (ok : i.registersOk (.nat, r.dst) [(.nat, r.src)])
    (read : s.operands i [(.nat, r.src)] [r.dst] = .ok vals u) :
    treeBody r.dst r.src r.answer i s = s.withNodeEvents u i (r.answer (s.modeOf i) i vals).2 fun t => s.result t i .nat r.dst fun l =>
      BitVec.ofNat 64 ((r.answer (s.modeOf i) i vals).1 l) := by
  obtain ⟨dst, srcs⟩ := ok
  simp only [List.all_cons, List.all_nil, Bool.and_true] at srcs
  simp only [treeBody, dst, srcs, read, Bool.not_true, Bool.or_self, Bool.false_eq_true, if_false]

end Tree

/-- Settles O4: the events of all nodes are counted or trap before the values of the tree are delivered. -/
theorem treeResults : Obligations.TreeResults := by
  unfold Obligations.TreeResults
  refine ⟨fun x r s u i vals spec issues ok read b quiet => ?completes, fun x r s u i vals spec issues ok read enabled => ?traps⟩
  case completes =>
    rw [exec_of_treeResult spec, TreeSpec.exec_eq_runUnit]
    refine runUnit_done issues ?_
    rw [TreeSpec.treeBody_of_readable ok read]
    exact (if_neg (Bool.eq_false_iff.mp quiet)).trans (State.result_of_broadcasts (State.broadcasts_count b _ _) _ _)
  case traps =>
    rw [exec_of_treeResult spec, TreeSpec.exec_eq_runUnit]
    refine runUnit_trapsAt issues ?_
    rw [TreeSpec.treeBody_of_readable ok read]
    exact if_pos enabled

end Sys2Proof.Machine
end

section
/-! PROOF. Instructions with one result: integers, moves, predicate reads and lane exchanges (O1). -/

namespace Sys2Proof.Machine

/-- A unit whose fields are legal computes its one result (R98 to R121). -/
def ResultSpec.compute (r : ResultSpec) (i : Issue) (s : State) : Eff :=
  s.compute i 0 (r.cls, r.dst) (r.srcs i) fun vals u => (r.value s i vals, u)

theorem exec_of_pureResult {x : Instr} {r : ResultSpec} (h : pureResult x = some r) :
    ∃ body, (∀ s, exec x s = runUnit r.attr r.guard body s) ∧ ∀ i s, r.legal i = true → body i s = r.compute i s := by
  unfold pureResult at h
  split at h <;> cases h
  -- SHI, P2G, PGETW, SHFLX, BCAST, FABSN, DABSN and K2F refuse a field first
  case h_37 | h_46 | h_47 | h_52 | h_53 | h_56 | h_57 | h_58 =>
    exact ⟨_, fun _ => rfl, fun i s legal => if_neg (by simpa using legal)⟩
  -- QSTAT refuses a register that is no queue, and a hank
  case h_59 =>
    refine ⟨_, fun _ => rfl, fun i s legal => ?_⟩
    obtain ⟨queue, hank⟩ := Bool.and_eq_true_iff.mp legal
    exact (if_neg (by simpa using queue)).trans (if_neg (by simpa using hank))
  all_goals exact ⟨_, fun _ => rfl, fun _ _ _ => rfl⟩

section Pure
variable {r : ResultSpec} {s u : State} {i : Issue} {vals : List (Nat → Dword)}

theorem ResultSpec.compute_of_readable (ok : i.registersOk (r.cls, r.dst) (r.srcs i))
    (read : s.operands i (r.srcs i) [r.dst] = .ok vals u) :
    r.compute i s = s.result u i r.cls r.dst (r.value s i vals) := by
  obtain ⟨dst, srcs⟩ := ok
  simp only [ResultSpec.compute, State.compute, dst, srcs, read, Bool.not_true, Bool.or_self, Bool.false_eq_true, if_false]

theorem ResultSpec.compute_of_not_registersOk (bad : ¬ i.registersOk (r.cls, r.dst) (r.srcs i)) :
    r.compute i s = .trap ⟨Cause.illegal, 0, 0, 0⟩ s := by
  refine if_pos ?_
  rw [Issue.registersOk, ← Bool.and_eq_true, Bool.not_eq_true] at bad
  rw [← Bool.not_and, bad]
  rfl

/-- R151: a lead's push to a queue that fetches its entries, by the window, the alignment and the pages of the local address. -/
theorem State.result_of_fetches {c : Cls} {f : RegField} {q : Resident} (lead : i.kind = .lead) (queue : isQueue f = true)
    (unit : u.unit i.core i.unit = some q) (opt : ((q.queues[queueIndex f]?).getD QueueReg.unmapped).opt ≠ 0) (v : Nat → Dword) :
    let a := (v 0).toNat % 2 ^ 20
    let n := 4 * q.info.width
    (i.window.holds a n = false → s.result u i c f v = i.trapAt Cause.lsBound a 0 s) ∧
    (i.window.holds a n = true → a % 4 ≠ 0 → s.result u i c f v = i.trapAt Cause.misalign a 0 s) ∧
    (i.window.holds a n = true → a % 4 = 0 → s.pages i.core i.ctx [a, a + n - 1] (some i.waiter) = .ready →
      s.result u i c f v = .done ((u.localEntry i.agent i.core a q.info.width).2.pushQueue i (queueIndex f)
        (u.localEntry i.agent i.core a q.info.width).1)) := by
  have push : s.result u i c f v = s.leadPush u i (queueIndex f) (v 0) := by
    have scalar : i.kind ≠ .group := by simp [lead]
    simp only [State.result, queue, if_true, State.clearSpin_of_not_group scalar, beq_iff_eq, scalar, if_false]
  simp only [push, State.leadPush, unit, if_neg opt]
  refine ⟨fun out => ?_, fun inside odd => ?_, fun inside aligned ready => ?_⟩
  · rw [out]; rfl
  · simp only [inside, Bool.not_true, Bool.false_eq_true, if_false, if_pos odd]
  · simp only [inside, Bool.not_true, Bool.false_eq_true, if_false, aligned, ne_eq, not_true_eq_false, ready]

/-- A one-result unit that can read its sources and needs no local memory for its destination completes. -/
theorem exec_of_pureResult_readable {x : Instr} (spec : pureResult x = some r) (issues : Issues r.attr r.guard s i)
    (legal : r.legal i = true) (ok : i.registersOk (r.cls, r.dst) (r.srcs i)) (read : s.awake.operands i (r.srcs i) [r.dst] = .ok vals u)
    (b : u.broadcasts i r.dst) : exec x s = .next (i.finished r.attr (u.delivered i r.cls r.dst (r.value s.awake i vals))) := by
  obtain ⟨body, asUnit, computes⟩ := exec_of_pureResult spec
  rw [asUnit]
  refine runUnit_done issues ?_
  rw [computes _ _ legal, ResultSpec.compute_of_readable ok read]
  exact State.result_of_broadcasts b _ _

end Pure

/-- Settles O1: a one-result unit is its register checks, its operands and one result, which goes to the registers of its lanes, to
a queue, or through local memory to a queue. -/
theorem pureResults : Obligations.PureResults := by
  unfold Obligations.PureResults
  refine ⟨fun x r s u i vals => exec_of_pureResult_readable, fun x r s u i vals q spec issues legal => ?_⟩
  obtain ⟨body, asUnit, computes⟩ := exec_of_pureResult spec
  rw [asUnit]
  refine ⟨?fetches, ?illegal⟩
  case fetches =>
    intro ok read lead queue unit opt
    have result := (computes i s.awake legal).trans (ResultSpec.compute_of_readable ok read)
    obtain ⟨out, odd, ready⟩ := State.result_of_fetches (s := s.awake) (c := r.cls) lead queue unit opt (r.value s.awake i vals)
    exact ⟨fun h => runUnit_trapsAt issues (result.trans (out h)), fun h k => runUnit_trapsAt issues (result.trans (odd h k)),
      fun h k l => runUnit_done issues (result.trans (ready h k l))⟩
  case illegal =>
    intro bad
    exact runUnit_trapsAt issues ((computes _ _ legal).trans (ResultSpec.compute_of_not_registersOk bad))

end Sys2Proof.Machine
end

section
/-! PROOF. Predicate results, MODEW, PSETW and the floating-point compares (O3). -/

namespace Sys2Proof.Machine

/-! ### Predicates as operands and destinations (R26, R34) -/

theorem Issue.predOk_iff (i : Issue) (p : RegField) : i.predOk p = true ↔ i.kind = .group ∨ p.toNat < 16 := by
  simp [Issue.predOk]

theorem State.tokenPending_nil (s : State) (i : Issue) : s.tokenPending i [] = false := by
  have owes (r : Resident) : r.owes i.lanes [] = false := by
    unfold Resident.owes Resident.tokenDue Resident.gathering
    split <;> simp
  unfold State.tokenPending
  cases s.unit i.core i.unit <;> simp [owes]

/-- A unit without register operands passes its operand stage as it is. -/
theorem State.operands_nil (s : State) (i : Issue) : s.operands i [] [] = .ok [] s := by
  simp [State.operands, State.queueCheck, State.tokenPending_nil]

/-! ### Instructions that write one predicate in each lane (R112, R114 to R116) -/

/-- An execution is a unit that reads its sources and writes one predicate in each active lane. -/
def PredSpec.WrittenBy (r : PredSpec) (run : State → Host.Outcome State Fault Refusal) : Prop :=
  ∃ body, (∀ s, run s = runUnit r.attr r.guard body s) ∧ ∀ (i : Issue) (s u : State) (vals : List (Nat → Dword)),
    (∀ p ∈ r.dst :: r.preds, i.predOk p = true) → (r.srcs.all fun y => i.regOk false y.1 y.2) = true →
    s.operands i r.srcs [] = .ok vals u → body i s = .done (u.writePreds i r.dst.toNat (r.value s i vals))

section Predicates
variable {p a b : RegField} {g : GuardField} {r : PredSpec}

theorem writtenBy_toPredicate (t : Attr) (srcs : List (Cls × RegField)) (f : Issue → List (Nat → Dword) → Nat → Bool) :
    PredSpec.WrittenBy ⟨t, g, p, [], srcs, fun _ => f⟩ (toPredicate t p srcs g f) := by
  refine ⟨_, fun _ => rfl, fun i s u vals preds ok read => ?_⟩
  have dst : i.predOk p = true := preds p (List.mem_singleton_self p)
  simp only at ok read ⊢
  simp only [dst, ok, read, Bool.not_true, Bool.or_self, Bool.false_eq_true, if_false]

theorem writtenBy_icmp {cond : Nat} (h : compareInt cond p a b g = some r) : r.WrittenBy (icmp cond p a b g) := by
  cases h
  exact writtenBy_toPredicate ..

theorem writtenBy_plop {f : Bool → Bool → Bool} (h : combine f p a b g = some r) : r.WrittenBy (plop f p a b g) := by
  cases h
  refine ⟨_, fun _ => rfl, fun i s u vals preds _ read => ?_⟩
  obtain ⟨dst, left, right⟩ : i.predOk p = true ∧ i.predOk a = true ∧ i.predOk b = true := by simpa using preds
  rw [State.operands_nil] at read
  cases read
  simp only [dst, left, right, Bool.not_true, Bool.or_self, Bool.false_eq_true, if_false]

/-- R116: ANY and ALL test the lanes in which one predicate holds. -/
theorem writtenBy_vote (holds : Issue → LaneMask → Bool) :
    PredSpec.WrittenBy ⟨groupOnly, g, p, [], [], fun s i _ _ => holds i (s.ballot i a)⟩
      (runUnit groupOnly g fun i s => .done (s.writePreds i p.toNat fun _ => holds i (s.ballot i a))) := by
  refine ⟨_, fun _ => rfl, fun i s u vals _ _ read => ?_⟩
  rw [State.operands_nil] at read
  cases read
  rfl

theorem exec_of_predicateResult {x : Instr} (h : predicateResult x = some r) : r.WrittenBy (exec x) := by
  unfold predicateResult at h
  split at h
  -- in the order of predicateResult: ICMP, PLOP, G2P, ANY, ALL, UNI
  case h_1 | h_2 | h_3 | h_4 | h_5 | h_6 | h_7 | h_8 => exact (writtenBy_icmp h :)
  case h_9 | h_10 | h_11 | h_12 | h_13 | h_14 | h_15 | h_16 => exact (writtenBy_plop h :)
  case h_17 => cases h; exact writtenBy_toPredicate {} _ fun _ v l => nth v 0 l != 0
  case h_18 => cases h; exact writtenBy_vote fun _ m => m != 0
  case h_19 => cases h; exact writtenBy_vote fun i m => m == i.active
  case h_20 =>
    cases h
    exact writtenBy_toPredicate groupOnly _ fun i v _ => (lanesOf i.active).all fun l => nth v 0 l == nth v 0 (lowestLane i.active)
  case h_21 => cases h

end Predicates

/-! ### MODEW and PSETW (R72, R111, R115) -/

section Words
variable {a b n : RegField} {g : GuardField} {s u : State} {i : Issue} {vals : List (Nat → Dword)}

/-- R72, R111: the MODE of the lowest active lane, and its seed unless B is gz. -/
theorem exec_modew_of_readable (issues : Issues {} g s i) (mode : i.regOk false .pair a = true) (seed : i.regOk false .word b = true)
    (read : s.awake.operands i [(.pair, a), (.word, b)] [] = .ok vals u) :
    exec (.modew a b g) s = .next (i.finished {}
      (let t := u.writeMode i (storedMode (nth vals 0 (lowestLane i.active)))
       if b = 60 then t else t.writeSeed i ((nth vals 1 (lowestLane i.active)).setWidth 32))) := by
  refine runUnit_done issues ?_
  simp only [mode, seed, read, Bool.not_true, Bool.or_self, Bool.false_eq_true, if_false]

theorem exec_psetw_of_readable (issues : Issues {} g s i) (word : i.predWordOk n = true) (src : i.regOk false .nat a = true)
    (read : s.awake.operands i [(.nat, a)] [] = .ok vals u) :
    exec (.psetw a n g) s = .next (i.finished {} ((lanesOf i.active).foldl (fun t l => t.writePredWord i n.toNat l (nth vals 0 l)) u)) := by
  refine runUnit_done issues ?_
  simp only [word, src, read, Bool.not_true, Bool.or_self, Bool.false_eq_true, if_false]

end Words

/-! ### Floating-point compares (R77, R113) -/

/-- What a lane of a compare answers: its predicate, and whether it is invalid. -/
def Fmt.compareIn (f : Fmt) (s : State) (i : Issue) (cond : Nat) (vals : List (Nat → Dword)) (l : Nat) : Bool × Bool :=
  f.compare (ftz (s.modeOf i)) cond (nth vals 0 l).toNat (nth vals 1 l).toNat

/-- A compare is a unit whose invalid events are counted or trap before its predicates are written. -/
theorem exec_of_floatCompare {x : Instr} {f : Fmt} {c : Cls} {cond : Nat} {p a b : RegField} {g : GuardField}
    (h : floatCompare x = some (f, c, cond, p, a, b, g)) :
    ∃ body, (∀ s, exec x s = runUnit {} g body s) ∧ ∀ (i : Issue) (s u : State) (vals : List (Nat → Dword)),
      i.kind = .group ∨ p.toNat < 16 → i.regOk false c a = true → i.regOk false c b = true →
      s.operands i [(c, a), (c, b)] [] = .ok vals u →
      body i s = s.withEvents u i ((lanesOf i.active).map fun l => (l, Ev.invalid (f.compareIn s i cond vals l).2)) fun t =>
        .done (t.writePreds i p.toNat fun l => (f.compareIn s i cond vals l).1) := by
  have unit (s : State) : exec x s = fpCompare f c cond p a b g s := by
    unfold floatCompare at h
    split at h <;> cases h <;> rfl
  refine ⟨_, unit, fun i s u vals dst left right read => ?_⟩
  rw [← Issue.predOk_iff] at dst
  simp only [dst, left, right, read, Bool.not_true, Bool.or_self, Bool.false_eq_true, if_false]
  rfl

/-- Settles O3: a unit reads its operands, counts or traps the invalid events of a compare, and writes its predicates or MODE. -/
theorem predicateResults : Obligations.PredicateResults := by
  unfold Obligations.PredicateResults
  refine ⟨⟨⟨?logic, fun a b n g s u i vals issues => ⟨?modew, ?psetw⟩⟩, ?quiet⟩, ?invalid⟩
  case logic =>
    intro x r s u i vals spec issues preds srcs read
    obtain ⟨body, asUnit, writes⟩ := exec_of_predicateResult spec
    rw [asUnit]
    refine runUnit_done issues (writes i s.awake u vals (fun p mem => ?_) srcs read)
    exact (i.predOk_iff p).mpr (preds.imp_right fun below => below p mem)
  case modew => exact exec_modew_of_readable issues
  case psetw => exact exec_psetw_of_readable issues
  case quiet =>
    intro x f c cond p a b g s u i vals spec issues dst left right read out quiet
    obtain ⟨body, asUnit, compares⟩ := exec_of_floatCompare spec
    rw [asUnit]
    exact runUnit_done issues ((compares i s.awake u vals dst left right read).trans (State.withEvents_of_quiet (s := s.awake) quiet _))
  case invalid =>
    intro x f c cond p a b g s u i vals spec issues dst left right read ev invalid
    obtain ⟨body, asUnit, compares⟩ := exec_of_floatCompare spec
    rw [asUnit]
    exact runUnit_trapsAt issues
      ((compares i s.awake u vals dst left right read).trans (State.withEvents_of_enabled (s := s.awake) invalid _))

end Sys2Proof.Machine
end

section
/-! PROOF. What an instruction with one result leaves as it is (O57). -/

namespace Sys2Proof.Machine

variable {i q : Issue} {s t u : State}

/-! ### The unit that issues -/

theorem sameOutside_awake : SameOutside i s s.awake := SameOutside.of_parts ⟨rfl, rfl, rfl, rfl, rfl, rfl, rfl, rfl⟩

/-- The unit of a group or lead that issues is resident on its core (R124). -/
theorem State.unit_of_issue {ref : StreamRef} {j : Issue} (h : s.issue ref = some j) (unit : j.kind ≠ .run) :
    ∃ r, s.unit j.core j.unit = some r := by
  unfold State.issue at h
  split at h
  case h_1 | h_2 =>
    obtain ⟨r, resident, h⟩ := Option.bind_eq_some_iff.mp h
    obtain ⟨x, -, h⟩ := Option.bind_eq_some_iff.mp h
    obtain ⟨place, -, h⟩ := Option.bind_eq_some_iff.mp h
    dsimp only at h
    split at h <;> cases h
    exact ⟨r, resident⟩
  case h_3 =>
    obtain ⟨r, -, h⟩ := Option.bind_eq_some_iff.mp h
    obtain ⟨x, -, h⟩ := Option.bind_eq_some_iff.mp h
    dsimp only at h
    split at h <;> cases h
    exact absurd rfl unit

theorem Issues.unit_resident {a : Attr} {g : GuardField} (h : Issues a g s i) (unit : i.kind ≠ .run) :
    ∃ r, s.unit i.core i.unit = some r := by
  obtain ⟨⟨j, reaches, rfl⟩, -⟩ := h
  obtain ⟨ref, -, issue⟩ := Option.bind_eq_some_iff.mp reaches.stream
  exact State.unit_of_issue (j := j) issue unit

/-- What its own issue does to a group leaves its place in the register file (R125). -/
theorem Issue.Touches.sameFile {r r' : Resident} (h : i.Touches r r') (group : i.kind = .group) :
    r'.info.seg = r.info.seg ∧ r'.info.base = r.info.base :=
  ⟨congrArg (·.info.seg) (h.group group), congrArg (·.info.base) (h.group group)⟩

/-! ### MODE, trap registers and predicates -/

/-- A lead's scalar part without its place, its loops and its registers, from the lead without them. -/
theorem scalar_rest_of_lead (o : Option Lead) :
    ((o.map (·.s)).getD (Scalar.start 0)).rest = (((o.map Lead.rest).map (·.s)).getD (Scalar.start 0)) := by
  cases o <;> rfl

theorem scalar_rest_of_run (o : Option Run) :
    ((o.map (·.s)).getD (Scalar.start 0)).rest = (((o.map Run.rest).map (·.s)).getD (Scalar.start 0)) := by
  cases o <;> rfl

theorem traps_of_lead (o : Option Lead) : (o.map (·.traps)).getD .zero = ((o.map Lead.rest).map (·.traps)).getD .zero := by
  cases o <;> rfl

/-- The issuing stream keeps its MODE, its trap registers and its predicates. -/
theorem SameOutside.sameControl (h : SameOutside i s t) (resident : i.kind ≠ .run → ∃ r, s.unit i.core i.unit = some r)
    (core : q.core = i.core) (unit : q.unit = i.unit) (kind : q.kind = i.kind) :
    t.modeOf q = s.modeOf q ∧ t.trapRegs q = s.trapRegs q ∧ ∀ l p, t.pred q l p = s.pred q l p := by
  cases code : i.kind with
  | group =>
    obtain ⟨r, before⟩ := resident (by simp [code])
    obtain ⟨r', after, touched⟩ := h.own r (by simp [code]) before
    have same := touched.group code
    have lanes : r'.lanes = r.lanes := congrArg (·.lanes) same
    simp only [State.modeOf, State.trapRegs, State.pred, kind, code, core, unit, before, after, Option.map_some, Option.getD_some,
      Resident.pred, lanes, implies_true, and_true]
    exact ⟨congrArg (·.ctl.mode) same, congrArg (·.ctl.traps) same⟩
  | lead =>
    obtain ⟨r, before⟩ := resident (by simp [code])
    obtain ⟨r', after, touched⟩ := h.own r (by simp [code]) before
    have same := (touched.lead code).2
    have scalar : (t.scalar q).rest = (s.scalar q).rest := by
      simp only [State.scalar, kind, code, core, unit, before, after, Option.bind_some, scalar_rest_of_lead, same]
    have preds : (t.scalar q).preds = (s.scalar q).preds := congrArg (·.preds) scalar
    simp only [State.modeOf, State.trapRegs, State.pred, kind, code, core, unit, before, after, preds, implies_true, and_true]
    exact ⟨congrArg (·.mode) scalar, by rw [traps_of_lead, same, ← traps_of_lead]⟩
  | run =>
    have scalar : (t.scalar q).rest = (s.scalar q).rest := by
      simp only [State.scalar, kind, code, core, unit, scalar_rest_of_run, h.run code]
    have preds : (t.scalar q).preds = (s.scalar q).preds := congrArg (·.preds) scalar
    simp only [State.modeOf, State.trapRegs, State.pred, kind, code, preds, implies_true, and_true]
    exact congrArg (·.mode) scalar

/-! ### Lane registers -/

theorem sameLanes_of_lrf {regs : List Nat} (h : (t.core i.core).lrf = (s.core i.core).lrf) : SameLanes i regs s t :=
  fun k l n _ => State.lane_of_lrf h k l n

theorem SameLanes.trans_lrf {regs : List Nat} (h : SameLanes i regs s t) (same : (u.core i.core).lrf = (t.core i.core).lrf) :
    SameLanes i regs s u :=
  fun k l n out => (State.lane_of_lrf same k l n).trans (h k l n out)

/-- Nothing but the group's own issue came before, and it wrote no lane register. -/
theorem SameLanes.after {regs : List Nat} (h : SameOutside i s t) (resident : i.kind ≠ .run → ∃ r, s.unit i.core i.unit = some r)
    (same : (t.core i.core).lrf = (s.core i.core).lrf) (k : SameLanes i regs t u) : SameLanes i regs s u := by
  intro x l n out
  refine (k x l n fun r' l' n' group after => ?_).trans (State.lane_of_lrf same x l n)
  have unit : i.kind ≠ .run := by simp [group]
  obtain ⟨r, before⟩ := resident unit
  obtain ⟨r'', own, touched⟩ := h.own r unit before
  obtain rfl : r'' = r' := Option.some.inj (own.symm.trans after)
  obtain ⟨seg, base⟩ := touched.sameFile group
  have key : r''.lrfKey l' n' = r.lrfKey l' n' := by unfold Resident.lrfKey; rw [seg, base]
  rw [key]
  exact out r l' n' group before

/-- A result changes no lane register but its destinations in the active lanes. -/
theorem sameLanes_delivered {c : Cls} {f : RegField} (v : Nat → Dword) (w : SMap.wf (s.core i.core).lrf = true)
    (ok : i.regOk true c f = true) : SameLanes i (fieldRegs c f) s (s.delivered i c f v) := by
  unfold State.delivered
  split
  case isTrue => exact sameLanes_of_lrf ((State.lrf_pushQueue _ _).trans State.lrf_clearSpin)
  case isFalse => exact sameLanes_writeLanes w (fun _ active => active) ok

theorem lane_delivered {c : Cls} {f : RegField} {v : Nat → Dword} {r k : Resident} (group : i.kind = .group)
    (unit : s.unit i.core i.unit = some r) (fits : k.fits) (same : r.info.seg = k.info.seg ∧ r.info.base = k.info.base)
    (w : SMap.wf (s.core i.core).lrf = true) (ok : i.regOk true c f = true) {l n : Nat} (hn : n < 56)
    (out : ¬ (i.active.getLsbD l = true ∧ n ∈ fieldRegs c f)) : (s.delivered i c f v).lane i.core k l n = s.lane i.core k l n := by
  unfold State.delivered
  split
  case isTrue => exact State.lane_of_lrf ((State.lrf_pushQueue _ _).trans State.lrf_clearSpin) k l n
  case isFalse => exact State.lane_writeLanes group unit fits same w ok hn out

/-! ### Registers of leads and runs -/

/-- A lead or run that is there takes the change; there is nothing to change otherwise. -/
theorem State.scalar_modScalar (s : State) (i : Issue) (f : Scalar → Scalar) :
    (s.modScalar i f).scalar i = s.scalar i ∨ (s.modScalar i f).scalar i = f (s.scalar i) := by
  unfold State.modScalar State.scalar
  cases code : i.kind with
  | group => exact .inl rfl
  | lead =>
    simp only [State.modLead, State.unit_modUnit, if_true]
    cases s.unit i.core i.unit with
    | none => exact .inl rfl
    | some r => cases lead : r.lead <;> simp [lead]
  | run =>
    simp only [State.run_modRun, if_true]
    cases s.run i.core i.unit with
    | none => exact .inl rfl
    | some r => exact .inr rfl

theorem State.regs_modScalar {f : Scalar → Scalar} (keeps : ∀ c, (f c).regs = c.regs) :
    ((s.modScalar i f).scalar i).regs = (s.scalar i).regs := by
  rcases s.scalar_modScalar i f with same | changed
  · rw [same]
  · rw [changed, keeps]

theorem State.scalar_modUnit {f : Resident → Resident} (keeps : ∀ r, (f r).lead = r.lead) :
    (s.modUnit i.core i.unit f).scalar i = s.scalar i := by
  unfold State.scalar
  split
  case h_1 => rfl
  case h_2 =>
    rw [State.unit_modUnit, if_pos rfl]
    cases s.unit i.core i.unit <;> simp [keeps]
  case h_3 => unfold State.run; rw [State.modUnit_core_handlers]

theorem State.scalar_popQueue (k : Nat) : (s.popQueue i k).2.scalar i = s.scalar i := by
  unfold State.popQueue
  split
  · split
    · exact State.scalar_modUnit fun _ => rfl
    · rfl
  · rfl

theorem State.scalar_pushQueue (k : Nat) (e : List Word) : (s.pushQueue i k e).scalar i = s.scalar i := by
  unfold State.pushQueue
  split
  · rfl
  · dsimp only
    split
    · rfl
    · exact State.scalar_modUnit fun _ => rfl

/-- What popping a queue and clearing the spin count keep, reading the operands keeps. -/
theorem State.operands_keeps {P : State → Prop} (pop : ∀ t k, P t → P (t.popQueue i k).2) (spin : ∀ t, P t → P (t.clearSpin i))
    {srcs : List (Cls × RegField)} {dsts : List RegField} {vals : List (Nat → Dword)} (h : P s)
    (read : s.operands i srcs dsts = .ok vals u) : P u := by
  unfold State.operands at read
  dsimp only at read
  split at read
  · cases read
  · split at read
    · cases read
    · injection read with _ state
      have spins {empty : Bool} {t : State} (kept : P t) : P (if empty = true then t else t.clearSpin i) := by
        split
        · exact kept
        · exact spin t kept
      rw [← state]
      refine spins (List.foldlRecOn (motive := fun acc : List (Nat → Dword) × State => P acc.2) srcs _ h fun acc kept x _ => ?_)
      split
      · exact pop _ _ kept
      · exact kept

theorem State.scalar_operands (scalar : i.kind ≠ .group) {srcs : List (Cls × RegField)} {dsts : List RegField}
    {vals : List (Nat → Dword)} (read : s.operands i srcs dsts = .ok vals u) : u.scalar i = s.scalar i :=
  State.operands_keeps (P := fun t => t.scalar i = s.scalar i) (fun _ k kept => (State.scalar_popQueue k).trans kept)
    (fun _ kept => by rw [State.clearSpin_of_not_group scalar]; exact kept) rfl read

theorem State.setFront_eq_modScalar (scalar : i.kind ≠ .group) (f : Front) :
    s.setFront i f = s.modScalar i fun c => { c with front := f } := by
  unfold State.setFront State.modScalar
  cases code : i.kind with
  | group => exact absurd code scalar
  | lead => rfl
  | run => rfl

theorem State.regs_setFront (scalar : i.kind ≠ .group) (f : Front) : ((s.setFront i f).scalar i).regs = (s.scalar i).regs := by
  rw [State.setFront_eq_modScalar scalar]
  exact State.regs_modScalar fun _ => rfl

theorem State.regs_setLoops (scalar : i.kind ≠ .group) (l : List LoopFrame) :
    ((s.setLoops i l).scalar i).regs = (s.scalar i).regs := by
  unfold State.setLoops
  split
  · contradiction
  · exact State.regs_modScalar fun _ => rfl

theorem State.regs_issued (scalar : i.kind ≠ .group) (n : Nat) : ((s.issued i n).scalar i).regs = (s.scalar i).regs := by
  unfold State.issued
  split
  · contradiction
  · exact State.regs_modScalar fun _ => rfl

theorem State.scalar_countMasked : (s.countMasked i).scalar i = s.scalar i := by
  unfold State.countMasked State.scalar
  cases code : i.kind with
  | run => simp [State.run_modRun, Function.comp_def]
  | group => rfl
  | lead => rfl

theorem State.regs_finished (scalar : i.kind ≠ .group) (a : Attr) : ((i.finished a s).scalar i).regs = (s.scalar i).regs := by
  unfold Issue.finished State.finish
  simp only [State.clearSpin_of_not_group scalar, ite_self]
  rw [State.regs_issued scalar]
  split
  · rw [State.regs_setFront scalar, State.scalar_countMasked]
  · rw [State.regs_setFront scalar, State.regs_setLoops scalar, State.scalar_countMasked]

/-- A write to a register of a lead or run changes no other, and keeps the canonical form. -/
theorem State.regs_writeReg (scalar : i.kind ≠ .group) (w : SMap.wf (s.scalar i).regs = true) (c : Cls) (f : RegField) (l : Nat)
    (v : Dword) : SMap.wf ((s.writeReg i c f l v).scalar i).regs = true ∧
      ∀ n, n ≠ f.toNat → SMap.word ((s.writeReg i c f l v).scalar i).regs n = SMap.word (s.scalar i).regs n := by
  unfold State.writeReg
  split
  · exact ⟨w, fun _ _ => rfl⟩
  · rw [if_neg (by simpa using scalar)]
    rcases s.scalar_modScalar i _ with same | written
    · rw [same]
      exact ⟨w, fun _ _ => rfl⟩
    · rw [written]
      exact ⟨SMap.wf_setWord w _ _, fun n other => by rw [SMap.word_setWord w, if_neg other]⟩

theorem sameRegs_writeLanes (c : Cls) (f : RegField) (m : LaneMask) (v : Nat → Dword) (w : SMap.wf (s.scalar i).regs = true) :
    SameRegs i f s (s.writeLanes i c f m v) := by
  intro scalar
  refine (List.foldlRecOn (lanesOf m) (fun t l => t.writeReg i c f l (v l)) (b := s)
    (motive := fun t => SMap.wf (t.scalar i).regs = true ∧
      ∀ n, n ≠ f.toNat → SMap.word (t.scalar i).regs n = SMap.word (s.scalar i).regs n)
    ⟨w, fun _ _ => rfl⟩ fun t kept l _ => ?_).2
  obtain ⟨wt, same⟩ := kept
  obtain ⟨wt', same'⟩ := State.regs_writeReg scalar wt c f l (v l)
  exact ⟨wt', fun n other => (same' n other).trans (same n other)⟩

theorem sameRegs_delivered (c : Cls) (f : RegField) (v : Nat → Dword) (w : SMap.wf (s.scalar i).regs = true) :
    SameRegs i f s (s.delivered i c f v) := by
  unfold State.delivered
  split
  case isTrue => exact fun scalar n _ => by rw [State.scalar_pushQueue, State.clearSpin_of_not_group scalar]
  case isFalse => exact sameRegs_writeLanes c f i.active v w

/-! ### The frame -/

/-- Settles O57: the operands leave all but queues and the spin count, the result all but its destinations, and the end of the unit all
but the stream's place and loops. -/
theorem computeFrame : Obligations.ComputeFrame := by
  unfold Obligations.ComputeFrame
  intro x r s u i vals spec issues legal ok read b
  have resident := issues.unit_resident
  have before : SameOutside i s u := sameOutside_awake.trans (sameOutside_operands ok.2 read)
  have unwritten : (u.core i.core).lrf = (s.core i.core).lrf := State.lrf_operands (s := s.awake) read
  have whole := before.trans ((sameOutside_delivered ok.1 (r.value s.awake i vals)).trans (sameOutside_finished r.attr))
  refine ⟨_, exec_of_pureResult_readable spec issues legal ok read b, whole, State.localByte_of_same whole, ?lanes, ?own, ?scalar,
    fun q => whole.sameControl resident⟩
  case lanes =>
    intro w
    rw [← unwritten] at w
    exact ((sameLanes_delivered _ w ok.1).after before resident unwritten).trans_lrf (State.lrf_finished _)
  case own =>
    intro k group unit fits w l n hn out
    obtain ⟨k', unit', touched⟩ := before.own k (by simp [group]) unit
    rw [← unwritten] at w
    rw [State.lane_of_lrf (State.lrf_finished _), lane_delivered group unit' fits (touched.sameFile group) w ok.1 hn out]
    exact State.lane_of_lrf unwritten k l n
  case scalar =>
    intro w scalar n other
    have same : u.scalar i = s.scalar i := State.scalar_operands (s := s.awake) scalar read
    rw [State.regs_finished scalar, sameRegs_delivered _ _ _ (by rw [same]; exact w) scalar n other, same]

end Sys2Proof.Machine
end

section
/-! PROOF. Branches, calls and jumps: where they send their lanes, and what they trap on (O6). -/

namespace Sys2Proof.Machine

/-! ### Lanes and their targets -/

theorem lanesOf_ne_nil {m : LaneMask} (h : m ≠ 0) : lanesOf m ≠ [] := by
  intro empty
  refine h (BitVec.eq_of_getLsbD_eq fun l small => ?_)
  have out := List.filter_eq_nil_iff.mp empty l (List.mem_range.mpr small)
  simpa using out

theorem byTarget_ne_nil (target : Nat → Word) {ls : List Nat} (h : ls ≠ []) : byTarget target ls ≠ [] := by
  cases ls with
  | nil => exact absurd rfl h
  | cons l r => simp only [byTarget]; split <;> exact List.cons_ne_nil _ _

/-! ### The division of a path (R129, R130, R144, R164, R395) -/

section Branch
variable {s u : State} {i : Issue} {taken : List (LaneMask × Word)}

theorem Issue.parts_of_group (group : i.kind = .group) : i.parts taken =
    taken ++ (if i.lanes &&& ~~~(taken.foldl (fun m t => m ||| t.1) 0) = 0 then []
      else [(i.lanes &&& ~~~(taken.foldl (fun m t => m ||| t.1) 0), i.next)]) := by
  simp only [Issue.parts, group, beq_self_eq_true, if_true]

theorem Issue.parts_of_not_group (scalar : i.kind ≠ .group) : i.parts taken = taken.take 1 := by
  simp [Issue.parts, scalar]

/-- A branch that may go its way takes its lanes to their targets. -/
theorem State.branch_of_mayBranch (may : MayBranch s i taken) (taking : taken ≠ []) :
    s.branch u i taken = .moved (u.goTo i (i.parts taken)) := by
  obtain ⟨undivided, segments⟩ := may
  by_cases group : i.kind = .group
  · have handler : (decide (1 < (i.parts taken).length) && i.handler) = false := by
      simpa using fun two => (undivided two).1
    have loop : (decide (1 < (i.parts taken).length) && !(s.loops i).isEmpty) = false := by
      simpa using fun two => (undivided two).2
    rw [Issue.parts_of_group group] at handler loop ⊢
    unfold Issue.next at handler loop ⊢
    simp only [State.branch, group, handler, loop, segments group, Bool.false_eq_true, if_false]
    generalize taken ++ _ = parts
    cases parts with
    | nil => rfl
    | cons x more => cases more <;> rfl
  · obtain ⟨x, more, rfl⟩ := List.exists_cons_of_ne_nil taking
    rw [Issue.parts_of_not_group group]
    unfold State.branch
    split
    · exact absurd ‹_› group
    · rfl

/-- What divides a path in a trap handler is ILLEGAL with TINFO 28. -/
theorem State.branch_of_handler (group : i.kind = .group) (two : 1 < (i.parts taken).length) (handler : i.handler = true) :
    s.branch u i taken = .trap ⟨Cause.illegal, 0, 0, 28⟩ s := by
  rw [Issue.parts_of_group group] at two
  unfold Issue.next at two
  simp only [State.branch, group, two, handler, decide_true, Bool.and_self, if_true]
  rfl

/-- What divides a path in a LOOP body is ILLEGAL with TINFO 5. -/
theorem State.branch_of_loop (group : i.kind = .group) (two : 1 < (i.parts taken).length) (handler : i.handler = false)
    (loop : s.loops i ≠ []) : s.branch u i taken = .trap ⟨Cause.illegal, 0, 0, 5⟩ s := by
  rw [Issue.parts_of_group group] at two
  unfold Issue.next at two
  simp only [State.branch, group, two, handler, decide_true, Bool.and_false, Bool.false_eq_true, if_false,
    List.isEmpty_eq_false_iff.mpr loop, Bool.not_false, Bool.and_self, if_true]
  rfl

/-- What divides bound segments traps LANYARD_DIVERGE with the lanes of those segments. -/
theorem State.branch_of_divided {j : Nat} {m : LaneMask} {more : List (Nat × LaneMask)} (group : i.kind = .group)
    (handler : i.handler = false) (loop : s.loops i = []) (divided : s.divided i (taken.map (·.1)) = (j, m) :: more) :
    s.branch u i taken =
      .trap ⟨Cause.lanyardDiverge, more.foldl (fun w x => w ||| x.2) m, 0, BitVec.ofNat 64 (16 * j)⟩ s := by
  have first : 0 ||| m = m := BitVec.zero_or
  simp only [State.branch, group, handler, loop, divided, Bool.and_false, Bool.false_eq_true, if_false, List.isEmpty_nil,
    Bool.not_true, lanyardTrap, List.foldl_cons, first, List.head?_cons, Option.map_some, Option.getD_some, Nat.zero_add]

end Branch

/-! ### Direct branches (R130, R138) -/

section Direct
variable {o : BitVec 18} {g : GuardField} {s : State} {i : Issue}

theorem exec_bra_of_mayBranch (issues : Issues branchAttr g s i) (may : MayBranch s.awake i [(i.active, i.target18 o)]) :
    exec (.bra o g) s = .next (s.awake.goTo i (i.parts [(i.active, i.target18 o)])) :=
  runUnit_moved issues (State.branch_of_mayBranch may (List.cons_ne_nil _ _))

theorem exec_call_of_mayBranch (issues : Issues branchAttr g s i) (may : MayBranch s.awake i [(i.active, i.target18 o)]) :
    exec (.call o g) s = .next ((s.awake.writeLanes i .word i.link i.active fun _ => i.next.setWidth 64).goTo i
      (i.parts [(i.active, i.target18 o)])) :=
  runUnit_moved issues (State.branch_of_mayBranch may (List.cons_ne_nil _ _))

/-- BRA and CALL take the trap of their division before they have any effect. -/
theorem exec_bra_call_of_trap {r : TrapRec} (issues : Issues branchAttr g s i)
    (trap : ∀ u, s.awake.branch u i [(i.active, i.target18 o)] = .trap r s.awake) :
    exec (.bra o g) s = .next (s.awake.takeTrap i r) ∧ exec (.call o g) s = .next (s.awake.takeTrap i r) :=
  ⟨runUnit_trapsAt issues (trap _), runUnit_trapsAt issues (trap _)⟩

theorem Issue.parts_length_of_guarded {target : Word} (group : i.kind = .group) (rest : i.lanes &&& ~~~i.active ≠ 0) :
    1 < (i.parts [(i.active, target)]).length := by
  have parts : i.parts [(i.active, target)] = [(i.active, target), (i.lanes &&& ~~~i.active, i.next)] := by
    rw [Issue.parts_of_group group, List.foldl_cons, List.foldl_nil, show 0 ||| i.active = i.active from BitVec.zero_or, if_neg rest]
    rfl
  rw [parts]
  exact Nat.one_lt_two

end Direct

/-! ### Indirect jumps (R123, R129, R139) -/

section Indirect
variable {a : RegField} {g : GuardField} {s u : State} {i : Issue} {vals : List (Nat → Dword)}

/-- The state in which an indirect jump goes its way: CALLR has written the offset of the next word (R139). -/
def State.linked (u : State) (i : Issue) (dst : Option RegField) : State :=
  match dst with
  | none => u
  | some d => u.delivered i .nat d fun _ => i.next.setWidth 64

/-- An indirect jump to aligned targets goes its way once it has written its link. -/
theorem jumpTo_of_mayBranch {dst : Option RegField} (issues : Issues branchAttr g s i) (src : i.regOk false .nat a = true)
    (ok : (dst.all fun d => i.regOk true .nat d) = true) (read : s.awake.operands i [(.nat, a)] dst.toList = .ok vals u)
    (b : ∀ d ∈ dst, u.broadcasts i d) (aligned : i.misaligned (targetIn vals) = 0)
    (may : MayBranch s.awake i (byTarget (targetIn vals) (lanesOf i.active))) :
    jumpTo dst a g s = .next ((u.linked i dst).goTo i (i.parts (byTarget (targetIn vals) (lanesOf i.active)))) := by
  refine runUnit_moved issues (.trans ?_ (State.branch_of_mayBranch may (byTarget_ne_nil _ (lanesOf_ne_nil issues.active))))
  simp only [Issue.misaligned, targetIn] at aligned
  simp only [src, ok, read, aligned, Bool.not_true, Bool.or_self, Bool.false_eq_true, if_false, ne_eq, not_true_eq_false]
  cases dst with
  | none => rfl
  | some d => simp only [State.result_of_broadcasts (b d rfl)]; rfl

/-- A jump to a misaligned target traps MISALIGN with the lanes whose target is misaligned (R139, R158). -/
theorem jumpTo_of_misaligned {dst : Option RegField} (issues : Issues branchAttr g s i) (src : i.regOk false .nat a = true)
    (ok : (dst.all fun d => i.regOk true .nat d) = true) (read : s.awake.operands i [(.nat, a)] dst.toList = .ok vals u)
    (bad : i.misaligned (targetIn vals) ≠ 0) :
    jumpTo dst a g s = .next (s.awake.takeTrap i ⟨Cause.misalign, if i.kind = .group then i.misaligned (targetIn vals) else 0,
      (targetIn vals (lowestLane (i.misaligned (targetIn vals)))).setWidth 64, 0⟩) := by
  refine runUnit_trapsAt issues ?_
  simp only [Issue.misaligned, targetIn] at bad
  simp only [src, ok, read, bad, Bool.not_true, Bool.or_self, Bool.false_eq_true, if_false, ne_eq, not_false_eq_true, if_true,
    Issue.misaligned, targetIn, beq_iff_eq]

end Indirect

/-- Settles O6: a branch goes its way unless it divides its path where it may not, and an indirect jump checks its targets first. -/
theorem branches : Obligations.Branches := by
  unfold Obligations.Branches
  refine ⟨fun o d a g s u i vals issues => ⟨?direct, ?indirect⟩, fun o d a g s u i vals issues => ⟨?misaligned, ?divides⟩⟩
  case direct => exact fun may => ⟨exec_bra_of_mayBranch issues may, exec_call_of_mayBranch issues may⟩
  case indirect =>
    intro src aligned may
    have jumps read := jumpTo_of_mayBranch (dst := none) (u := u) issues src rfl read (fun _ mem => by cases mem) aligned may
    exact ⟨fun read => ⟨jumps read, jumps read⟩, fun dst read b =>
      jumpTo_of_mayBranch (dst := some d) issues src dst read (fun _ mem => by cases mem; exact b) aligned may⟩
  case misaligned =>
    intro src bad
    have traps read := jumpTo_of_misaligned (dst := none) (u := u) issues src rfl read bad
    exact ⟨fun read => ⟨traps read, traps read⟩, fun dst read => jumpTo_of_misaligned (dst := some d) issues src dst read bad⟩
  case divides =>
    intro group rest
    have two := Issue.parts_length_of_guarded (target := i.target18 o) group rest
    exact ⟨fun handler => exec_bra_call_of_trap issues fun _ => State.branch_of_handler group two handler,
      fun handler loop => exec_bra_call_of_trap issues fun _ => State.branch_of_loop group two handler loop,
      fun j m more handler loop divided => exec_bra_call_of_trap issues fun _ => State.branch_of_divided group handler loop divided⟩

end Sys2Proof.Machine
end

section
/-! PROOF. The join stack, SPLIT, JOIN and BRK, and REFORM (O7). -/

namespace Sys2Proof.Machine

/-! ### The join stack (R131 to R133) -/

section Joins
variable {g : GuardField} {s : State} {i : Issue} {r : Resident}

theorem exec_split_of_room {o : BitVec 18} (issues : Issues pathAttr g s i) (unit : s.awake.unit i.core i.unit = some r)
    (room : r.ctl.joins.length < 16) : exec (.split o g) s = .next (i.finished pathAttr
      (s.awake.modCtl i.core i.unit fun k => { k with joins := ⟨i.target18 o, i.lanes, 0⟩ :: k.joins })) := by
  refine runUnit_done issues ?_
  simp only [unit, if_neg (Nat.not_le.mpr room)]

theorem exec_split_of_full {o : BitVec 18} (issues : Issues pathAttr g s i) (unit : s.awake.unit i.core i.unit = some r)
    (full : 16 ≤ r.ctl.joins.length) : exec (.split o g) s = .next (s.awake.takeTrap i ⟨Cause.illegal, 0, 0, 1⟩) := by
  refine runUnit_trapsAt issues ?_
  simp only [unit, if_pos full]
  rfl

/-- R132: JOIN parks its path at the innermost entry that includes it, where it stands at that entry's target. -/
theorem exec_join_of_region {j : Join} {k : Nat} (issues : Issues pathAttr g s i) (unit : s.awake.unit i.core i.unit = some r)
    (region : r.ctl.joins.zipIdx.find? (fun x => x.1.includes i.lanes) = some (j, k)) :
    exec (.join g) s = .next (if j.target = i.front.pc then s.awake.parkAt i k j
      else s.awake.takeTrap i ⟨Cause.illegal, 0, 0, 2⟩) := by
  split
  case isTrue here =>
    refine runUnit_moved issues ?_
    simp only [unit, region, if_pos here]
  case isFalse elsewhere =>
    refine runUnit_trapsAt issues ?_
    simp only [unit, region, if_neg elsewhere]
    rfl

theorem exec_join_of_no_region (issues : Issues pathAttr g s i) (unit : s.awake.unit i.core i.unit = some r)
    (outside : r.ctl.joins.zipIdx.find? (fun x => x.1.includes i.lanes) = none) :
    exec (.join g) s = .next (s.awake.takeTrap i ⟨Cause.illegal, 0, 0, 2⟩) := by
  refine runUnit_trapsAt issues ?_
  simp only [unit, outside]
  rfl

theorem exec_brk_of_too_few {n : BitVec 4} {o : BitVec 14} (issues : Issues pathAttr g s i)
    (unit : s.awake.unit i.core i.unit = some r) (few : discarded r.ctl.joins i.lanes (n.toNat + 1) = none) :
    exec (.brk n o g) s = .next (s.awake.takeTrap i ⟨Cause.illegal, 0, 0, 3⟩) := by
  refine runUnit_trapsAt issues ?_
  simp only [unit, few]
  rfl

/-- The live members of the discarded entries that the active lanes do not take along (R133). -/
def Resident.gathered (r : Resident) (i : Issue) (gone : List Join) : LaneMask :=
  (gone.foldl (fun m j => m ||| j.members) 0) &&& r.lanes.live &&& ~~~i.active

/-- The unit that BRK leaves: entries gone, loops left, the gathered lanes at the word after the outermost target (R133, R142). -/
def Resident.broken (r : Resident) (i : Issue) (target : Word) (kept : List Join) (outer : Join) (gathered : LaneMask) : Resident :=
  { r.unwait gathered with ctl := { r.ctl with
    joins := kept
    loops := afterBranch target r.ctl.loops
    paths := Path.start target i.active
      :: ((if gathered = 0 then [] else [Path.start (outer.target + 4) gathered]) ++ dropLanes gathered (dropAt i.path r.ctl.paths)) } }

/-- R133: BRK sends its active lanes to its target and gathers the other live members of what it discards. -/
theorem exec_brk_of_discarded {n : BitVec 4} {o : BitVec 14} {gone kept : List Join} {outer : Join} (issues : Issues pathAttr g s i)
    (unit : s.awake.unit i.core i.unit = some r) (found : discarded r.ctl.joins i.lanes (n.toNat + 1) = some (gone, kept, outer))
    (whole : i.active = i.lanes ∨ r.ctl.loops = []) (undivided : s.awake.divided i [i.active] = []) :
    exec (.brk n o g) s = .next ((s.awake.modUnit i.core i.unit fun k =>
      k.broken i (i.target14 o) kept outer (r.gathered i gone)).issued i i.front.hints.yields) := by
  have loops : (decide (i.active ≠ i.lanes) && !r.ctl.loops.isEmpty) = false := by
    rcases whole with same | idle
    · simp [same]
    · simp [idle]
  refine runUnit_moved issues ?_
  simp only [unit, found, loops, undivided, Bool.false_eq_true, if_false]
  rfl

/-- Issuing leaves the control state of a group as it is. -/
theorem State.ctl_issued (group : i.kind = .group) (s : State) (n : Nat) :
    ((s.issued i n).unit i.core i.unit).map (·.ctl) = (s.unit i.core i.unit).map (·.ctl) := by
  simp only [State.issued, group]
  rw [State.unit_modUnit, if_pos rfl, Option.map_map]
  rfl

/-- An instruction of group code that issues does so in group code. -/
theorem Issues.group {t : Attr} (issues : Issues t g s i) (lead : t.l = false) (run : t.h = false) : i.kind = .group := by
  have place := issues.place
  cases kind : i.kind with
  | group => rfl
  | lead => rw [kind, Attr.legalIn, lead] at place; cases place
  | run => rw [kind, Attr.legalIn, run] at place; cases place

end Joins

/-! ### REFORM (R145) -/

section Reform
variable {a n : RegField} {g : GuardField} {s u v : State} {i : Issue} {r : Resident} {vals : List (Nat → Dword)} {filed : LaneMask}
  {stay : List (Nat × Word)}

/-- REFORM's fields are legal, its launch reforms, and its unit has nothing that it must wait for first (R145, R158). -/
structure Reforms (s : State) (i : Issue) (r : Resident) (a n : RegField) : Prop where
  unit : s.unit i.core i.unit = some r
  count : n ≠ 0
  most : n.toNat ≤ 16
  regs : n.toNat ≤ i.regs
  src : i.regOk false .nat a = true
  launch : s.reforming i = true
  written : s.tokenPending i (List.range n.toNat) = false
  settled : s.unsettled i = false
  unbound : s.lanesBound i = false

/-- The paths and loops of a group after a REFORM that left lanes unfiled: the inactive lanes of the path go on where they stood, the
unfiled ones at their offsets (R145). -/
def Control.reformed (k : Control) (i : Issue) (stay : List (Nat × Word)) : Control :=
  let rest := i.lanes &&& ~~~i.active
  let stays := byTarget (fun l => ((stay.find? (·.1 == l)).map (·.2)).getD 0) (stay.map (·.1))
  { k with
    paths := k.paths.take i.path
      ++ (match k.paths[i.path]? with
        | some p => if rest = 0 then [] else [{ p with lanes := rest }]
        | none => [])
      ++ stays.map (fun x => Path.start x.2 x.1) ++ k.paths.drop (i.path + 1)
    loops := if rest = 0 && stays.isEmpty then [] else k.loops }

theorem exec_reform_of_reforms (issues : Issues reformAttr g s i) (ok : Reforms s.awake i r a n)
    (read : s.awake.operands i [(.nat, a)] [] = .ok vals u) (aligned : i.misaligned (i.reformTo a vals) = 0)
    (files : (u.finish i).fileLanes i r n.toNat (i.reformTo a vals) (lanesOf i.active) 0 [] = (filed, stay, v)) :
    exec (.reform a n g) s = .next ((v.modCtl i.core i.unit fun k => k.reformed i stay).endLanes i.core i.unit filed) := by
  obtain ⟨unit, count, most, regs, src, launch, written, settled, unbound⟩ := ok
  have fields : (decide (n = 0) || decide (16 < n.toNat) || !i.regOk false .nat a) = false := by
    rw [decide_eq_false count, decide_eq_false (Nat.not_lt.mpr most), src]; rfl
  have room : (decide (i.regs < n.toNat) || !s.awake.reforming i) = false := by
    rw [decide_eq_false (Nat.not_lt.mpr regs), launch]; rfl
  unfold Issue.reformTo targetIn at aligned files
  unfold Issue.misaligned at aligned
  refine runUnit_moved issues ?_
  simp only [unit, fields, room, written, read, unbound, aligned, settled, files, Bool.false_eq_true, if_false, ne_eq,
    not_true_eq_false]
  rfl

end Reform

/-- Settles O7: each of SPLIT, JOIN and BRK is decided by the entries of the join stack, and REFORM by what its bins take. -/
theorem divergence : Obligations.Divergence := by
  unfold Obligations.Divergence
  refine ⟨fun o n o' g s i r issues unit => ?stack, fun a n g s u v i r vals filed stay issues => ?reform⟩
  case stack =>
    refine ⟨exec_split_of_room issues unit, exec_split_of_full issues unit, fun j k => exec_join_of_region issues unit,
      exec_join_of_no_region issues unit, exec_brk_of_too_few issues unit, fun gone kept outer found whole undivided => ?_⟩
    have control := State.ctl_issued (issues.group rfl rfl) (s.awake.modUnit i.core i.unit fun k =>
      k.broken i (i.target14 o') kept outer (r.gathered i gone)) i.front.hints.yields
    rw [State.unit_modUnit, if_pos rfl, unit] at control
    obtain ⟨k, here, same⟩ := Option.map_eq_some_iff.mp control
    exact ⟨_, k, exec_brk_of_discarded issues unit found whole undivided, here, by rw [same]; exact ⟨rfl, rfl, rfl⟩⟩
  case reform =>
    intro settled unit count most regs src launch written read unbound aligned files
    exact exec_reform_of_reforms issues ⟨unit, count, most, regs, src, launch, written, settled, unbound⟩ read aligned files

end Sys2Proof.Machine
end

section
/-! PROOF. QMAP: the mapping of a queue, and its refusals (O8). -/

namespace Sys2Proof.Machine

section Mapping
variable {d a b : RegField} {g : GuardField} {s u : State} {i : Issue} {r : Resident} {vals : List (Nat → Dword)}

/-- QMAP names a queue and two registers that its stream has (R152). -/
structure Maps (i : Issue) (d a b : RegField) : Prop where
  queue : isQueue d = true
  endpoint : i.regOk false .nat a = true
  option : i.regOk false .nat b = true

/-- A hank maps no queue (R148, R157). -/
theorem exec_qmap_of_hank (issues : Issues groupLead g s i) (ok : Maps i d a b) (hank : i.hank = true) :
    exec (.qmap d a b g) s = .next (s.awake.takeTrap i ⟨Cause.queueMap, 0, 0, BitVec.ofNat 64 (queueIndex d)⟩) := by
  obtain ⟨queue, endpoint, option⟩ := ok
  refine runUnit_trapsAt issues ?_
  simp only [queue, endpoint, option, hank, Bool.not_true, Bool.or_self, Bool.false_eq_true, if_false, if_true]
  rfl

/-- QMAP reads its endpoint and its option in the lowest active lane. -/
theorem exec_qmap_of_free (issues : Issues groupLead g s i) (ok : Maps i d a b) (group : i.hank = false)
    (read : s.awake.operands i [(.nat, a), (.nat, b)] [] = .ok vals u) (unit : u.unit i.core i.unit = some r)
    (free : u.mapRefused i r (queueIndex d) ((nth vals 0 (lowestLane i.active)).toNat % 16)
      ((nth vals 1 (lowestLane i.active)).toNat % 4) = none) :
    exec (.qmap d a b g) s = .next (i.finished groupLead (u.mapQueue i (queueIndex d)
      ((nth vals 0 (lowestLane i.active)).toNat % 16) ((nth vals 1 (lowestLane i.active)).toNat % 4))) := by
  obtain ⟨queue, endpoint, option⟩ := ok
  refine runUnit_done issues ?_
  simp only [queue, endpoint, option, group, read, unit, free, Bool.not_true, Bool.or_self, Bool.false_eq_true, if_false]

theorem exec_qmap_of_refused {why : Nat} (issues : Issues groupLead g s i) (ok : Maps i d a b) (group : i.hank = false)
    (read : s.awake.operands i [(.nat, a), (.nat, b)] [] = .ok vals u) (unit : u.unit i.core i.unit = some r)
    (refused : u.mapRefused i r (queueIndex d) ((nth vals 0 (lowestLane i.active)).toNat % 16)
      ((nth vals 1 (lowestLane i.active)).toNat % 4) = some why) :
    exec (.qmap d a b g) s = .next (s.awake.takeTrap i ⟨Cause.queueMap, 0, 0, BitVec.ofNat 64 (queueIndex d + 4 * why)⟩) := by
  obtain ⟨queue, endpoint, option⟩ := ok
  refine runUnit_trapsAt issues ?_
  simp only [queue, endpoint, option, group, read, unit, refused, Bool.not_true, Bool.or_self, Bool.false_eq_true, if_false]
  rfl

end Mapping

/-- Settles O8: a hank traps, and another unit maps its queue or traps with the reason of `State.mapRefused`. -/
theorem queueMapping : Obligations.QueueMapping := by
  unfold Obligations.QueueMapping
  intro d a b g s u i r vals issues queue endpoint option
  have ok : Maps i d a b := ⟨queue, endpoint, option⟩
  exact ⟨exec_qmap_of_hank issues ok, fun group read unit =>
    ⟨exec_qmap_of_free issues ok group read unit, fun why => exec_qmap_of_refused issues ok group read unit⟩⟩

end Sys2Proof.Machine
end

section
/-! PROOF. The events of launches: placing, groups, retirement, rollback, and uncorrectable errors (O35). -/

namespace Sys2Proof.Machine

/-! ### Launches and their groups (R122 to R126, R373 to R375, R378, R384) -/

section Launches
variable {s : State} {ctx c u : Nat} {h : BitVec 32} {x : Context} {l : Launch} {r : Resident}

/-- The states of a launch's known predecessors (R373). -/
def Context.predStates (x : Context) (l : Launch) : List LaunchState := l.record.preds.filterMap fun p => (x.launch p).map (·.state)

/-- A queued or waiting launch, in a context that is not dead, is decided by its predecessors' states (R373). -/
structure AwaitsPlace (s : State) (ctx : Nat) (h : BitVec 32) (x : Context) (l : Launch) : Prop where
  context : s.context ctx = some x
  launch : s.launch ctx h = some l
  alive : x.state ≠ .dead
  waits : l.state = .queued ∨ l.state = .waiting

theorem exec_launchPlacing_of_awaits (a : AwaitsPlace s ctx h x l) : exec (.launchPlacing ctx h) s =
    .next (if (x.predStates l).contains .failed then s.modLaunch ctx h fun l => { l with state := .failed, reason := 1 }
      else if (x.predStates l).any (· != .retired) then s.modLaunch ctx h fun l => { l with state := .waiting }
      else if x.placed && x.issues && !(x.launches.any fun m => x.eligible m.2 && m.2.ahead l) then
        s.modLaunch ctx h fun l => { l with state := .placing, origin := s.chooseOrigin x l.record }
      else s) := by
  obtain ⟨context, launch, alive, waits⟩ := a
  have waits : (l.state != .queued && l.state != .waiting) = false := by
    rcases waits with waits | waits <;> rw [waits] <;> rfl
  change execLaunchPlacing ctx h s = _
  simp only [execLaunchPlacing, context, launch, waits, beq_iff_eq, alive, Bool.false_eq_true, if_false]
  rfl

theorem exec_launchPlacing_of_failed (a : AwaitsPlace s ctx h x l) (failed : LaunchState.failed ∈ x.predStates l) :
    exec (.launchPlacing ctx h) s = .next (s.modLaunch ctx h fun l => { l with state := .failed, reason := 1 }) := by
  rw [exec_launchPlacing_of_awaits a, if_pos (List.contains_iff_mem.mpr failed)]

theorem exec_launchPlacing_of_unretired (a : AwaitsPlace s ctx h x l) (failed : LaunchState.failed ∉ x.predStates l)
    (unretired : ∃ y ∈ x.predStates l, y ≠ LaunchState.retired) :
    exec (.launchPlacing ctx h) s = .next (s.modLaunch ctx h fun l => { l with state := .waiting }) := by
  have any : (x.predStates l).any (· != .retired) = true := by simpa using unretired
  rw [exec_launchPlacing_of_awaits a, if_neg (fun mem => failed (List.contains_iff_mem.mp mem)), if_pos any]

theorem exec_launchPlacing_of_turn (a : AwaitsPlace s ctx h x l) (retired : ∀ y ∈ x.predStates l, y = LaunchState.retired)
    (placed : x.placed = true) (issues : x.issues = true) (turn : ∀ m ∈ x.launches, x.eligible m.2 = true → m.2.ahead l = false) :
    exec (.launchPlacing ctx h) s =
      .next (s.modLaunch ctx h fun l => { l with state := .placing, origin := s.chooseOrigin x l.record }) := by
  have failed : ¬ (x.predStates l).contains .failed = true := fun mem =>
    absurd (retired _ (List.contains_iff_mem.mp mem)) (by decide)
  have all : ¬ (x.predStates l).any (· != .retired) = true := by simpa using retired
  have first : (x.placed && x.issues && !(x.launches.any fun m => x.eligible m.2 && m.2.ahead l)) = true := by
    simpa [placed, issues] using fun n m mem => turn (n, m) mem
  rw [exec_launchPlacing_of_awaits a, if_neg failed, if_neg all, if_pos first]

/-- R375, R383: the next pending group becomes resident on the core where it fits, after what preceded its LAUNCH. -/
theorem exec_groupPlacement_of_fit {d : Nat} {f : Fit} (context : s.context ctx = some x) (launch : s.launch ctx h = some l)
    (pending : l.pending = true) (issues : x.issues = true) (first : ∀ m ∈ x.launches, x.before m.2 l = false)
    (place : s.placeFor x l = some (d, f)) : exec (.groupPlacement ctx h) s =
      .next ((State.raiseClock (State.settle (s.modCore d fun k => { k with order := k.order + 1 }) d f.unit
        (Resident.group ctx l l.nextGroup ((s.core d).order + 1) f)) d l.clock).modLaunch ctx h fun l =>
          { l with state := .running, nextGroup := l.nextGroup + 1 }) := by
  have turn : (x.launches.any fun m => x.before m.2 l) = false := List.any_eq_false.mpr fun m mem => by simp [first m mem]
  change execGroupPlacement ctx h s = _
  simp only [execGroupPlacement, context, launch, pending, issues, turn, place, Bool.not_true, Bool.or_self, Bool.false_eq_true, if_false]
  rfl

/-- A unit of which nothing is left, of a launch that runs (R124). -/
structure UnitOver (s : State) (ctx : Nat) (h : BitVec 32) (x : Context) (c u : Nat) (r : Resident) : Prop where
  context : s.context ctx = some x
  unit : s.unit c u = some r
  ofContext : r.info.ctx = ctx
  ofLaunch : r.info.handle = h
  ended : s.unitDone c u r = true
  issues : x.issues = true
  runs : x.launchRuns h = true

theorem exec_groupRetirement_of_hank (o : UnitOver s ctx h x c u r) (hank : r.info.hank = true) :
    exec (.groupRetirement c u) s = .next (s.retireUnit c u) := by
  obtain ⟨context, unit, rfl, rfl, ended, issues, runs⟩ := o
  change execGroupRetirement c u s = _
  simp only [execGroupRetirement, unit, ended, context, issues, runs, hank, Option.map_some, Option.getD_some, Bool.not_true,
    Bool.or_self, Bool.false_eq_true, if_false, if_true]

/-- R124, R373: with the last group of its grid a running launch drains. -/
theorem exec_groupRetirement_of_group (o : UnitOver s ctx h x c u r) (hank : r.info.hank = false) :
    exec (.groupRetirement c u) s = .next ((s.retireUnit c u).modLaunch ctx h fun l =>
      if l.state = .running ∧ l.done + 1 = l.record.total then { l with done := l.done + 1, state := .draining }
      else { l with done := l.done + 1 }) := by
  obtain ⟨context, unit, rfl, rfl, ended, issues, runs⟩ := o
  change execGroupRetirement c u s = _
  simp only [execGroupRetirement, unit, ended, context, issues, runs, hank, Option.map_some, Option.getD_some, Bool.not_true,
    Bool.or_self, Bool.false_eq_true, if_false, Bool.and_eq_true, beq_iff_eq]

/-- A draining launch of which no strand is left (R373). -/
structure Drained (s : State) (ctx : Nat) (h : BitVec 32) (x : Context) (l : Launch) : Prop where
  context : s.context ctx = some x
  launch : s.launch ctx h = some l
  drains : l.state = .draining
  empty : s.strandsOf x h = false

theorem exec_launchRetirement_of_release (d : Drained s ctx h x l) (held : l.release ≠ []) :
    exec (.launchRetirement ctx h) s = .next (s.releaseFar ctx h) := by
  obtain ⟨context, launch, drains, empty⟩ := d
  change execLaunchRetirement ctx h s = _
  simp only [execLaunchRetirement, context, launch, drains, empty, List.isEmpty_eq_false_iff.mpr held, bne_self_eq_false, Bool.or_self,
    Bool.not_false, Bool.false_eq_true, if_false, if_true]

theorem exec_launchRetirement_of_released (d : Drained s ctx h x l) (released : l.release = [])
    (out : s.releasing ⟨ctx, h⟩ = false) : exec (.launchRetirement ctx h) s =
      .next ((s.unbind x h).modLaunch ctx h fun l => { l with state := .retired, log := [], clock := s.latest x }) := by
  obtain ⟨context, launch, drains, empty⟩ := d
  change execLaunchRetirement ctx h s = _
  simp only [execLaunchRetirement, context, launch, drains, empty, released, out, List.isEmpty_nil, bne_self_eq_false, Bool.or_self,
    Bool.not_true, Bool.false_eq_true, if_false]

/-- R379: with its streams at a boundary, a launch that replays takes the next steps of its rollback. -/
theorem exec_rollbackComplete_of_quiet (context : s.context ctx = some x) (launch : s.launch ctx h = some l)
    (replays : l.state = .replaying) (quiet : s.rollbackQuiet x h = true) :
    exec (.rollbackComplete ctx h) s = .next (s.rolledBack ctx h x l) := by
  change execRollbackComplete ctx h s = _
  simp only [execRollbackComplete, context, launch, replays, quiet, bne_self_eq_false, Bool.not_true, Bool.or_self, Bool.false_eq_true,
    if_false]
  unfold State.rolledBack
  by_cases restored : (((s.restored ctx h x l).launch ctx h).map (·.log.isEmpty)).getD true = false
  · rw [if_pos restored]
    exact if_pos (congrArg (!·) restored)
  · rw [if_neg restored]
    exact if_neg fun kept => restored ((Bool.not_eq_true' _).mp kept)

end Launches

/-! ### Uncorrectable errors (R379, R380, R429) -/

/-- What on the cores and at the stations has read a line of device memory. -/
structure LineReaders where
  pieces : List PoisonedPiece
  fills : List (Nat × Nat)
  fetches : List (Issue × Nat)
  walks : List Stalled
  treelets : Bool

def State.lineReaders (s : State) (line : Nat) : LineReaders :=
  let cores := s.cores.map (·.1)
  { pieces := cores.flatMap (s.piecesReading line)
    fills := cores.flatMap fun c => ((s.core c).fillsReading line).map fun f => (c, f)
    fetches := cores.flatMap (s.fetchesReading line)
    walks := s.stations.flatMap fun t => t.2.stalled.filter (s.walkReading line)
    treelets := cores.any fun c => (s.core c).treeletsReading line }

/-- Something has read the line. -/
def LineReaders.Any (r : LineReaders) : Prop :=
  r.pieces ≠ [] ∨ r.fills ≠ [] ∨ r.fetches ≠ [] ∨ r.walks ≠ [] ∨ r.treelets = true

/-- R429: the line is poisoned, and HECC.UE counts. -/
def State.poisonLine (s : State) (line : Nat) : State :=
  (s.modL2 fun l => { l with
    poisoned := if l.poisoned.contains line then l.poisoned else line :: l.poisoned }).modHost fun h => { h with ue := bumpCount h.ue }

/-- Fills, pieces, fetches and walks are told, in this order (R380). -/
def State.poisonReaders (s : State) (r : LineReaders) : State :=
  r.walks.foldl State.poisonWalk (r.fetches.foldl State.poisonFetch (r.pieces.foldl State.poisonPiece
    (r.fills.foldl (fun s f => s.poisonFill f.1 f.2) s)))

theorem exec_uncorrectableError_of_read {s : State} {pa : Nat} (read : (s.lineReaders (pa / 64)).Any)
    (cached : s.cached (pa / 64) = true → s.l2.poisoned.contains (pa / 64) = true)
    (fetched : s.cached (pa / 64) = false → s.lineFetches (pa / 64) = true) :
    exec (.uncorrectableError pa) s = .next ((s.poisonLine (pa / 64)).poisonReaders (s.lineReaders (pa / 64))) := by
  generalize e : s.lineReaders (pa / 64) = r at read ⊢
  have any : (r.pieces.isEmpty && r.fills.isEmpty && r.fetches.isEmpty && !r.treelets && r.walks.isEmpty) = false := by
    unfold LineReaders.Any at read
    simp only [← List.isEmpty_eq_false_iff] at read
    rcases read with h | h | h | h | h <;> simp [h]
  have onCopy : (s.cached (pa / 64) && !s.l2.poisoned.contains (pa / 64)) = false := by
    cases h : s.cached (pa / 64)
    · rfl
    · rw [cached h]; rfl
  have onRead : (!s.cached (pa / 64) && !s.lineFetches (pa / 64)) = false := by
    cases h : s.cached (pa / 64)
    · rw [fetched h]; rfl
    · rfl
  subst e
  refine if_neg ?_
  rw [Bool.not_eq_true, Bool.or_eq_false_iff, Bool.or_eq_false_iff]
  exact ⟨⟨any, onCopy⟩, onRead⟩

/-- Settles O35: each event of a launch does what its launch's state calls for, and an uncorrectable error tells what has read its
line. -/
theorem launchEvents : Obligations.LaunchEvents := by
  unfold Obligations.LaunchEvents
  refine ⟨fun s ctx c u d h x l r f context launch => ⟨?placing, ?placement, ?retirement, ?drain, ?rollback⟩,
    fun s pa => exec_uncorrectableError_of_read⟩
  case placing =>
    intro alive waits
    have awaits : AwaitsPlace s ctx h x l := ⟨context, launch, alive, waits⟩
    exact ⟨exec_launchPlacing_of_failed awaits, exec_launchPlacing_of_unretired awaits, exec_launchPlacing_of_turn awaits⟩
  case placement => exact exec_groupPlacement_of_fit context launch
  case retirement =>
    intro unit ofContext ofLaunch ended issues runs
    have finished : UnitOver s ctx h x c u r := ⟨context, unit, ofContext, ofLaunch, ended, issues, runs⟩
    exact ⟨exec_groupRetirement_of_hank finished, exec_groupRetirement_of_group finished⟩
  case drain =>
    intro drains empty
    have drained : Drained s ctx h x l := ⟨context, launch, drains, empty⟩
    exact ⟨exec_launchRetirement_of_release drained, exec_launchRetirement_of_released drained⟩
  case rollback => exact exec_rollbackComplete_of_quiet context launch

end Sys2Proof.Machine
end

section
/-! PROOF. The events of a core: bins, hanks, hit records, aging, budgets and dispatch leads (O36). -/

namespace Sys2Proof.Machine

/-! ### Bins and hanks (R146, R147) -/

section Bins
variable {s : State} {c u b base ctx : Nat} {x : Bin} {y : Context} {l : Launch}

theorem exec_binAgeExpiry_of_old (bin : SMap.find (s.core c).bins b = some x) (fills : x.drawn = false)
    (old : x.born + 2048 ≤ (s.core c).cycle) : exec (.binAgeExpiry c b) s =
      .next (s.modCore c fun k => { k with bins := SMap.put k.bins b { x with drawn := true } }) := by
  change execBinAgeExpiry c b s = _
  simp only [execBinAgeExpiry, bin, fills, old, decide_true, Bool.not_false, Bool.and_self, if_true]
  rfl

/-- The strands of a bin in the lanes of its hank, each in the registers that the launch has (R147). -/
def State.loadStrands (s : State) (c : Nat) (x : Bin) (l : Launch) (r : Resident) : State :=
  x.strands.zipIdx.foldl (fun t z => z.1.regs.zipIdx.foldl (fun t v =>
    if v.2 < l.record.regs then t.setLane c r z.2 v.2 v.1 else t) t) s

/-- R126, R147: a drawn bin becomes a hank where a unit and its registers are free. -/
theorem exec_hankPlacement_of_free (bin : SMap.find (s.core c).bins b = some x) (drawn : x.drawn = true)
    (holds : s.holder c = some (ctx, y)) (launch : y.launch x.launch = some l) (unit : (s.core c).freeUnit = some u)
    (regs : (s.core c).baseFor 0 8 l.record.regs = some base) (issues : y.issues = true) (runs : y.launchRuns x.launch = true) :
    exec (.hankPlacement c b) s = .next ((State.settle (s.modCore c fun k => { k with bins := SMap.drop k.bins b }) c u
      (Resident.hankOf ctx l x base)).loadStrands c x l (Resident.hankOf ctx l x base)) := by
  change execHankPlacement c b s = _
  simp only [execHankPlacement, bin, drawn, holds, launch, unit, regs, issues, runs, Bool.not_true, Bool.or_self, Bool.false_eq_true,
    if_false]
  rfl

end Bins

/-! ### Hit records (R149, R343) -/

section Hits
variable {s : State} {c ctx : Nat} {y : Context} {bytes : List Byte} {more : List (List Byte)}

theorem exec_hitArrival_of_room {src : Nat} {run : Option Nat} {rest : List InMsg}
    (oldest : (s.core c).inbox .hit = ⟨src, .hit bytes, run⟩ :: rest) (room : (s.core c).hitQueue.length < 256) :
    exec (.hitArrival c) s = .next ((s.take c .hit 0).modCore c fun k => { k with hitQueue := k.hitQueue ++ [bytes] }) := by
  change execHitArrival c s = _
  simp only [execHitArrival, oldest, if_neg (Nat.not_le.mpr room)]

/-- The record at the head of a core's hit queue, in a context that issues. -/
structure HitAtHead (s : State) (c ctx : Nat) (y : Context) (bytes : List Byte) (more : List (List Byte)) : Prop where
  head : (s.core c).hitQueue = bytes :: more
  holds : s.holder c = some (ctx, y)
  issues : y.issues = true

theorem exec_hitRecordFiling_of_removed {code : Nat} (hit : HitAtHead s c ctx y bytes more)
    (fate : y.hitFate ((s.core c).ray.rcfg2.setWidth 32) bytes = .removed code) : exec (.hitRecordFiling c) s =
      .next ((s.modCore c fun k => { k with hitQueue := more }).faultReport ctx c
        [BitVec.ofNat 64 (code + 65536), BitVec.ofNat 64 (recField bytes 0 8)]) := by
  change execHitRecordFiling c s = _
  simp only [execHitRecordFiling, hit.head, hit.holds, hit.issues, fate, Bool.not_true, Bool.false_eq_true, if_false]

theorem exec_hitRecordFiling_of_files {h : BitVec 32} {entry : Word} {t : State} (hit : HitAtHead s c ctx y bytes more)
    (fate : y.hitFate ((s.core c).ray.rcfg2.setWidth 32) bytes = .files h entry)
    (filed : s.fileStrand c h entry (hitStrand bytes) = some t) :
    exec (.hitRecordFiling c) s = .next (t.modCore c fun k => { k with hitQueue := more }) := by
  change execHitRecordFiling c s = _
  simp only [execHitRecordFiling, hit.head, hit.holds, hit.issues, fate, filed, Bool.not_true, Bool.false_eq_true, if_false]

end Hits

/-! ### Aging, budgets and dispatch leads (R368, R376, R400) -/

section Leads
variable {s : State} {c u : Nat} {r : Resident} {e : Lead}

theorem exec_priorityAging_of_ready (unit : s.unit c u = some r) (ready : 4096 ≤ r.info.ready) :
    exec (.priorityAging c u) s = .next (s.modUnit c u fun r => { r with info := { r.info with aged := true } }) := by
  change execPriorityAging c u s = _
  simp only [execPriorityAging, unit, if_pos ready]

theorem Lead.spent_iff (e : Lead) : e.spent = true ↔ e.budget ≠ 0 ∧ 2 ^ (e.budget + 8) ≤ e.readyFor := by
  simp [Lead.spent]

theorem exec_budgetLead_of_spent (unit : s.unit c u = some r) (lead : r.lead = some e) (budget : e.budget ≠ 0)
    (used : 2 ^ (e.budget + 8) ≤ e.readyFor) : exec (.budgetLead c u) s = .next (s.modLead c u fun l => { l with due := true }) := by
  change execBudgetLead c u s = _
  simp only [execBudgetLead, unit, lead, Option.bind_some, if_pos ((Lead.spent_iff e).mpr ⟨budget, used⟩)]

/-- The first element that passes a test gives the first answer of a function that answers where the test passes. -/
theorem findSome?_of_find? {α β : Type} {p : α → Bool} {f : α → Option β} {ls : List α} {x : α} {y : β}
    (off : ∀ a, p a = false → f a = none) (on : f x = some y) (first : ls.find? p = some x) : ls.findSome? f = some y := by
  obtain ⟨-, before, after, rfl, out⟩ := List.find?_eq_some_iff_append.mp first
  exact List.findSome?_eq_some_iff.mpr ⟨before, x, after, rfl, on, fun a mem => off a (by simpa using out a mem)⟩

/-- The lead of a unit that DISPATCH_FETCH_RESUME polls, when it may take its turn (R368). -/
def State.resumed (s : State) (c u : Nat) : Option StreamRef :=
  match s.issue (.lead c u) with
  | some i => if s.isDispatchLead i && !i.handler && s.ringHolds i then some (.lead c u) else none
  | none => none

theorem State.resumed_eq (s : State) (c u : Nat) : s.resumed c u = if s.resumes c u then some (.lead c u) else none := by
  unfold State.resumed State.resumes
  cases s.issue (.lead c u) <;> rfl

/-- R368: the first unit of a dispatch core whose lead may take its turn at the ring is polled. -/
theorem exec_dispatchFetchResume_of_resumes {die : Nat}
    (first : (s.core (dispatchCore die)).units.find? (fun z => s.resumes (dispatchCore die) z.1) = some (u, r)) :
    exec (.dispatchFetchResume die) s = .next { s with agenda := .poll (.lead (dispatchCore die) u) :: s.agenda } := by
  have resumes : s.resumes (dispatchCore die) u = true := by simpa using List.find?_some first
  have polled : ((s.core (dispatchCore die)).units.findSome? fun z => s.resumed (dispatchCore die) z.1) =
      some (.lead (dispatchCore die) u) :=
    findSome?_of_find? (fun z off => by rw [State.resumed_eq, off]; rfl) (by rw [State.resumed_eq, resumes]; rfl) first
  change execDispatchFetchResume die s = _
  unfold execDispatchFetchResume
  dsimp only
  generalize next : List.findSome? _ _ = ref
  obtain rfl : ref = some (.lead (dispatchCore die) u) := next.symm.trans polled
  rfl

end Leads

/-- Settles O36: every clause is the lemma of its event. -/
theorem coreEvents : Obligations.CoreEvents := by
  unfold Obligations.CoreEvents
  intro s c u b base ctx x y l r e bytes more
  refine ⟨fun bin => ⟨exec_binAgeExpiry_of_old bin, exec_hankPlacement_of_free bin⟩, fun src run rest => exec_hitArrival_of_room,
    fun head holds issues => ?hits, exec_priorityAging_of_ready, exec_budgetLead_of_spent, fun die => exec_dispatchFetchResume_of_resumes⟩
  case hits =>
    have hit : HitAtHead s c ctx y bytes more := ⟨head, holds, issues⟩
    exact ⟨fun code => exec_hitRecordFiling_of_removed hit, fun h entry t => exec_hitRecordFiling_of_files hit⟩

end Sys2Proof.Machine
end

section
/-! PROOF. The events of the mesh and of neighbour links (O45). -/

namespace Sys2Proof.Machine

/-! ### Packets and acknowledgements (R410 to R413) -/

section Packets
variable {s : State} {src dst seq j : Nat} {cls : MsgClass} {p : Packet} {rest : List Packet}

/-- A packet among the four of its flow that the mesh carries, whose way is up (R411, R412, R416). -/
structure Arrives (s : State) (src dst : Nat) (cls : MsgClass) (seq j : Nat) (p : Packet) : Prop where
  place : (s.flow src dst cls).packets.findIdx? (·.seq == seq) = some j
  packet : (s.flow src dst cls).packets[j]? = some p
  carried : j < 4
  route : s.routeUp (dieOf src) (dieOf dst) = true

theorem Arrives.due (a : Arrives s src dst cls seq j p) (comes : p.state = .flying ∨ p.state = .early) :
    (decide (4 ≤ j) || !(p.state == .flying || p.state == .early) || !s.routeUp (dieOf src) (dieOf dst)) = false := by
  rcases comes with state | state <;> rw [decide_eq_false (Nat.not_le.mpr a.carried), state, a.route] <;> rfl

/-- R412: the next expected packet of a flow enters its inbox, and those that waited for it follow. -/
theorem exec_packetArrival_of_expected (a : Arrives s src dst cls seq j p) (comes : p.state = .flying ∨ p.state = .early)
    (next : seq = (s.flow src dst cls).expected) (enters : s.enters dst cls p.msg = true) :
    exec (.packetArrival src dst cls seq) s = .next ((s.setFlow src dst cls { s.flow src dst cls with
      packets := setAt j (fun p => { p with state := .early }) (s.flow src dst cls).packets }).placeInOrder src dst cls j 4) := by
  change execPacketArrival src dst cls seq s = _
  simp only [execPacketArrival, a.place, a.packet, a.due comes, Bool.false_eq_true, if_false, if_pos next, enters, if_true]

/-- R412: a later packet waits in the reorder store, or is refused when that holds eight. -/
theorem exec_packetArrival_of_later (a : Arrives s src dst cls seq j p) (comes : p.state = .flying)
    (later : seq ≠ (s.flow src dst cls).expected) : exec (.packetArrival src dst cls seq) s =
      .next (s.setFlow src dst cls { s.flow src dst cls with packets := setAt j (fun p =>
        { p with state := if s.reordered dst cls < 8 then .early else .refused }) (s.flow src dst cls).packets }) := by
  change execPacketArrival src dst cls seq s = _
  simp only [execPacketArrival, a.place, a.packet, a.due (.inl comes), Bool.false_eq_true, if_false, if_neg later]
  exact if_neg (by rw [comes]; decide)

theorem exec_packetRefusal_of_refused (oldest : (s.flow src dst cls).packets = p :: rest) (refused : p.state = .refused) :
    exec (.packetRefusal src dst cls) s =
      .next (s.setFlow src dst cls { s.flow src dst cls with packets := { p with state := .flying } :: rest }) := by
  change execPacketRefusal src dst cls s = _
  simp only [execPacketRefusal, oldest, refused, beq_self_eq_true, if_true]

theorem exec_flowAcknowledgement_of_delivered (oldest : (s.flow src dst cls).packets = p :: rest) (delivered : p.state = .delivered) :
    exec (.flowAcknowledgement src dst cls) s = .next (s.setFlow src dst cls { s.flow src dst cls with packets := rest }) := by
  change execFlowAcknowledgement src dst cls s = _
  simp only [execFlowAcknowledgement, oldest, delivered, beq_self_eq_true, if_true]

/-- R413: a packet 512 cycles old has slack 0. -/
theorem exec_slackPromotion_of_old (old : ((s.flow src dst cls).packets.any fun p =>
      p.seq == seq && p.slack != 0 && decide (p.born + 512 ≤ (s.core src).cycle)) = true) :
    exec (.slackPromotion src dst cls seq) s = .next (s.setFlow src dst cls { s.flow src dst cls with
      packets := (s.flow src dst cls).packets.map fun p => if p.seq = seq then { p with slack := 0 } else p }) := by
  change execSlackPromotion src dst cls seq s = _
  simp only [execSlackPromotion, old, if_true]

end Packets

/-! ### Neighbour links (R154, R155) -/

section Wires
variable {s : State} {c u q d v k : Nat} {r w : Resident} {x y : QueueReg} {e : List Word} {more : List (List Word)}

/-- The oldest entry of an outbound neighbour queue (R151). -/
structure Outbound (s : State) (c u q : Nat) (r : Resident) (x : QueueReg) (e : List Word) (more : List (List Word)) : Prop where
  unit : s.unit c u = some r
  queue : r.queues[q]? = some x
  oldest : x.entries = e :: more
  neighbour : 4 ≤ x.ep
  outbound : x.ep % 2 = 0

theorem Outbound.not_inbound (o : Outbound s c u q r x e more) : (decide (x.ep < 4) || decide (x.ep % 2 = 1)) = false := by
  rw [decide_eq_false (Nat.not_lt.mpr o.neighbour), o.outbound]; rfl

/-- R154: an entry whose receiver has ended is discarded. -/
theorem exec_nnLinkDelivery_of_ended (o : Outbound s c u q r x e more) (ended : s.readerEnded c r x = true) :
    exec (.nnLinkDelivery c u q) s = .next (s.modQueueReg c u q fun x => { x with entries := more }) := by
  change execNnLinkDelivery c u q s = _
  simp only [execNnLinkDelivery, o.unit, o.queue, o.oldest, o.not_inbound, ended, Bool.false_eq_true, if_false, if_true]

/-- R155: an entry crosses its wire to a peer that has room for it. -/
theorem exec_nnLinkDelivery_of_room (o : Outbound s c u q r x e more) (reads : s.readerEnded c r x = false)
    (wire : s.wireUp c x.ep = true) (peer : s.peer c x = some (d, v, k)) (unit : s.unit d v = some w) (queue : w.queues[k]? = some y)
    (room : y.entries.length + y.kept < 8) : exec (.nnLinkDelivery c u q) s =
      .next (((s.modQueueReg c u q fun x => { x with entries := more }).modQueueReg d v k fun y =>
        { y with entries := y.entries ++ [e] }).follow d c) := by
  change execNnLinkDelivery c u q s = _
  simp only [execNnLinkDelivery, o.unit, o.queue, o.oldest, o.not_inbound, reads, wire, peer, unit, queue, Option.bind_some,
    if_neg (Nat.not_le.mpr room), Bool.not_true, Bool.false_eq_true, if_false]

end Wires

/-- Settles O45: every clause is the lemma of its event. -/
theorem packetEvents : Obligations.PacketEvents := by
  unfold Obligations.PacketEvents
  intro s src dst seq j c u q d v k cls p rest r w x y e more
  refine ⟨⟨fun place packet carried route => ?arrival, fun oldest => ?oldest, exec_slackPromotion_of_old⟩,
    fun unit queue oldest neighbour outbound => ?wire⟩
  case arrival =>
    have arrives : Arrives s src dst cls seq j p := ⟨place, packet, carried, route⟩
    exact ⟨exec_packetArrival_of_expected arrives, exec_packetArrival_of_later arrives⟩
  case oldest => exact ⟨exec_packetRefusal_of_refused oldest, exec_flowAcknowledgement_of_delivered oldest⟩
  case wire =>
    have o : Outbound s c u q r x e more := ⟨unit, queue, oldest, neighbour, outbound⟩
    exact ⟨exec_nnLinkDelivery_of_ended o, exec_nnLinkDelivery_of_room o⟩

end Sys2Proof.Machine
end

section
/-! PROOF. Exact operations of the lanyard, and what a unit on segments traps on (O10). -/

namespace Sys2Proof.Machine

/-! ### The segments of a unit (R163 to R167) -/

section Segments
variable {s : State} {i : Issue} {l : Lanyard} {y : Segment × Nat} {more : List (Segment × Nat)}

/-- A lanyard trap of a list of segments names their lanes and the index of the first (R165). -/
theorem lanyardTrap_of_segments (cause reason k : Nat) (y : Segment × Nat) (more : List (Segment × Nat)) (s : State) :
    lanyardTrap cause reason ((y :: more).map fun x => (x.2, segLanes k x.2)) s =
      .trap ⟨cause, (y :: more).foldl (fun m x => m ||| segLanes k x.2) 0, 0, BitVec.ofNat 64 (reason + 16 * y.2)⟩ s := by
  unfold lanyardTrap
  rw [List.foldl_map]
  rfl

theorem OnLanyard.no_faulted (on : OnLanyard s i l) : ((l.touched i.active).filter fun x => x.1.faulted) = [] := by
  simpa using on.sound

theorem OnLanyard.no_partial (on : OnLanyard s i l) :
    ((l.touched i.active).filter fun x => (segLanes l.k x.2 &&& s.live i &&& ~~~i.active) != 0) = [] := by
  simpa using on.whole

theorem State.onSegments_of_onLanyard (on : OnLanyard s i l) (k : Lanyard → List (Segment × Nat) → Eff) :
    s.onSegments i k = k l (l.touched i.active) := by
  simp only [State.onSegments, on.bound, on.no_faulted, on.no_partial, List.map_nil]

theorem State.onSegments_of_unbound (unbound : s.lanyardOf i = none) (k : Lanyard → List (Segment × Nat) → Eff) :
    s.onSegments i k = .trap ⟨Cause.lanyardState, i.active, 0, 4⟩ s := by
  simp only [State.onSegments, unbound]
  rfl

theorem State.onSegments_of_faulted (bound : s.lanyardOf i = some l)
    (faulted : ((l.touched i.active).filter fun x => x.1.faulted) = y :: more) (k : Lanyard → List (Segment × Nat) → Eff) :
    s.onSegments i k = .trap ⟨Cause.lanyardState, (y :: more).foldl (fun m x => m ||| segLanes l.k x.2) 0, 0,
      BitVec.ofNat 64 (5 + 16 * y.2)⟩ s := by
  rw [← lanyardTrap_of_segments]
  simp only [State.onSegments, bound, faulted, List.map_cons]

theorem State.onSegments_of_partial (bound : s.lanyardOf i = some l) (sound : ∀ x ∈ l.touched i.active, x.1.faulted = false)
    (part : ((l.touched i.active).filter fun x => (segLanes l.k x.2 &&& s.live i &&& ~~~i.active) != 0) = y :: more)
    (k : Lanyard → List (Segment × Nat) → Eff) :
    s.onSegments i k = .trap ⟨Cause.lanyardDiverge, (y :: more).foldl (fun m x => m ||| segLanes l.k x.2) 0, 0,
      BitVec.ofNat 64 (1 + 16 * y.2)⟩ s := by
  have none_faulted : ((l.touched i.active).filter fun x => x.1.faulted) = [] := by simpa using sound
  rw [← lanyardTrap_of_segments]
  simp only [State.onSegments, bound, none_faulted, part, List.map_nil, List.map_cons]

end Segments

/-! ### Integers that do not fit (R76, R77, R161) -/

/-- The events of segments of which some overflow. -/
theorem Ev.sum_overflows {α : Type} (segs : List α) (n : α → Nat) :
    Ev.sum (segs.map fun x => { lo := n x }) = { lo := (segs.map n).sum } := by
  suffices from_any : ∀ a, (segs.map fun x => ({ lo := n x } : Ev)).foldl Ev.add { lo := a } = { lo := a + (segs.map n).sum } by
    simpa [Ev.sum] using from_any 0
  induction segs with
  | nil => exact fun a => rfl
  | cons x r ih =>
    intro a
    rw [List.map_cons, List.foldl_cons, List.map_cons, List.sum_cons, ← Nat.add_assoc]
    exact ih (a + n x)

theorem Ev.enabled_overflow (b : Bool) (m : Dword) : ({ lo := b.toNat } : Ev).enabled m = (m.getLsbD 34 && b) := by
  cases b <;> simp [Ev.enabled]

theorem Ev.info_overflow {n : Nat} (counted : n ≠ 0) : ({ lo := n } : Ev).info = 64 := by
  cases n with
  | zero => exact absurd rfl counted
  | succ k => rfl

section Writes
variable {s : State} {i : Issue} {l : Lanyard} {d : RegField} {f : Segment × Nat → Int × BitVec 5}

theorem State.writeSegments_of_quiet
    (quiet : (s.modeOf i).getLsbD 34 = false ∨ ∀ y ∈ l.touched i.active, segOverflows l.k (f y).1 = false) :
    s.writeSegments i l d ((l.touched i.active).map fun x => (x.2, f x)) = .done (s.segmentsSet i l d f) := by
  have no_hit : ((l.touched i.active).filter fun x => (s.modeOf i).getLsbD 34 && segOverflows l.k (f x).1) = [] := by
    refine List.filter_eq_nil_iff.mpr fun y touched hit => ?_
    obtain ⟨on, overflows⟩ := Bool.and_eq_true_iff.mp hit
    rcases quiet with off | fits
    · exact Bool.false_ne_true (off.symm.trans on)
    · exact Bool.false_ne_true ((fits y touched).symm.trans overflows)
  simp only [State.writeSegments, List.map_map, List.filter_map, Function.comp_def, Ev.enabled_overflow, no_hit, List.foldl_map]
  rfl

theorem State.writeSegments_of_enabled (enabled : (s.modeOf i).getLsbD 34 = true)
    (overflow : ∃ y ∈ l.touched i.active, segOverflows l.k (f y).1 = true) :
    s.writeSegments i l d ((l.touched i.active).map fun x => (x.2, f x)) = .trap ⟨Cause.fpTrap,
      ((l.touched i.active).filter fun y => segOverflows l.k (f y).1).foldl (fun w y => w ||| segLanes l.k y.2) 0, 0, 64⟩ s := by
  obtain ⟨y, touched, overflows⟩ := overflow
  have hit : ((l.touched i.active).filter fun y => segOverflows l.k (f y).1) ≠ [] :=
    List.ne_nil_of_mem (List.mem_filter.mpr ⟨touched, overflows⟩)
  have counted : ((l.touched i.active).map fun y => (segOverflows l.k (f y).1).toNat).sum ≠ 0 := by
    have positive : 0 < (segOverflows l.k (f y).1).toNat := by rw [overflows]; exact Nat.one_pos
    exact Nat.ne_of_gt (List.sum_pos_iff_exists_pos_nat.mpr ⟨_, List.mem_map_of_mem touched, positive⟩)
  simp only [State.writeSegments, List.map_map, List.filter_map, Function.comp_def, Ev.enabled_overflow, enabled, Bool.true_and,
    List.isEmpty_map, List.isEmpty_eq_false_iff.mpr hit, Bool.not_false, if_true, List.foldl_map, Ev.sum_overflows,
    Ev.info_overflow counted]
  rfl

end Writes

/-! ### Exact operations (R167, R169) -/

/-- A unit whose fields are legal writes its integer to each segment. -/
def SegSpec.compute (r : SegSpec) (i : Issue) (s : State) : Eff :=
  s.onSegments i fun l segs => s.writeSegments i l r.dst (segs.map fun x => (x.2, r.value s i l x))

/-- Every exact operation refuses a register that its stream has not, waits for its sources, and then computes. -/
theorem exec_of_segResult {x : Instr} {r : SegSpec} (h : segResult x = some r) :
    ∃ body, (∀ s, exec x s = runUnit lanyardAttr r.guard body s) ∧
      ∀ i s, r.legal i = true → s.tokenPending i r.regs = false → body i s = r.compute i s := by
  unfold segResult at h
  split at h <;> cases h <;> refine ⟨_, fun _ => rfl, fun i s legal ready => ?_⟩
  all_goals exact (if_neg (by simpa [and_assoc] using legal)).trans (if_neg (by simpa using ready))

section Exact
variable {x : Instr} {r : SegSpec} {s : State} {i : Issue} {l : Lanyard}

theorem exec_of_segResult_done {u : State} (spec : segResult x = some r) (issues : Issues lanyardAttr r.guard s i)
    (legal : r.legal i = true) (ready : s.awake.tokenPending i r.regs = false) (done : r.compute i s.awake = .done u) :
    exec x s = .next (i.finished lanyardAttr u) := by
  obtain ⟨body, asUnit, computes⟩ := exec_of_segResult spec
  rw [asUnit]
  exact runUnit_done issues ((computes _ _ legal ready).trans done)

theorem exec_of_segResult_trap {t : TrapRec} (spec : segResult x = some r) (issues : Issues lanyardAttr r.guard s i)
    (legal : r.legal i = true) (ready : s.awake.tokenPending i r.regs = false) (trap : r.compute i s.awake = .trap t s.awake) :
    exec x s = .next (s.awake.takeTrap i t) := by
  obtain ⟨body, asUnit, computes⟩ := exec_of_segResult spec
  rw [asUnit]
  exact runUnit_trapsAt issues ((computes _ _ legal ready).trans trap)

end Exact

/-- Settles O10: an exact operation computes on its segments, which either writes all of them or traps before it has an effect. -/
theorem lanyardExact : Obligations.LanyardExact := by
  unfold Obligations.LanyardExact
  refine ⟨fun x r s i l spec issues legal ready on => ⟨fun quiet => ?writes, fun enabled overflow => ?overflows⟩,
    fun x r s i spec issues legal ready => ?traps⟩
  case writes =>
    exact exec_of_segResult_done spec issues legal ready
      ((State.onSegments_of_onLanyard on _).trans (State.writeSegments_of_quiet (s := s.awake) quiet))
  case overflows =>
    exact exec_of_segResult_trap spec issues legal ready
      ((State.onSegments_of_onLanyard on _).trans (State.writeSegments_of_enabled (s := s.awake) enabled overflow))
  case traps =>
    have trap {t : TrapRec} := exec_of_segResult_trap (t := t) spec issues legal ready
    exact ⟨fun unbound => trap (State.onSegments_of_unbound unbound _),
      fun l y more bound faulted => trap (State.onSegments_of_faulted bound faulted _),
      fun l y more bound sound part => trap (State.onSegments_of_partial bound sound part _)⟩

end Sys2Proof.Machine
end

section
/-! PROOF. LBIND, LFREE, LSTAT and LCLR, and the orders, the significant bits and the roundings of segments (O9). -/

namespace Sys2Proof.Machine

/-! ### Binding (R160, R162, R163, R168) -/

section Binding
variable {a kk m d : RegField} {g : GuardField} {s : State} {i : Issue} {l : Lanyard}

/-- The fields of an LBIND name a segment width that the group has, and a register that can be read (R167). -/
structure Binds (s : State) (i : Issue) (a kk : RegField) : Prop where
  size : kk = 1 ∨ kk = 2 ∨ kk = 4 ∨ kk = 8
  fits : 8 * kk.toNat ≤ i.width
  point : i.scalarOk false a = true
  ready : s.tokenPending i [a.toNat] = false

/-- What LBIND does with segments of k lanes and the operand v (R165, R168). -/
def bindEffect (k v : Nat) (i : Issue) (s : State) : Eff :=
  if (s.lanyardOf i).isSome then i.lanyardUnit Cause.lanyardState 3 s
  else if 64 * k ≤ v % 4096 || 4096 ≤ v then i.lanyardUnit Cause.lanyardState 6 s
  else if !s.wholeGroup i || mixedSegment k i.width (s.live i) then i.lanyardUnit Cause.lanyardDiverge 2 s
  else .done (s.modUnit i.core i.unit fun r => { r with lanyard := some (boundLanyard k v i.width (s.live i)) })

theorem exec_lbind_of_binds (ok : Binds s.awake i a kk) : ∃ body, exec (.lbind a kk g) s = runUnit lanyardAttr g body s ∧
    body i s.awake = bindEffect (8 * kk.toNat) (s.awake.source i .nat a none (lowestLane i.active)).toNat i s.awake := by
  refine ⟨_, rfl, (if_neg ?_).trans (if_neg (by simp [ok.ready]))⟩
  have size : (kk.toNat == 1 || kk.toNat == 2 || kk.toNat == 4 || kk.toNat == 8) = true := by
    rcases ok.size with rfl | rfl | rfl | rfl <;> rfl
  simp [size, ok.fits, ok.point]

theorem bindEffect_of_bound {k v : Nat} (bound : (s.lanyardOf i).isSome = true) :
    bindEffect k v i s = .trap ⟨Cause.lanyardState, i.active, 0, 3⟩ s :=
  if_pos bound

theorem bindEffect_of_large {k v : Nat} (free : s.lanyardOf i = none) (large : 4096 ≤ v ∨ 64 * k ≤ v) :
    bindEffect k v i s = .trap ⟨Cause.lanyardState, i.active, 0, 6⟩ s := by
  have out : 64 * k ≤ v % 4096 ∨ 4096 ≤ v := by omega
  simp only [bindEffect, free, Option.isSome_none, Bool.false_eq_true, if_false, Bool.or_eq_true, decide_eq_true_eq, if_pos out]
  rfl

/-- With an operand that names a bit of a segment, only the group's lanes are left to check. -/
theorem bindEffect_of_small {k v : Nat} (free : s.lanyardOf i = none) (word : v < 4096) (small : v < 64 * k) :
    bindEffect k v i s = if !s.wholeGroup i || mixedSegment k i.width (s.live i) then .trap ⟨Cause.lanyardDiverge, i.active, 0, 2⟩ s
      else .done (s.modUnit i.core i.unit fun r => { r with lanyard := some (boundLanyard k v i.width (s.live i)) }) := by
  have inside : ¬ (64 * k ≤ v % 4096 ∨ 4096 ≤ v) := by omega
  simp only [bindEffect, free, Option.isSome_none, Bool.false_eq_true, if_false, Bool.or_eq_true, decide_eq_true_eq, if_neg inside]
  rfl

theorem exec_lfree_of_bound (issues : Issues lanyardAttr g s i) (bound : (s.awake.lanyardOf i).isSome = true)
    (whole : s.awake.wholeGroup i = true) : exec (.lfree g) s = .next (i.finished lanyardAttr (s.awake.modUnit i.core i.unit fun r =>
      { r with lanyard := none })) :=
  runUnit_done issues (by simp only [Option.isNone_eq_false_iff.mpr bound, whole, Bool.not_true, Bool.false_eq_true, if_false])

theorem exec_lfree_of_unbound (issues : Issues lanyardAttr g s i) (unbound : s.awake.lanyardOf i = none) :
    exec (.lfree g) s = .next (s.awake.takeTrap i ⟨Cause.lanyardState, i.active, 0, 4⟩) :=
  runUnit_trapsAt issues (if_pos (Option.isNone_iff_eq_none.mpr unbound))

theorem exec_lfree_of_not_whole (issues : Issues lanyardAttr g s i) (bound : (s.awake.lanyardOf i).isSome = true)
    (part : s.awake.wholeGroup i = false) :
    exec (.lfree g) s = .next (s.awake.takeTrap i ⟨Cause.lanyardDiverge, i.active, 0, 2⟩) := by
  refine runUnit_trapsAt issues ?_
  simp only [Option.isNone_eq_false_iff.mpr bound, part, Bool.not_false, Bool.false_eq_true, if_false, if_true]
  rfl

theorem exec_lclr_of_onLanyard (issues : Issues lanyardAttr g s i) (on : OnLanyard s.awake i l) (mask : m.toNat ≤ 31) :
    exec (.lclr m g) s = .next (i.finished lanyardAttr
      ((l.touched i.active).foldl (fun t x => t.modUnit i.core i.unit fun r => { r with lanyard := r.lanyard.map fun l =>
        { l with segments := setAt x.2 (fun g => { g with flags := g.flags &&& ~~~(BitVec.ofNat 5 m.toNat) }) l.segments } }) s.awake)) :=
  runUnit_done issues ((if_neg (Nat.not_lt.mpr mask)).trans (State.onSegments_of_onLanyard on _))

end Binding

/-! ### Values broadcast in each segment (R167) -/

theorem segBroadcast_of_onLanyard {c : Cls} {d : RegField} {srcs : List RegField} {g : GuardField} {t : Attr} {s : State} {i : Issue}
    {l : Lanyard} (issues : Issues t g s i) (on : OnLanyard s.awake i l) (dst : i.regOk true c d = true) (register : isQueue d = false)
    (read : (srcs.all fun p => i.regOk false .pair p) = true)
    (ready : s.awake.tokenPending i (srcs.flatMap fun p => fieldRegs .pair p) = false)
    (f : State → Issue → Lanyard → Segment × Nat → Dword) :
    segBroadcast t d c srcs g f s = .next (i.finished t (s.awake.segmentsTell i l c d (f s.awake i l))) := by
  refine runUnit_done issues ?_
  simp only [dst, register, read, ready, Bool.not_true, Bool.or_self, Bool.false_eq_true, if_false]
  exact State.onSegments_of_onLanyard on _

/-! ### Roundings (R77, R170) -/

/-- What a rounding gives for a segment: the value stands at the binary point of the lanyard. -/
def State.roundedSegment (s : State) (i : Issue) (l : Lanyard) (f : Fmt) (a : RegField) (x : Segment × Nat) : FRes :=
  segRound f (ftz (s.modeOf i)) (i.arith (s.modeOf i)) i.modSaturation x.1 (s.segValue i l x.2 a) l.f

/-- A rounding may work on the segments: its registers are there, and its source holds no token (R167). -/
structure Rounds (g : GuardField) (s : State) (i : Issue) (l : Lanyard) (c : Cls) (d a : RegField) : Prop where
  issues : Issues lanyardRound g s i
  on : OnLanyard s.awake i l
  register : isQueue d = false
  dst : i.regOk true c d = true
  src : i.regOk false .pair a = true
  ready : s.awake.tokenPending i (fieldRegs .pair a) = false

/-- What a rounding does with its segments: the events of all of them trap or are counted, before its values are told. -/
def State.roundSegments (s : State) (i : Issue) (l : Lanyard) (f : Fmt) (c : Cls) (d a : RegField) : Eff :=
  let segs := l.touched i.active
  let hit := segs.filter fun x => (s.roundedSegment i l f a x).ev.enabled (s.modeOf i)
  let all := Ev.sum (segs.map fun x => (s.roundedSegment i l f a x).ev)
  if hit = [] then .done ((s.count i.core all).segmentsTell i l c d fun x => BitVec.ofNat 64 (s.roundedSegment i l f a x).bits)
  else .trap ⟨Cause.fpTrap, hit.foldl (fun w x => w ||| segLanes l.k x.2) 0, 0, BitVec.ofNat 64 all.info⟩ s

section Rounding
variable {f : Fmt} {c : Cls} {d a : RegField} {g : GuardField} {s : State} {i : Issue} {l : Lanyard}

theorem roundUnit_of_rounds (ok : Rounds g s i l c d a) :
    ∃ body, roundUnit f c d a g s = runUnit lanyardRound g body s ∧ body i s.awake = s.awake.roundSegments i l f c d a := by
  refine ⟨_, rfl, ?_⟩
  simp only [ok.dst, ok.register, ok.src, ok.ready, State.onSegments_of_onLanyard ok.on, Bool.not_true, Bool.or_self,
    Bool.false_eq_true, if_false, List.filter_map, List.map_map, List.isEmpty_map, List.foldl_map, Bool.not_eq_true',
    List.isEmpty_eq_false_iff, ne_eq, ite_not]
  rfl

theorem roundUnit_of_quiet (ok : Rounds g s i l c d a)
    (quiet : ∀ x ∈ l.touched i.active, (s.awake.roundedSegment i l f a x).ev.enabled (s.modeOf i) = false) :
    roundUnit f c d a g s = .next (i.finished lanyardRound
      ((s.awake.count i.core (Ev.sum ((l.touched i.active).map fun x => (s.awake.roundedSegment i l f a x).ev))).segmentsTell i l c d
        fun x => BitVec.ofNat 64 (s.awake.roundedSegment i l f a x).bits)) := by
  obtain ⟨body, asUnit, rounds⟩ := roundUnit_of_rounds (f := f) ok
  rw [asUnit]
  exact runUnit_done ok.issues (rounds.trans (if_pos (List.filter_eq_nil_iff.mpr fun x touched => Bool.eq_false_iff.mp (quiet x touched))))

theorem roundUnit_of_enabled (ok : Rounds g s i l c d a)
    (enabled : ((l.touched i.active).filter fun x => (s.awake.roundedSegment i l f a x).ev.enabled (s.modeOf i)) ≠ []) :
    roundUnit f c d a g s = .next (s.awake.takeTrap i ⟨Cause.fpTrap,
      ((l.touched i.active).filter fun x => (s.awake.roundedSegment i l f a x).ev.enabled (s.modeOf i)).foldl
        (fun w x => w ||| segLanes l.k x.2) 0, 0,
      BitVec.ofNat 64 (Ev.sum ((l.touched i.active).map fun x => (s.awake.roundedSegment i l f a x).ev)).info⟩) := by
  obtain ⟨body, asUnit, rounds⟩ := roundUnit_of_rounds (f := f) ok
  rw [asUnit]
  exact runUnit_trapsAt ok.issues (rounds.trans (if_neg enabled))

end Rounding

/-- Settles O9: binding and its traps, values told segment by segment, and roundings that count their events or trap on them. -/
theorem lanyardBinding : Obligations.LanyardBinding := by
  unfold Obligations.LanyardBinding
  refine ⟨⟨fun a kk m d g s i issues => ⟨?binds, exec_lfree_of_bound issues, ?status, fun l => exec_lclr_of_onLanyard issues⟩,
    fun d a b g s i l => ⟨fun issues on dst register src ready => ?told, fun issues on register src ready => ?rounds⟩⟩,
    fun a kk g s i issues => ⟨?refused, exec_lfree_of_unbound issues, exec_lfree_of_not_whole issues⟩,
    fun d a g s i l x f c form issues on register dst src ready enabled => ?traps⟩
  case binds =>
    intro size fits point ready free v word small whole unmixed
    obtain ⟨body, asUnit, binds⟩ := exec_lbind_of_binds (g := g) ⟨size, fits, point, ready⟩
    rw [asUnit]
    refine runUnit_done issues (binds.trans ((bindEffect_of_small free word (by omega)).trans (if_neg ?_)))
    simp [whole, unmixed]
  case status =>
    exact fun dst => runUnit_done issues (if_neg (by simp [dst]))
  case told =>
    exact ⟨segBroadcast_of_onLanyard issues on dst register (by simpa using src) (by simpa using ready) _,
      fun src' ready' => segBroadcast_of_onLanyard issues on dst register (by simp [src, src']) (by simpa using ready') _⟩
  case rounds =>
    exact ⟨fun dst => roundUnit_of_quiet ⟨issues, on, register, dst, src, ready⟩,
      fun dst => roundUnit_of_quiet ⟨issues, on, register, dst, src, ready⟩⟩
  case refused =>
    intro size fits point ready
    obtain ⟨body, asUnit, binds⟩ := exec_lbind_of_binds (g := g) ⟨size, fits, point, ready⟩
    rw [asUnit]
    refine ⟨fun bound => runUnit_trapsAt issues (binds.trans (bindEffect_of_bound bound)), fun free large => ?large,
      fun free word small part => ?part⟩
    case large => exact runUnit_trapsAt issues (binds.trans (bindEffect_of_large free (by omega)))
    case part =>
      refine runUnit_trapsAt issues (binds.trans ((bindEffect_of_small free word (by omega)).trans (if_pos ?_)))
      simpa using part
  case traps =>
    have ok : Rounds g s i l c d a := ⟨issues, on, register, dst, src, ready⟩
    obtain ⟨rfl, rfl, rfl⟩ | ⟨rfl, rfl, rfl⟩ := form
    · exact roundUnit_of_enabled ok enabled
    · exact roundUnit_of_enabled ok enabled

end Sys2Proof.Machine
end

section
/-! PROOF. Accesses of a unit's lanes that are performed at once (O14). -/

namespace Sys2Proof.Machine

section Local
variable {s : State} {i : Issue} {n : Nat} {ts : List Target} {v : Nat → Nat}

/-! ### Targets that all lie in the issuing core (R178) -/

theorem filter_core_of_here (here : ∀ t ∈ ts, t.core = i.core) : ts.filter (·.core == i.core) = ts :=
  List.filter_eq_self.mpr fun t mem => beq_iff_eq.mpr (here t mem)

theorem remoteLines_of_here (here : ∀ t ∈ ts, t.core = i.core) : remoteLines i.core ts = [] := by
  induction ts with
  | nil => rfl
  | cons t r ih =>
    obtain ⟨own, rest⟩ := List.forall_mem_cons.mp here
    simp only [remoteLines, own, if_true, ih rest]

theorem State.refusedLine_of_here (here : ∀ t ∈ ts, t.core = i.core) : s.refusedLine i ts = none :=
  List.findSome?_eq_none_iff.mpr fun t mem => if_pos (here t mem)

theorem AllLocal.localPages (h : AllLocal s i ts) : s.localPages i ts = .ready () s := by
  unfold State.localPages
  rw [filter_core_of_here h.here, h.pages]

/-- R181, R191: loads of the issuing core are served one after the other, and no line is missing. -/
theorem State.loadEach_of_here (here : ∀ t ∈ ts, t.core = i.core) :
    s.loadEach i n ts = ((s.localLoads i n ts).1, [], (s.localLoads i n ts).2) := by
  induction ts generalizing s with
  | nil => rfl
  | cons t r ih =>
    obtain ⟨own, rest⟩ := List.forall_mem_cons.mp here
    simp only [State.loadEach, State.loadLane, own, if_true, ih rest, State.localLoads]

theorem AllLocal.loadLanes (h : AllLocal s i ts) (n : Nat) :
    s.loadLanes i n ts = .ready (s.localLoads i n ts).1 (s.localLoads i n ts).2 := by
  simp only [State.loadLanes, h.localPages, State.refusedLine_of_here h.here, State.loadEach_of_here h.here]

/-- R181, R192: stores of the issuing core are performed one after the other, and no message leaves. -/
theorem AllLocal.storeLanes (h : AllLocal s i ts) (n : Nat) (v : Nat → Nat) :
    s.storeLanes i n ts v = .ready () ((s.localStores i n ts v).newId i.core).2 := by
  simp only [State.storeLanes, h.localPages, filter_core_of_here h.here, remoteLines_of_here h.here, List.filter_nil, List.foldl_nil,
    List.length_nil, State.sentStores, if_true, State.localStores]

end Local

/-- Settles O14: with every target in the issuing core no line is missing and none is stored elsewhere. -/
theorem localAccesses : Obligations.LocalAccesses := by
  unfold Obligations.LocalAccesses
  exact fun s i n ts v h => ⟨h.loadLanes n, h.storeLanes n v⟩

end Sys2Proof.Machine
end

section
/-! PROOF. Loads, stores, atomics, watches and waits of a unit's lanes: their addresses are checked, then they are made (O11, O12,
O17, O18). -/

namespace Sys2Proof.Machine

/-! ### Address checks (R175, R195) -/

/-- The outcome of a unit after its lanes' addresses have been checked: the trap of the first failing cause, or `e` (R195). -/
def State.afterChecks (s : State) (i : Issue) (l : List LaneAccess) (e : Eff) : Eff :=
  match i.addressTrap l with
  | some r => .trap r s
  | none => e

/-- A word is a unit that checks the addresses of its lanes' accesses l before its outcome e. -/
def Accesses (t : Attr) (g : GuardField) (s : State) (i : Issue) (run : State → Host.Outcome State Fault Refusal) (l : List LaneAccess)
    (e : Eff) : Prop :=
  ∃ body, run s = runUnit t g body s ∧ body i s.awake = s.awake.afterChecks i l e

section Checks
variable {t : Attr} {g : GuardField} {s u : State} {i : Issue} {run : State → Host.Outcome State Fault Refusal} {l : List LaneAccess}
  {e : Eff} {r : TrapRec}

theorem Accesses.outcome (a : Accesses t g s i run l e) (issues : Issues t g s i) (passes : i.addressTrap l = none) :
    run s = .next (e.settle t i s.awake) := by
  obtain ⟨body, asUnit, checks⟩ := a
  rw [asUnit, runUnit_issues issues, checks, State.afterChecks, passes]

theorem Accesses.done (a : Accesses t g s i run l e) (issues : Issues t g s i) (passes : i.addressTrap l = none) (h : e = .done u) :
    run s = .next (i.finished t u) := by
  rw [a.outcome issues passes, h]
  rfl

/-- R195: an address that fails traps before any access is made. -/
theorem Accesses.traps (a : Accesses t g s i run l e) (issues : Issues t g s i) (fails : i.addressTrap l = some r) :
    run s = .next (s.awake.takeTrap i r) := by
  obtain ⟨body, asUnit, checks⟩ := a
  rw [asUnit]
  refine runUnit_trapsAt issues ?_
  rw [checks, State.afterChecks, fails]

/-- Accesses that can be performed now go on with their values. -/
theorem State.accessing_of_ready {α : Type} {v : State → Access α} {w : State} {x : α} (ready : v u = .ready x w)
    (k : α → State → Eff) : s.accessing v u k = k x w := by
  simp only [State.accessing, ready]

end Checks

/-! ### The instructions (R196 to R202, R204) -/

section Instructions
variable {s u : State} {i : Issue} {v : List (Nat → Dword)} {t b d a : RegField} {o : BitVec 7} {sz : BitVec 2} {g : GuardField}

/-- What a load does once its addresses have passed: its lanes' values, then its result. -/
def State.loads (s u : State) (i : Issue) (n : Nat) (c : Cls) (d : RegField) (l : List LaneAccess) : Eff :=
  s.accessing (fun s => s.loadLanes i n (targets l)) u fun vals u => s.result u i c d (loaded vals)

/-- What a store does once its addresses have passed. -/
def State.stores (s u : State) (i : Issue) (n : Nat) (l : List LaneAccess) (v : Nat → Nat) : Eff :=
  s.accessing (fun s => s.storeLanes i n (targets l) v) u fun _ u => .done u

theorem loadUnit_accesses {p : Space} (ok : i.registersOk (sizeCls sz, t) [(.nat, b)])
    (read : s.awake.operands i [(.nat, b)] [t] = .ok v u) :
    Accesses { memoryAttr with ximm := true } g s i (loadUnit p t b o sz g) (s.awake.wordAccesses i p sz o v)
      (s.awake.loads u i (sizeOf' sz) (sizeCls sz) t (s.awake.wordAccesses i p sz o v)) := by
  obtain ⟨dst, srcs⟩ := ok
  simp only [List.all_cons, List.all_nil, Bool.and_true] at srcs
  refine ⟨_, rfl, ?_⟩
  simp only [dst, srcs, read, Bool.not_true, Bool.or_self, Bool.false_eq_true, if_false]
  rfl

theorem storeUnit_accesses {p : Space} (src : i.regOk false (sizeCls sz) t = true) (base : i.regOk false .nat b = true)
    (read : s.awake.operands i [(.nat, b), (sizeCls sz, t)] [] = .ok v u) :
    Accesses { storeAttr with ximm := true } g s i (storeUnit p t b o sz g) (s.awake.wordAccesses i p sz o v)
      (s.awake.stores u i (sizeOf' sz) (s.awake.wordAccesses i p sz o v) fun l => (nth v 1 l).toNat) := by
  refine ⟨_, rfl, ?_⟩
  simp only [src, base, read, Bool.not_true, Bool.or_self, Bool.false_eq_true, if_false]
  rfl

/-- LDL and LDC are the load of their space. -/
theorem exec_of_load {p : Space} {x : Instr} (h : (p = .local ∧ x = .ldl t b o sz g) ∨ (p = .cluster ∧ x = .ldc t b o sz g)) :
    exec x = loadUnit p t b o sz g := by
  obtain ⟨rfl, rfl⟩ | ⟨rfl, rfl⟩ := h <;> rfl

/-- STL and STC are the store of their space. -/
theorem exec_of_store {p : Space} {x : Instr} (h : (p = .local ∧ x = .stl t b o sz g) ∨ (p = .cluster ∧ x = .stc t b o sz g)) :
    exec x = storeUnit p t b o sz g := by
  obtain ⟨rfl, rfl⟩ | ⟨rfl, rfl⟩ := h <;> rfl

theorem exec_ldx_accesses (ok : i.registersOk (.word, d) [(.nat, a), (.word, b)])
    (read : s.awake.operands i [(.nat, a), (.word, b)] [d] = .ok v u) :
    Accesses memoryAttr g s i (exec (.ldx d a b g)) (s.awake.indexedAccesses i v)
      (s.awake.loads u i 4 .word d (s.awake.indexedAccesses i v)) := by
  obtain ⟨dst, srcs⟩ := ok
  simp only [List.all_cons, List.all_nil, Bool.and_true, Bool.and_eq_true] at srcs
  obtain ⟨base, index⟩ := srcs
  refine ⟨_, rfl, ?_⟩
  simp only [dst, base, index, read, Bool.not_true, Bool.or_self, Bool.false_eq_true, if_false]
  rfl

theorem exec_stx_accesses (src : i.regOk false .word d = true) (base : i.regOk false .nat a = true) (index : i.regOk false .word b = true)
    (read : s.awake.operands i [(.nat, a), (.word, b), (.word, d)] [] = .ok v u) :
    Accesses storeAttr g s i (exec (.stx d a b g)) (s.awake.indexedAccesses i v)
      (s.awake.stores u i 4 (s.awake.indexedAccesses i v) fun l => (nth v 2 l).toNat) := by
  refine ⟨_, rfl, ?_⟩
  simp only [src, base, index, read, Bool.not_true, Bool.or_self, Bool.false_eq_true, if_false]
  rfl

/-- The words of unified space that a unit's lanes name by their first operand (R202). -/
abbrev State.namedWords (s : State) (i : Issue) (v : List (Nat → Dword)) : List LaneAccess :=
  s.accesses i .unified 4 fun l => addr32 (nth v 0 l)

/-- R197, R198: every AT instruction, and ACAS. -/
theorem exec_atomic_accesses {x : Instr} {cas : Bool} {op : Word → AtomicOp} (h : atomicOf x = some (d, a, b, g, cas, op))
    (ok : i.registersOk (.word, d) (atomicSrcs d a b cas)) (read : s.awake.operands i (atomicSrcs d a b cas) [d] = .ok v u) :
    Accesses storeAttr g s i (exec x) (s.awake.namedWords i v)
      (s.awake.atomicUnit u i d (targets (s.awake.namedWords i v)) (fun l => op ((nth v 2 l).setWidth 32)) fun l =>
        (nth v 1 l).setWidth 32) := by
  have unit : exec x = atomicInstr d a b cas op g := by
    unfold atomicOf at h
    split at h <;> cases h <;> rfl
  obtain ⟨dst, srcs⟩ := ok
  unfold atomicSrcs at srcs read
  refine ⟨_, congrFun unit s, ?_⟩
  simp only [dst, srcs, read, Bool.not_true, Bool.or_self, Bool.false_eq_true, if_false]
  rfl

/-- WATCH and UNWATCH. -/
theorem watchUnit_accesses {f : State → Issue → Nat → Nat → State} (src : i.regOk false .nat a = true)
    (read : s.awake.operands i [(.nat, a)] [] = .ok v u) :
    Accesses { lease := true } g s i (watchUnit f a g) (s.awake.namedWords i v)
      (.done ((targets (s.awake.namedWords i v)).foldl (fun u t => f u i t.core (t.off / 64)) u)) := by
  refine ⟨_, rfl, ?_⟩
  simp only [src, read, Bool.not_true, Bool.false_eq_true, if_false]
  rfl

/-- What WAITW and WAITGE do with the words of their lanes: they write them where the condition holds in every lane, else they
wait (R200). -/
def State.awaitWords (s u : State) (i : Issue) (holds : Word → Word → Bool) (d : RegField) (v : List (Nat → Dword))
    (vals : SMap Nat) : Eff :=
  let w (l : Nat) : Word := (loaded vals l).setWidth 32
  if (lanesOf i.active).all fun l => holds (w l) ((nth v 1 l).setWidth 32) then s.result u i .word d fun l => (w l).setWidth 64
  else .wait s

theorem loaded_setWidth (vals : SMap Nat) (l : Nat) : (loaded vals l).setWidth 32 = BitVec.ofNat 32 ((SMap.find vals l).getD 0) :=
  BitVec.setWidth_ofNat_of_le (by decide) _

theorem waitUnit_accesses {holds : Word → Word → Bool} (ok : i.registersOk (.word, d) [(.nat, a), (.word, b)])
    (read : s.awake.operands i [(.nat, a), (.word, b)] [d] = .ok v u) :
    Accesses { memoryAttr with h := false } g s i (waitUnit holds d a b g) (s.awake.namedWords i v)
      (s.awake.accessing (fun w => w.loadLanes i 4 (targets (s.awake.namedWords i v))) u fun vals w =>
        s.awake.awaitWords w i holds d v vals) := by
  obtain ⟨dst, srcs⟩ := ok
  simp only [List.all_cons, List.all_nil, Bool.and_true, Bool.and_eq_true] at srcs
  obtain ⟨base, value⟩ := srcs
  refine ⟨_, rfl, ?_⟩
  simp only [dst, base, value, read, Bool.not_true, Bool.or_self, Bool.false_eq_true, if_false, State.awaitWords, loaded_setWidth]
  rfl

/-- The address in the first operand of the lowest active lane, at which ranks and blocks begin (R203 to R206). -/
abbrev Issue.baseOf (i : Issue) (v : List (Nat → Dword)) : Nat := (nth v 0 (lowestLane i.active)).toNat

/-- The accesses of CSTR and XLDE: the active lanes' words at rising addresses (R203, R204). -/
abbrev State.rankAccesses (s : State) (i : Issue) (v : List (Nat → Dword)) : List LaneAccess :=
  i.ranked.map (s.rankAccess i (i.baseOf v))

theorem exec_xlde_accesses (ok : i.plainRegs [d] [a] = true) (read : s.awake.operands i [(.nat, a)] [] = .ok v u)
    (aligned : i.baseOf v % 4 = 0) :
    Accesses vectorAttr g s i (exec (.xlde d a g)) (s.awake.rankAccesses i v)
      (s.awake.accessing (fun w => w.loadLanes i 4 (targets (s.awake.rankAccesses i v))) u fun vals w =>
        .done (w.writeLanes i .nat d i.active (loaded vals))) := by
  refine ⟨_, rfl, ?_⟩
  simp only [ok, read, aligned, Bool.not_true, Bool.false_eq_true, if_false, ne_eq, not_true_eq_false]
  rfl

end Instructions

/-! ### What completes -/

section Complete
variable {s u w : State} {i : Issue} {v : List (Nat → Dword)} {vals : SMap Nat} {d a b : RegField} {g : GuardField}

theorem State.loads_of_ready {n : Nat} {c : Cls} {l : List LaneAccess} (ready : u.loadLanes i n (targets l) = .ready vals w)
    (b : w.broadcasts i d) : s.loads u i n c d l = .done (w.delivered i c d (loaded vals)) :=
  (State.accessing_of_ready (v := fun s => s.loadLanes i n (targets l)) ready _).trans (State.result_of_broadcasts b c _)

theorem State.stores_of_ready {n : Nat} {l : List LaneAccess} {x : Nat → Nat} (ready : u.storeLanes i n (targets l) x = .ready () w) :
    s.stores u i n l x = .done w :=
  State.accessing_of_ready (v := fun s => s.storeLanes i n (targets l) x) ready _

/-- WAITW or WAITGE passes its checks and can read its words (R200). -/
structure AwaitsWords (g : GuardField) (s u w : State) (i : Issue) (d a b : RegField) (v : List (Nat → Dword))
    (vals : SMap Nat) : Prop where
  issues : Issues { memoryAttr with h := false } g s i
  registers : i.registersOk (.word, d) [(.nat, a), (.word, b)]
  read : s.awake.operands i [(.nat, a), (.word, b)] [d] = .ok v u
  safe : i.addressTrap (s.awake.namedWords i v) = none
  ready : u.loadLanes i 4 (targets (s.awake.namedWords i v)) = .ready vals w
  broadcast : w.broadcasts i d

theorem AwaitsWords.outcome {holds : Word → Word → Bool} (h : AwaitsWords g s u w i d a b v vals) : waitUnit holds d a b g s =
    .next ((s.awake.awaitWords w i holds d v vals).settle { memoryAttr with h := false } i s.awake) := by
  rw [(waitUnit_accesses h.registers h.read).outcome h.issues h.safe, State.accessing_of_ready (v := fun w =>
    w.loadLanes i 4 (targets (s.awake.namedWords i v))) h.ready]

/-- Words that meet the condition in every active lane are written. -/
theorem AwaitsWords.completes {holds : Word → Word → Bool} (h : AwaitsWords g s u w i d a b v vals)
    (all : ∀ k ∈ lanesOf i.active, holds ((loaded vals k).setWidth 32) ((nth v 1 k).setWidth 32) = true) :
    waitUnit holds d a b g s = .next (i.finished memoryAttr
      (w.delivered i .word d fun l => ((loaded vals l).setWidth 32 : Word).setWidth 64)) := by
  rw [h.outcome, State.awaitWords, if_pos (List.all_eq_true.mpr all), State.result_of_broadcasts h.broadcast]
  rfl

/-- A word that does not meet the condition in an active lane holds the unit back. -/
theorem AwaitsWords.waits {holds : Word → Word → Bool} {k : Nat} (h : AwaitsWords g s u w i d a b v vals) (mem : k ∈ lanesOf i.active)
    (unmet : holds ((loaded vals k).setWidth 32) ((nth v 1 k).setWidth 32) = false) :
    waitUnit holds d a b g s = .next { s.awake with stalled := true } := by
  rw [h.outcome, State.awaitWords, if_neg fun all => Bool.false_ne_true (unmet.symm.trans (List.all_eq_true.mp all k mem))]
  rfl

/-- Every access of CSTR passes, and it stores them all (R203). -/
theorem exec_cstr_of_isOk (issues : Issues { vectorAttr with spin := true } g s i) (ok : i.plainRegs [d] [a, b] = true)
    (read : s.awake.operands i [(.nat, a), (.nat, b)] [] = .ok v u) (aligned : i.baseOf v % 4 = 0)
    (safe : ((s.awake.rankAccesses i v).all fun x => x.isOk) = true)
    (ready : u.storeLanes i 4 (targets (s.awake.rankAccesses i v)) (fun l => (nth v 1 l).toNat) = .ready () w) :
    exec (.cstr d a b g) s = .next (i.finished storeAttr (w.writeLanes i .nat d i.active fun _ =>
      BitVec.ofNat 64 (s.awake.rankAccesses i v).length)) := by
  have whole : (s.awake.rankAccesses i v).takeWhile (·.isOk) = s.awake.rankAccesses i v := by
    simpa only [List.takeWhile_nil, List.append_nil] using List.takeWhile_append_of_pos (l₂ := []) (List.all_eq_true.mp safe)
  refine runUnit_done issues ?_
  simp only [ok, read, aligned, whole, State.accessing, ready, List.drop_length, Bool.not_true, Bool.false_eq_true, if_false, ne_eq,
    not_true_eq_false]

end Complete

/-! ### Atomics (R197, R198) -/

section Atomic
variable {s u w : State} {i : Issue} {d : RegField} {ts : List Target} {op : Nat → AtomicOp} {b : Nat → Word} {olds : SMap Dword}

/-- Atomics that are performed here or sent: the values replaced, at once or when every home has replied. -/
theorem State.atomicUnit_of_ready
    (ready : (u.newId i.core).2.atomicLanes i ts op b (d != 60) (u.newId i.core).1 = .ready olds w) :
    s.atomicUnit u i d ts op b = if farLanes i.core ts = 0 ∨ d = 60 then s.result w i .word d fun l => (SMap.find olds l).getD 0
      else .done ((w.keepPlace i d 1).addPending i (i.pendingUnit (u.newId i.core).1 d false (farLanes i.core ts) olds)) := by
  refine (State.accessing_of_ready (v := fun s => s.atomicLanes i ts op b (d != 60) (u.newId i.core).1) ready _).trans ?_
  refine ite_congr (propext ?_) (fun _ => rfl) fun _ => rfl
  rw [Bool.or_eq_true, decide_eq_true_iff, Bool.not_eq_true', bne_eq_false_iff_eq]
  rfl

theorem State.atomicUnit_of_here (ready : (u.newId i.core).2.atomicLanes i ts op b (d != 60) (u.newId i.core).1 = .ready olds w)
    (here : farLanes i.core ts = 0 ∨ d = 60) (broadcast : w.broadcasts i d) :
    s.atomicUnit u i d ts op b = .done (w.delivered i .word d fun l => (SMap.find olds l).getD 0) := by
  rw [State.atomicUnit_of_ready ready, if_pos here, State.result_of_broadcasts broadcast]

theorem State.atomicUnit_of_far (ready : (u.newId i.core).2.atomicLanes i ts op b (d != 60) (u.newId i.core).1 = .ready olds w)
    (far : farLanes i.core ts ≠ 0) (reply : d ≠ 60) : s.atomicUnit u i d ts op b =
      .done ((w.keepPlace i d 1).addPending i (i.pendingUnit (u.newId i.core).1 d false (farLanes i.core ts) olds)) := by
  rw [State.atomicUnit_of_ready ready, if_neg (not_or.mpr ⟨far, reply⟩)]

end Atomic

/-- Settles O11: loads pass their checks, read what memory holds and deliver it. -/
theorem loads : Obligations.Loads := by
  unfold Obligations.Loads
  intro t b d a o sz g s u w i v vals
  refine ⟨fun p x form issues ok read safe ready broadcast => ?word, fun issues ok read safe ready broadcast => ?indexed,
    fun issues ok read aligned safe ready => ?ranked⟩
  case word =>
    rw [exec_of_load form]
    exact (loadUnit_accesses ok read).done issues safe (State.loads_of_ready ready broadcast)
  case indexed => exact (exec_ldx_accesses ok read).done issues safe (State.loads_of_ready ready broadcast)
  case ranked => exact (exec_xlde_accesses ok read aligned).done issues safe (State.accessing_of_ready ready _)

/-- Settles O12: stores pass their checks and are performed, and CSTR writes the number of its ranks. -/
theorem stores : Obligations.Stores := by
  unfold Obligations.Stores
  intro t b d a o sz g s u w i v
  refine ⟨fun p x form issues src base read safe ready => ?word, fun issues src base index read safe ready => ?indexed,
    fun issues ok read aligned safe ready => exec_cstr_of_isOk issues ok read aligned safe ready⟩
  case word =>
    rw [exec_of_store form]
    exact (storeUnit_accesses src base read).done issues safe (State.stores_of_ready ready)
  case indexed => exact (exec_stx_accesses src base index read).done issues safe (State.stores_of_ready ready)

/-- Settles O17: an atomic passes its checks, and delivers at once or awaits its homes. -/
theorem atomics : Obligations.Atomics := by
  unfold Obligations.Atomics
  intro x d a b g cas op s u w i v olds spec issues ok read l ts safe ready
  have accesses := exec_atomic_accesses spec ok read
  exact ⟨fun here broadcast => accesses.done issues safe (State.atomicUnit_of_here ready here broadcast),
    fun far reply => accesses.done issues safe (State.atomicUnit_of_far ready far reply)⟩

/-- Settles O18: FENCE holds its path's lanes, watches are noted line by line, and a wait writes or holds by its condition. -/
theorem watchingAndFence : Obligations.WatchingAndFence := by
  unfold Obligations.WatchingAndFence
  intro d a b g s u w i v vals
  refine ⟨fun issues => ⟨runUnit_done issues rfl, fun src read safe => ⟨?watch, ?unwatch⟩⟩,
    fun issues ok read safe ready broadcast => ?waits⟩
  case watch => exact (watchUnit_accesses (f := State.watchLine) src read).done issues safe rfl
  case unwatch => exact (watchUnit_accesses (f := State.unwatchLine) src read).done issues safe rfl
  case waits =>
    have awaits : AwaitsWords g s u w i d a b v vals := ⟨issues, ok, read, safe, ready, broadcast⟩
    exact ⟨fun differ => awaits.completes fun k mem => bne_iff_ne.mpr (differ k mem),
      fun ⟨k, mem, same⟩ => awaits.waits mem (bne_eq_false_iff_eq.mpr same),
      fun reached => awaits.completes (holds := fun w b => decide (0 ≤ (w - b).toInt)) fun k mem => decide_eq_true (reached k mem),
      fun ⟨k, mem, below⟩ => awaits.waits (holds := fun w b => decide (0 ≤ (w - b).toInt)) mem
        (decide_eq_false (Int.not_le.mpr below))⟩

end Sys2Proof.Machine
end

section
/-! PROOF. Blocks and ranges of local words, and the traps of addresses that fail (O13, O15). -/

namespace Sys2Proof.Machine

/-! ### Accesses that pass their checks (R195) -/

section Passing
variable {i : Issue} {l : List LaneAccess}

theorem failing_of_isOk (ok : ∀ x ∈ l, x.isOk = true) (cause : Nat) : failing l cause = [] := by
  refine List.filter_eq_nil_iff.mpr fun x mem => ?_
  have here := ok x mem
  unfold LaneAccess.isOk at here
  split at here
  · next value => rw [value]; exact Bool.false_ne_true
  · cases here

/-- No check fails where every access passes its own. -/
theorem Issue.addressTrap_of_isOk (ok : ∀ x ∈ l, x.isOk = true) : i.addressTrap l = none := by
  simp only [Issue.addressTrap, failing_of_isOk ok]

end Passing

/-! ### Blocks (R205, R206) -/

section Blocks
variable {s u w : State} {i : Issue} {v : List (Nat → Dword)} {d a b : RegField} {g : GuardField}

/-- The access of a lane whose trap LDT would name: one that fails in any row, else its first (R205). -/
def Issue.worstOf (i : Issue) (v : List (Nat → Dword)) (l : Nat) : LaneAccess :=
  let mine := ((List.range 8).map (i.blockAccesses v)).filterMap fun r => r.find? (·.1 == l)
  ((failing mine Cause.lsBound ++ failing mine Cause.misalign).head?).getD ((mine.head?).getD (l, 0, .ok (0, 0)))

theorem Issue.worstOf_isOk (ok : ∀ j < 8, ∀ x ∈ i.blockAccesses v j, x.isOk = true) (l : Nat) : (i.worstOf v l).isOk = true := by
  have mine : ∀ x ∈ ((List.range 8).map (i.blockAccesses v)).filterMap fun r => r.find? (·.1 == l), x.isOk = true := by
    intro x mem
    obtain ⟨row, rows, found⟩ := List.mem_filterMap.mp mem
    obtain ⟨j, small, rfl⟩ := List.mem_map.mp rows
    exact ok j (List.mem_range.mp small) x (List.mem_of_find?_eq_some found)
  simp only [Issue.worstOf, failing_of_isOk mine, List.append_nil, List.head?_nil, Option.getD_none]
  generalize List.filterMap _ _ = accesses at mine ⊢
  cases accesses with
  | nil => rfl
  | cons x r => exact mine x (List.mem_cons_self ..)

/-- R205: the rows of LDT, one register after the other. -/
theorem exec_ldt_of_allLocal (issues : Issues vectorAttr g s i) (ok : i.plainRegs [] [a, b] = true) (low : d.toNat ≤ 48)
    (regs : d.toNat + 7 < i.regs) (read : s.awake.operands i [(.nat, a), (.nat, b)] [] = .ok v u)
    (safe : ∀ j < 8, ∀ x ∈ i.blockAccesses v j, x.isOk = true)
    (near : AllLocal u i (((List.range 8).map (i.blockAccesses v)).flatMap targets)) :
    exec (.ldt d a b g) s = .next (i.finished vectorAttr ((List.range 8).foldl (fun u j =>
      (u.localLoads i 4 (targets (i.blockAccesses v j))).2.writeLanes i .nat (d + BitVec.ofNat 6 j) i.active
        (loaded (u.localLoads i 4 (targets (i.blockAccesses v j))).1)) u)) := by
  have fields : (!i.plainRegs [] [a, b] || (decide (49 ≤ d.toNat) && decide (d.toNat ≤ 63)) || decide (i.regs ≤ d.toNat + 7)) = false := by
    simp [ok, Nat.not_le.mpr (show d.toNat < 49 by omega), Nat.not_le.mpr regs]
  have passes : i.addressTrap ((lanesOf i.active).map fun l => i.worstOf v l) = none :=
    Issue.addressTrap_of_isOk fun x mem => by
      obtain ⟨l, -, rfl⟩ := List.mem_map.mp mem
      exact Issue.worstOf_isOk safe l
  refine runUnit_done issues ?_
  simp only [Issue.worstOf] at passes
  simp only [fields, read, passes, State.accessing, near.localPages, Bool.false_eq_true, if_false]
  have rows : ((List.range 8).map (i.blockAccesses v)).zipIdx = (List.range 8).map fun j => (i.blockAccesses v j, j) := rfl
  rw [rows, List.foldl_map]
  refine congrArg _ (List.foldl_rel (r := Eq) rfl fun j mem t t' same => ?_)
  subst same
  have here : ∀ x ∈ targets (i.blockAccesses v j), x.core = i.core := fun x own =>
    near.here x (List.mem_flatMap.mpr ⟨_, List.mem_map_of_mem mem, own⟩)
  simp only [State.loadEach_of_here here]
  rfl

/-- R206: the block of BLDL, a word of it to each lane. -/
theorem exec_bldl_of_ready (issues : Issues vectorAttr g s i) (ok : i.plainRegs [d] [a, b] = true)
    (read : s.awake.operands i [(.nat, a), (.nat, b)] [] = .ok v u) (inside : i.window.holds (i.baseOf v) 64 = true)
    (aligned : i.baseOf v % 64 = 0) (ready : u.pages i.core i.ctx [i.baseOf v] (some i.waiter) = .ready) :
    exec (.bldl d a b g) s = .next (i.finished vectorAttr
      ((u.loadLocal i.agent i.core (i.baseOf v) 64).2.writeLanes i .nat d i.active fun l =>
        BitVec.ofNat 64 ((u.loadLocal i.agent i.core (i.baseOf v) 64).1 / 2 ^ (32 * ((nth v 1 l).toNat % 16)) % 2 ^ 32))) := by
  have near : AllLocal u i [⟨lowestLane i.active, i.core, i.baseOf v, BitVec.ofNat 64 (i.baseOf v)⟩] :=
    ⟨fun t mem => by rw [List.mem_singleton.mp mem], ready⟩
  refine runUnit_done issues ?_
  simp only [ok, read, inside, aligned, State.accessing, near.localPages, Bool.not_true, Bool.false_eq_true, if_false, ne_eq,
    not_true_eq_false]

end Blocks

/-! ### Ranges whose addresses fail (R203, R204, R206) -/

section Ranges
variable {s u w : State} {i : Issue} {v : List (Nat → Dword)} {d a b : RegField} {g : GuardField}

/-- A trap of the whole unit at the base of its range. -/
abbrev State.stopsAt (s : State) (i : Issue) (v : List (Nat → Dword)) (cause : Nat) : State :=
  s.awake.takeTrap i ⟨cause, i.mask, BitVec.ofNat 64 (i.baseOf v), 0⟩

theorem exec_cstr_of_misaligned (issues : Issues { vectorAttr with spin := true } g s i) (ok : i.plainRegs [d] [a, b] = true)
    (read : s.awake.operands i [(.nat, a), (.nat, b)] [] = .ok v u) (odd : i.baseOf v % 4 ≠ 0) :
    exec (.cstr d a b g) s = .next (s.stopsAt i v Cause.misalign) := by
  refine runUnit_trapsAt issues ?_
  simp only [ok, read, if_pos odd, Bool.not_true, Bool.false_eq_true, if_false]
  rfl

/-- R203: the words before the first failing address are stored, and their number is written before the trap. -/
theorem exec_cstr_of_short {y : LaneAccess} {more : List LaneAccess} (issues : Issues { vectorAttr with spin := true } g s i)
    (ok : i.plainRegs [d] [a, b] = true) (read : s.awake.operands i [(.nat, a), (.nat, b)] [] = .ok v u) (aligned : i.baseOf v % 4 = 0)
    (rest : (s.awake.rankAccesses i v).drop ((s.awake.rankAccesses i v).takeWhile (·.isOk)).length = y :: more)
    (ready : u.storeLanes i 4 (targets ((s.awake.rankAccesses i v).takeWhile (·.isOk))) (fun l => (nth v 1 l).toNat) = .ready () w) :
    exec (.cstr d a b g) s = .next (s.awake.enterTrap (w.writeLanes i .nat d i.active fun _ =>
        BitVec.ofNat 64 ((s.awake.rankAccesses i v).takeWhile (·.isOk)).length) i
      ⟨Cause.lsBound, (y :: more).foldl (fun m z => m ||| laneBit z.1) 0, y.2.1,
        BitVec.ofNat 64 ((s.awake.rankAccesses i v).takeWhile (·.isOk)).length⟩) := by
  refine runUnit_trap issues ?_
  simp only [ok, read, aligned, State.accessing, ready, rest, Bool.not_true, Bool.false_eq_true, if_false, ne_eq, not_true_eq_false]

theorem exec_xlde_of_misaligned (issues : Issues vectorAttr g s i) (ok : i.plainRegs [d] [a] = true)
    (read : s.awake.operands i [(.nat, a)] [] = .ok v u) (odd : i.baseOf v % 4 ≠ 0) :
    exec (.xlde d a g) s = .next (s.stopsAt i v Cause.misalign) := by
  refine runUnit_trapsAt issues ?_
  simp only [ok, read, if_pos odd, Bool.not_true, Bool.false_eq_true, if_false]
  rfl

theorem exec_bldl_of_outside (issues : Issues vectorAttr g s i) (ok : i.plainRegs [d] [a, b] = true)
    (read : s.awake.operands i [(.nat, a), (.nat, b)] [] = .ok v u) (outside : i.window.holds (i.baseOf v) 64 = false) :
    exec (.bldl d a b g) s = .next (s.stopsAt i v Cause.lsBound) := by
  refine runUnit_trapsAt issues ?_
  simp only [ok, read, outside, Bool.not_true, Bool.not_false, Bool.false_eq_true, if_false, if_true]
  rfl

theorem exec_bldl_of_misaligned (issues : Issues vectorAttr g s i) (ok : i.plainRegs [d] [a, b] = true)
    (read : s.awake.operands i [(.nat, a), (.nat, b)] [] = .ok v u) (inside : i.window.holds (i.baseOf v) 64 = true)
    (odd : i.baseOf v % 64 ≠ 0) : exec (.bldl d a b g) s = .next (s.stopsAt i v Cause.misalign) := by
  refine runUnit_trapsAt issues ?_
  simp only [ok, read, inside, if_pos odd, Bool.not_true, Bool.false_eq_true, if_false]
  rfl

end Ranges

/-- Settles O13: LDT and BLDL pass their checks, and read what the pages of the issuing core hold. -/
theorem blockLoads : Obligations.BlockLoads := by
  unfold Obligations.BlockLoads
  intro d a b g s u i v issues
  refine ⟨fun ok register read safe near => ?ldt, fun ok read inside aligned ready => ?bldl⟩
  case ldt => exact exec_ldt_of_allLocal issues ok register.1 register.2 read safe near
  case bldl => exact exec_bldl_of_ready issues ok read inside aligned ready

/-- Settles O15: a unit's addresses are checked before its accesses, and CSTR, XLDE and BLDL check their base first. -/
theorem addressTraps : Obligations.AddressTraps := by
  unfold Obligations.AddressTraps
  refine ⟨fun t b o sz g s u i v p x r => ⟨fun form issues ok read fails => ?load, fun form issues src base read fails => ?store⟩,
    fun x d a b g cas op s u i v r => ⟨fun issues ok read fails => ?ldx, fun issues src base index read fails => ?stx,
      fun spec issues ok read fails => ?atomic, fun issues ok read fails => ⟨?waitw, ?waitge⟩,
      fun issues src read fails => ⟨?watch, ?unwatch⟩⟩,
    fun d a b g s u w i v r => ⟨fun issues ok read => ⟨fun odd => ?cstrOdd, fun y more aligned rest ready => ?cstrShort⟩,
      fun issues ok read => ⟨fun odd => ?xldeOdd, fun aligned fails => ?xlde⟩,
      fun issues ok read => ⟨fun outside => ?bldlOutside, fun inside odd => ?bldlOdd⟩⟩⟩
  case load =>
    rw [exec_of_load form]
    exact (loadUnit_accesses ok read).traps issues fails
  case store =>
    rw [exec_of_store form]
    exact (storeUnit_accesses src base read).traps issues fails
  case ldx => exact (exec_ldx_accesses ok read).traps issues fails
  case stx => exact (exec_stx_accesses src base index read).traps issues fails
  case atomic => exact (exec_atomic_accesses spec ok read).traps issues fails
  case waitw => exact (waitUnit_accesses (holds := fun w b => w != b) ok read).traps issues fails
  case waitge => exact (waitUnit_accesses (holds := fun w b => decide (0 ≤ (w - b).toInt)) ok read).traps issues fails
  case watch => exact (watchUnit_accesses (f := State.watchLine) src read).traps issues fails
  case unwatch => exact (watchUnit_accesses (f := State.unwatchLine) src read).traps issues fails
  case cstrOdd => exact exec_cstr_of_misaligned issues ok read odd
  case cstrShort => exact exec_cstr_of_short issues ok read aligned rest ready
  case xldeOdd => exact exec_xlde_of_misaligned issues ok read odd
  case xlde => exact (exec_xlde_accesses ok read aligned).traps issues fails
  case bldlOutside => exact exec_bldl_of_outside issues ok read outside
  case bldlOdd => exact exec_bldl_of_misaligned issues ok read inside odd

end Sys2Proof.Machine
end

section
/-! PROOF. Operations that leave the memory and the page table of every core as they are: logs, messages and bookkeeping. -/

namespace Sys2Proof.Machine

/-! ### Operations that change no core (R230, R378, R418) -/

section Cores
variable {s : State}

theorem State.foldl_cores {α : Type} {f : State → α → State} (keeps : ∀ t x, (f t x).cores = t.cores) (l : List α) (s : State) :
    (l.foldl f s).cores = s.cores :=
  List.foldlRecOn (motive := fun t => t.cores = s.cores) l f rfl fun t same x _ => (keeps t x).trans same

theorem State.modLaunch_cores (x : Nat) (h : BitVec 32) (f : Launch → Launch) : (s.modLaunch x h f).cores = s.cores := by
  unfold State.modLaunch
  split <;> rfl

theorem State.writeBack_cores (line : Nat) (l : L2Line) : (s.writeBack line l).cores = s.cores := by
  unfold State.writeBack
  split <;> rfl

theorem State.makeRoomAt_cores (slice : Nat) : (s.makeRoomAt slice).cores = s.cores := by
  unfold State.makeRoomAt
  split
  · rfl
  · dsimp only
    split
    · exact State.writeBack_cores ..
    · rfl

theorem State.install_cores (line slice : Nat) (l : L2Line) : (s.install line slice l).cores = s.cores := by
  unfold State.install
  rw [State.modL2_cores]
  split
  · rfl
  · exact State.makeRoomAt_cores slice

theorem State.deviceWrite_cores (pa : Nat) (bs : List Byte) : (s.deviceWrite pa bs).cores = s.cores := by
  unfold State.deviceWrite
  dsimp only
  split
  · rfl
  · rw [State.modL2_cores, State.install_cores]

theorem State.deviceWriteAll_cores (n pa : Nat) (bs : List Byte) (s : State) : (s.deviceWriteAll pa bs n).cores = s.cores := by
  induction n generalizing pa bs s with
  | zero => rfl
  | succ n ih =>
    unfold State.deviceWriteAll
    split
    · rfl
    · exact (ih ..).trans (State.deviceWrite_cores ..)

theorem State.readThrough_cores (line : Nat) : (s.readThrough line).cores = s.cores := by
  unfold State.readThrough
  split
  · rfl
  · split
    · rfl
    · exact State.install_cores ..

theorem State.signalRead_cores (line : Nat) : (s.signalRead line).cores = s.cores := by
  unfold State.signalRead
  split
  · rfl
  · exact State.readThrough_cores line

theorem State.walkRead_cores (ctx va : Nat) : (s.walkRead ctx va).cores = s.cores :=
  State.foldl_cores (fun _ line => State.signalRead_cores line) _ s

theorem State.writeRecord_cores (ctx : Nat) (l : Launch) (n word : Nat) (image : List Byte) :
    (s.writeRecord ctx l n word image).cores = s.cores := by
  unfold State.writeRecord
  split
  · exact (State.deviceWriteAll_cores ..).trans (State.walkRead_cores ..)
  · rfl

theorem State.countOutside_cores (p : Place) (lines : List Nat) : (s.countOutside p lines).cores = s.cores := by
  unfold State.countOutside
  split
  · refine State.foldl_cores (fun t x => ?_) lines s
    split <;> rfl
  · rfl

theorem State.releaseFar_cores (ctx : Nat) (h : BitVec 32) : (s.releaseFar ctx h).cores = s.cores := by
  unfold State.releaseFar
  split
  · rfl
  · refine (State.foldl_cores (fun t x => ?_) _ _).trans (State.modLaunch_cores ..)
    dsimp only
    split
    · rfl
    · exact State.countOutside_cores ..

/-- The undo log of a store is device memory (R378). -/
theorem State.logBlock_cores (a : Agent) (word : Nat) (image : List Byte) : (s.logBlock a word image).cores = s.cores := by
  unfold State.logBlock
  split
  · rfl
  · split
    · rfl
    · split
      · exact (State.modLaunch_cores ..).trans (State.releaseFar_cores ..)
      · exact (State.modLaunch_cores ..).trans (State.writeRecord_cores ..)

theorem State.logLocal_cores (a : Agent) (c addr : Nat) : (s.logLocal a c addr).cores = s.cores := by
  unfold State.logLocal
  split
  · rfl
  · exact State.logBlock_cores ..

end Cores

/-! ### Operations that change no memory and no page table -/

/-- The memory and the page table of every core are as before. -/
structure SameMemory (s t : State) : Prop where
  store : ∀ c, (t.core c).store = (s.core c).store
  frames : ∀ c, (t.core c).frames = (s.core c).frames

section Same
variable {s t u : State}

theorem SameMemory.refl (s : State) : SameMemory s s := ⟨fun _ => rfl, fun _ => rfl⟩

theorem SameMemory.trans (h : SameMemory s t) (k : SameMemory t u) : SameMemory s u :=
  ⟨fun c => (k.store c).trans (h.store c), fun c => (k.frames c).trans (h.frames c)⟩

theorem SameMemory.of_cores (same : t.cores = s.cores) : SameMemory s t := by
  have core (c : Nat) : t.core c = s.core c := by unfold State.core; rw [same]
  exact ⟨fun c => by rw [core], fun c => by rw [core]⟩

theorem SameMemory.of_sameOutside {i : Issue} (h : SameOutside i s t) : SameMemory s t := by
  constructor <;> intro c <;> by_cases own : c = i.core
  · subst own; rw [h.core]
  · rw [h.others c own]
  · subst own; rw [h.core]
  · rw [h.others c own]

theorem sameMemory_foldl {α : Type} {f : State → α → State} (keeps : ∀ t x, SameMemory t (f t x)) (l : List α) (s : State) :
    SameMemory s (l.foldl f s) :=
  List.foldlRecOn (motive := SameMemory s) l f (.refl s) fun t same x _ => same.trans (keeps t x)

theorem sameMemory_modCore (c : Nat) {f : CoreState → CoreState} (store : ∀ k, (f k).store = k.store)
    (frames : ∀ k, (f k).frames = k.frames) : SameMemory s (s.modCore c f) := by
  constructor <;> intro d <;> rw [State.core_modCore] <;> split
  · subst d; exact store _
  · rfl
  · subst d; exact frames _
  · rfl

theorem sameMemory_modCluster (c : Nat) (f : ClusterPart → ClusterPart) : SameMemory s (s.modCluster c f) :=
  sameMemory_modCore c (fun _ => rfl) fun _ => rfl

theorem sameMemory_modHandlers (c : Nat) (f : HandlerPart → HandlerPart) : SameMemory s (s.modHandlers c f) :=
  sameMemory_modCore c (fun _ => rfl) fun _ => rfl

theorem sameMemory_modUnit (c u : Nat) (f : Resident → Resident) : SameMemory s (s.modUnit c u f) :=
  sameMemory_modCore c (fun _ => rfl) fun _ => rfl

theorem sameMemory_modOut (c : Nat) (who : Issuer) (f : List Outstanding → List Outstanding) : SameMemory s (s.modOut c who f) := by
  unfold State.modOut
  split
  · exact sameMemory_modUnit ..
  · exact sameMemory_modUnit ..
  · exact sameMemory_modHandlers ..
  · exact .refl s

/-! #### Messages (R12, R312, R324, R326) -/

theorem sameMemory_post (c : Nat) (cls : MsgClass) (m : Msg) : SameMemory s (s.post c cls m) :=
  sameMemory_modCore c (fun _ => rfl) fun _ => rfl

theorem sameMemory_send (src dst : Nat) (cls : MsgClass) (m : Msg) : SameMemory s (s.send src dst cls m) := .of_cores rfl

theorem sameMemory_release (src dst : Nat) (cls : MsgClass) (m : Msg) : SameMemory s (s.release src dst cls m) := by
  unfold State.release
  split
  · exact sameMemory_post ..
  · exact sameMemory_send ..

theorem sameMemory_releaseOut (c : Nat) (o : OutMsg) : SameMemory s (s.releaseOut c o) := by
  unfold State.releaseOut
  split
  · exact (sameMemory_modHandlers ..).trans (sameMemory_release ..)
  · dsimp only
    split
    · exact sameMemory_modHandlers ..
    · exact (sameMemory_modHandlers ..).trans (sameMemory_release ..)
  · exact sameMemory_release ..

theorem sameMemory_releaseThrough (c : Nat) (cls : MsgClass) (l : List OutMsg) (s : State) :
    SameMemory s (s.releaseThrough c cls l) := by
  induction l generalizing s with
  | nil => exact .refl s
  | cons o more ih =>
    unfold State.releaseThrough
    split
    · exact ((sameMemory_modHandlers ..).trans (sameMemory_releaseOut ..)).trans (ih _)
    · exact .refl s

theorem sameMemory_ahead (c : Nat) (cls : MsgClass) : SameMemory s (s.ahead c cls) := sameMemory_releaseThrough ..

theorem sameMemory_renewWatchers (c ctx line : Nat) : SameMemory s (s.renewWatchers c ctx line) :=
  sameMemory_foldl (fun _ _ => sameMemory_release ..) _ s

theorem sameMemory_sentStores (i : Issue) (id n : Nat) : SameMemory s (s.sentStores i id n) := by
  unfold State.sentStores
  split
  · exact .refl s
  · exact sameMemory_modOut ..

end Same

end Sys2Proof.Machine
end

section
/-! PROOF. What stores leave of local space (O16). -/

namespace Sys2Proof.Machine

/-! ### Local space (R219, R220) -/

/-- Every core's memory and page table are in canonical form. -/
def State.Canonical (s : State) : Prop := ∀ c, Memory.wf (s.core c).store = true ∧ SMap.wf (s.core c).frames = true

theorem State.Canonical.of_sameMemory {s t : State} (h : s.Canonical) (same : SameMemory s t) : t.Canonical := fun c => by
  rw [same.store, same.frames]
  exact h c

/-- A byte of local space is one of the frame that holds its page. -/
theorem State.localByte_eq (s : State) (c x a : Nat) : s.localByte c x a =
    (((s.core c).frameOf x (a / 4096)).map (·.1)).elim Memory.blank fun i => Memory.read (s.core c).store (4096 * i + a % 4096) := by
  unfold State.localByte
  dsimp only
  cases (s.core c).frameOf x (a / 4096) <;> rfl

theorem SameMemory.localByte {s t : State} (same : SameMemory s t) (c x a : Nat) : t.localByte c x a = s.localByte c x a := by
  rw [State.localByte_eq, State.localByte_eq, same.store]
  unfold CoreState.frameOf
  rw [same.frames]

theorem SMap.above_of_mem {β : Type} {m : SMap β} {lo : Nat} (h : SMap.above lo m = true) {e : Nat × β} (mem : e ∈ m) : lo < e.1 := by
  induction m generalizing lo with
  | nil => cases mem
  | cons x r ih =>
    obtain ⟨first, rest⟩ : lo < x.1 ∧ SMap.above x.1 r = true := by simpa [SMap.above] using h
    rcases List.mem_cons.mp mem with rfl | mem
    · exact first
    · exact Nat.lt_trans first (ih rest mem)

/-- An entry of a map with rising keys is the one that its key finds. -/
theorem SMap.find_of_mem {β : Type} {m : SMap β} (w : SMap.wf m = true) {k : Nat} {v : β} (mem : (k, v) ∈ m) :
    SMap.find m k = some v := by
  induction m with
  | nil => cases mem
  | cons e r ih =>
    obtain ⟨i, x⟩ := e
    rcases List.mem_cons.mp mem with same | mem
    · cases same
      exact if_pos rfl
    · have above : i < k := SMap.above_of_mem (m := r) w mem
      rw [SMap.find, if_neg (by omega), if_neg (by omega)]
      exact ih (SMap.wf_of_above w) mem

/-- Replacing the entry of a key by one of which a test says the same leaves the key of the first entry that passes. -/
theorem SMap.find?_put_key {β : Type} {m : SMap β} {p : Nat × β → Bool} {k : Nat} {v w : β} (here : SMap.find m k = some v)
    (same : p (k, w) = p (k, v)) : ((SMap.put m k w).find? p).map (·.1) = (m.find? p).map (·.1) := by
  induction m with
  | nil => cases here
  | cons e r ih =>
    obtain ⟨i, x⟩ := e
    unfold SMap.find at here
    unfold SMap.put
    split at here
    · next eq =>
      cases here
      subst eq
      simp only [if_true, List.find?_cons, same]
      cases p (i, v) <;> rfl
    · next ne =>
      split at here
      · cases here
      · next ge =>
        simp only [if_neg ne, if_neg ge, List.find?_cons]
        cases p (i, x)
        · exact ih here
        · rfl

/-- Canonical form is kept, and no byte of local space changes but those that `hit` names by core, context and address. -/
def State.KeepsBut (s t : State) (hit : Nat → Nat → Nat → Prop) : Prop :=
  s.Canonical → t.Canonical ∧ ∀ c x a, ¬ hit c x a → t.localByte c x a = s.localByte c x a

section Keeps
variable {s t u : State} {hit : Nat → Nat → Nat → Prop}

theorem State.KeepsBut.of_sameMemory (same : SameMemory s t) : s.KeepsBut t hit :=
  fun canonical => ⟨canonical.of_sameMemory same, fun c x a _ => same.localByte c x a⟩

theorem State.KeepsBut.trans (h : s.KeepsBut t hit) (k : t.KeepsBut u hit) : s.KeepsBut u hit := fun canonical =>
  have first := h canonical
  have second := k first.1
  ⟨second.1, fun c x a out => (second.2 c x a out).trans (first.2 c x a out)⟩

theorem State.keepsBut_foldl {α : Type} {f : State → α → State} {l : List α}
    (keeps : ∀ t : State, ∀ x ∈ l, t.KeepsBut (f t x) hit) (s : State) :
    s.KeepsBut (l.foldl f s) hit :=
  List.foldlRecOn (motive := fun t => s.KeepsBut t hit) l f (.of_sameMemory (.refl s)) fun t kept x mem => kept.trans (keeps t x mem)

/-- The frame of a page is an entry of the page table, of that context and page. -/
theorem CoreState.frameOf_eq_some {k : CoreState} (w : SMap.wf k.frames = true) {ctx page i : Nat} {f : Frame}
    (frame : k.frameOf ctx page = some (i, f)) : SMap.find k.frames i = some f ∧ f.ctx = ctx ∧ f.page = page ∧ f.old = none := by
  have passes := List.find?_some frame
  simp only [Bool.and_eq_true, beq_iff_eq, Option.isNone_iff_eq_none] at passes
  exact ⟨SMap.find_of_mem w (List.mem_of_find?_eq_some frame), passes.1.1, passes.1.2, passes.2⟩

theorem Frame.accessed_place (f : Frame) (write : Bool) (order : Nat) :
    (f.accessed write order).ctx = f.ctx ∧ (f.accessed write order).page = f.page ∧ (f.accessed write order).old = f.old := by
  unfold Frame.accessed
  dsimp only
  split
  · exact ⟨rfl, rfl, rfl⟩
  · split
    · split <;> exact ⟨rfl, rfl, rfl⟩
    · exact ⟨rfl, rfl, rfl⟩
  · split <;> exact ⟨rfl, rfl, rfl⟩
  · exact ⟨rfl, rfl, rfl⟩

/-- A core after one byte of a page's frame was written (R220, R221). -/
def CoreState.written (k : CoreState) (i : Nat) (f : Frame) (a : Nat) (b : Byte) : CoreState :=
  { k with
    store := Memory.write k.store (4096 * i + a % 4096) b
    frames := SMap.put k.frames i (f.accessed true (k.order + 1))
    order := k.order + 1 }

/-- Every page keeps its frame. -/
theorem CoreState.frameOf_written {k : CoreState} {i : Nat} {f : Frame} (here : SMap.find k.frames i = some f) (a : Nat) (b : Byte)
    (x page : Nat) : ((k.written i f a b).frameOf x page).map (·.1) = (k.frameOf x page).map (·.1) := by
  obtain ⟨ctx, own, old⟩ := f.accessed_place true (k.order + 1)
  exact SMap.find?_put_key here (by simp only [ctx, own, old])

/-- One byte of local space written: distinct addresses of a core's contexts lie at distinct places of its memory. -/
theorem State.keepsBut_written {c ctx a i : Nat} {f : Frame} {b : Byte} (frame : (s.core c).frameOf ctx (a / 4096) = some (i, f))
    (here : hit c ctx a) : s.KeepsBut (s.setCore c ((s.core c).written i f a b)) hit := by
  intro canonical
  obtain ⟨store, frames⟩ := canonical c
  obtain ⟨entry, owner, page, -⟩ := CoreState.frameOf_eq_some frames frame
  refine ⟨fun d => ?_, fun d x a' out => ?_⟩
  · rw [State.core_setCore]
    split
    · exact ⟨Memory.wf_write store _ _, SMap.wf_put frames _ _⟩
    · exact canonical d
  · rw [State.localByte_eq, State.localByte_eq, State.core_setCore]
    split
    · subst d
      rw [CoreState.frameOf_written entry]
      cases other : (s.core c).frameOf x (a' / 4096) with
      | none => rfl
      | some e =>
        obtain ⟨i', f'⟩ := e
        obtain ⟨entry', owner', page', -⟩ := CoreState.frameOf_eq_some frames other
        refine (Memory.read_write store _ _ _).trans (if_neg fun place => out ?_)
        dsimp only at place
        obtain rfl : i' = i := by omega
        obtain rfl : f' = f := Option.some.inj (entry'.symm.trans entry)
        obtain rfl : x = ctx := owner'.symm.trans owner
        obtain rfl : a' = a := by omega
        exact here
    · rfl

/-- Bytes stored at an address change no other byte. -/
theorem State.keepsBut_putLocal {c ctx a : Nat} {bs : List Byte} (here : ∀ j < bs.length, hit c ctx (a + j)) :
    s.KeepsBut (s.putLocal c ctx a bs) hit := by
  refine State.keepsBut_foldl (fun t x mem => ?_) s
  obtain ⟨b, j⟩ := x
  dsimp only
  split
  · refine State.keepsBut_written ‹_› (here j ?_)
    have bound := List.mem_zipIdx mem
    omega
  · exact .of_sameMemory (.refl t)

theorem State.keepsBut_storeAt {g : Agent} {c addr at' : Nat} {bs : List Byte} (here : ∀ j < bs.length, hit c g.ctx (addr + j)) :
    s.KeepsBut (s.storeAt g c addr bs at') hit := by
  unfold State.storeAt
  exact ((State.KeepsBut.of_sameMemory (.of_cores (State.logLocal_cores ..))).trans (State.keepsBut_putLocal here)).trans
    (.of_sameMemory ((sameMemory_modCluster ..).trans (sameMemory_renewWatchers ..)))

theorem State.keepsBut_storeBytes {g : Agent} {c line at' : Nat} {writes : List (Nat × Byte)} (here : ∀ x ∈ writes, hit c g.ctx x.1) :
    s.KeepsBut (s.storeBytes g c line writes at') hit := by
  unfold State.storeBytes
  refine ((State.KeepsBut.of_sameMemory (.of_cores (State.logLocal_cores ..))).trans (State.keepsBut_foldl (fun t x mem => ?_) _)).trans
    (.of_sameMemory ((sameMemory_modCluster ..).trans (sameMemory_renewWatchers ..)))
  refine State.keepsBut_putLocal fun j small => ?_
  obtain rfl : j = 0 := by simpa using small
  exact here x mem

theorem State.keepsBut_storeLocal {g : Agent} {c addr n v : Nat} (here : ∀ j < n, hit c g.ctx (addr + j)) :
    s.KeepsBut (s.storeLocal g c addr n v) hit := by
  unfold State.storeLocal
  exact (State.keepsBut_storeAt fun j small => here j (by rwa [bytesOfNat_length] at small)).trans
    (.of_sameMemory (sameMemory_modCluster ..))

end Keeps

/-! ### Stores of a unit's lanes (R181, R192) -/

/-- The n bytes at each target, in the local space of a context of the target's core. -/
def StoredAt (ctx n : Nat) (ts : List Target) (c x a : Nat) : Prop := ∃ y ∈ ts, c = y.core ∧ x = ctx ∧ y.off ≤ a ∧ a < y.off + n

section Stores
variable {s t u w : State} {i : Issue} {n : Nat} {ts : List Target} {v : Nat → Nat}

theorem State.KeepsBut.keepsLocal (h : s.KeepsBut t (StoredAt i.ctx n ts)) (canonical : s.Canonical) : s.KeepsLocal t i.ctx n ts :=
  fun c x a out => (h canonical).2 c x a fun ⟨y, mem, hit⟩ => out y mem hit

theorem Target.stored {y : Target} (mem : y ∈ ts) {j : Nat} (small : j < n) : StoredAt i.ctx n ts y.core i.ctx (y.off + j) :=
  ⟨y, mem, rfl, rfl, by omega, by omega⟩

/-- What a line's message writes are bytes of the targets. -/
theorem lineWrites_stored {line : Nat × Nat} {x : Nat × Byte} (mem : x ∈ lineWrites ts n v line) :
    StoredAt i.ctx n ts line.1 i.ctx x.1 := by
  obtain ⟨y, target, bytes⟩ := List.mem_flatMap.mp mem
  obtain ⟨own, passes⟩ := List.mem_filter.mp target
  obtain ⟨core, -⟩ : y.core = line.1 ∧ y.off / 64 = line.2 := by simpa using passes
  obtain ⟨⟨b, j⟩, place, rfl⟩ := List.mem_map.mp bytes
  have small : j < n := by
    have bound := List.mem_zipIdx place
    rw [bytesOfNat_length] at bound
    omega
  rw [← core]
  exact Target.stored own small

theorem State.keepsBut_ownStores : s.KeepsBut
    ((ts.filter (·.core == i.core)).foldl (fun s t => s.storeLocal i.agent i.core t.off n (v t.lane)) s) (StoredAt i.ctx n ts) := by
  refine State.keepsBut_foldl (fun t y mem => State.keepsBut_storeLocal fun j small => ?_) s
  obtain ⟨own, here⟩ := List.mem_filter.mp mem
  rw [← beq_iff_eq.mp here]
  exact Target.stored own small

/-- R192: a store to a line that the core owns. -/
theorem State.keepsBut_ownedStore (line : Nat × Nat) : s.KeepsBut
    (let t := s.storeBytes i.agent line.1 line.2 (lineWrites ts n v line) (s.core i.core).cluster.clock
     (t.raiseClock i.core ((t.core line.1).cluster.home line.2).wts).setOwner line.1 line.2 (some i.core)) (StoredAt i.ctx n ts) :=
  (State.keepsBut_storeBytes fun _ mem => lineWrites_stored mem).trans
    (.of_sameMemory ((sameMemory_modCluster ..).trans (sameMemory_modCluster ..)))

/-- The stores of a unit write nothing but the bytes at their targets. -/
theorem State.keepsBut_storeLanes (ready : s.storeLanes i n ts v = .ready () w) : s.KeepsBut w (StoredAt i.ctx n ts) := by
  unfold State.storeLanes at ready
  split at ready
  · cases ready
  · cases ready
  · injection ready with _ state
    rw [← state]
    refine State.KeepsBut.trans ?sent (.of_sameMemory (sameMemory_sentStores ..))
    refine State.KeepsBut.trans ?owned (State.keepsBut_foldl (fun t line _ =>
      .of_sameMemory ((sameMemory_ahead ..).trans (sameMemory_send ..))) _)
    refine State.KeepsBut.trans ?own (State.keepsBut_foldl (fun t line _ => State.keepsBut_ownedStore line) _)
    exact State.keepsBut_ownStores.trans (.of_sameMemory (sameMemory_modCore _ (fun _ => rfl) fun _ => rfl))

/-- From the state before a storing unit to the one after it. -/
theorem State.keepsLocal_of_stores {z : State} (canonical : s.Canonical) (before : SameOutside i s u)
    (ready : u.storeLanes i n ts v = .ready () w) (after : SameOutside i w z) : s.KeepsLocal z i.ctx n ts :=
  (((State.KeepsBut.of_sameMemory (.of_sameOutside before)).trans (State.keepsBut_storeLanes ready)).trans
    (.of_sameMemory (.of_sameOutside after))).keepsLocal canonical

end Stores

/-- Settles O16: operands, messages and the end of the unit leave every memory, and each store writes the bytes at its targets. -/
theorem storeFrame : Obligations.StoreFrame := by
  unfold Obligations.StoreFrame
  intro t b d a o sz g s u w i v canonical
  refine ⟨fun p x form issues src base read safe ready => ?word, fun issues src base index read safe ready => ?indexed,
    fun issues ok read aligned safe ready => ?ranked⟩
  case word =>
    rw [exec_of_store form]
    refine ⟨_, (storeUnit_accesses src base read).done issues safe (State.stores_of_ready ready), ?_⟩
    exact State.keepsLocal_of_stores canonical (sameOutside_awake.trans (sameOutside_operands (by simp [src, base]) read)) ready
      (sameOutside_finished _)
  case indexed =>
    refine ⟨_, (exec_stx_accesses src base index read).done issues safe (State.stores_of_ready ready), ?_⟩
    exact State.keepsLocal_of_stores canonical (sameOutside_awake.trans (sameOutside_operands (by simp [src, base, index]) read)) ready
      (sameOutside_finished _)
  case ranked =>
    refine ⟨_, exec_cstr_of_isOk issues ok read aligned safe ready, ?_⟩
    have srcs : ([(Cls.nat, a), (Cls.nat, b)].all fun x => i.regOk false x.1 x.2) = true := by
      simp only [Issue.plainRegs, List.all_cons, List.all_nil, Bool.and_true, Bool.and_eq_true] at ok
      simp [ok]
    exact State.keepsLocal_of_stores canonical (sameOutside_awake.trans (sameOutside_operands srcs read)) ready
      ((sameOutside_writeLanes ..).trans (sameOutside_finished _))

end Sys2Proof.Machine
end

section
/-! PROOF. The events of cluster space, and the departures of barriers (O37). -/

namespace Sys2Proof.Machine

/-! ### At homes (R180 to R183, R190 to R192, R197, R223) -/

section Homes
variable {s t : State} {c n ctx src line clock : Nat} {x : Context} {run : Option Nat} {a : Asker}

/-- A renewal that its home may take. -/
structure RenewalDue (s : State) (c n ctx src line clock : Nat) (x : Context) (run : Option Nat) : Prop where
  msg : s.message c .req n = some ⟨src, .renew line clock, run⟩
  holds : s.holder c = some (ctx, x)
  turn : s.inTurn c .req n = true
  room : s.replyRoom c src = true

/-- R191, R192: the home extends the lease of a line whose page is there, and returns the line. -/
theorem exec_leaseRenewal_of_ready (due : RenewalDue s c n ctx src line clock x run)
    (ready : s.pages c ctx [64 * line] (some (.reader src line)) = .ready) :
    let h := ((s.core c).cluster.home line).renew clock
    let t := ((s.take c .req n).touch c ctx (64 * line)).modCluster c fun p => { p with homes := SMap.put p.homes line h }
    exec (.leaseRenewal c n) s = .next (t.reply c src (.renewed line (t.localBytes c ctx (64 * line) 64) h.wts h.rts)) := by
  obtain ⟨msg, holds, turn, room⟩ := due
  change execLeaseRenewal c n s = _
  simp only [execLeaseRenewal, msg, holds, turn, room, ready, Bool.not_true, Bool.or_self, Bool.false_eq_true, if_false]

/-- R223: the cause of a refused page goes back in place of the line. -/
theorem exec_leaseRenewal_of_refused {addr cause : Nat} (due : RenewalDue s c n ctx src line clock x run)
    (refused : s.pages c ctx [64 * line] (some (.reader src line)) = .refused addr cause t) :
    exec (.leaseRenewal c n) s = .next ((t.take c .req n).reply c src (.renewed line [] cause 0)) := by
  obtain ⟨msg, holds, turn, room⟩ := due
  change execLeaseRenewal c n s = _
  simp only [execLeaseRenewal, msg, holds, turn, room, refused, Bool.not_true, Bool.or_self, Bool.false_eq_true, if_false]

/-- A request of a stream that its home may take: in its turn, with room for the answer. -/
structure RequestDue (s : State) (c n src : Nat) (m : Msg) (run : Option Nat) (a : Asker) : Prop where
  msg : s.message c .req n = some ⟨src, m, run⟩
  turn : s.inTurn c .req n = true
  room : s.replyRoom c a.core = true

/-- R192: a store is performed at its home, whose line the writer may then own (log entry 8), and acknowledged. -/
theorem exec_storeAtHome_of_store {w : Nat × Byte} {more : List (Nat × Byte)}
    (due : RequestDue s c n src (.store (w :: more) clock a) run a)
    (ready : s.pages c a.agent.ctx (w.1 :: more.map (·.1)) (some a.waiter) = .ready) :
    let t := (s.take c .req n).storeBytes a.agent c (w.1 / 64) (w :: more) clock
    let time := ((t.core c).cluster.home (w.1 / 64)).wts
    exec (.storeAtHome c n) s = .next (((t.mayOwn c (w.1 / 64) a.core).performed a time).reply c a.core (.ack time [] a)) := by
  obtain ⟨msg, turn, room⟩ := due
  change execStoreAtHome c n s = _
  simp only [execStoreAtHome, msg, turn, room, List.map_cons, ready, List.head?_cons, Option.map_some, Option.getD_some, Bool.not_true,
    Bool.or_self, Bool.false_eq_true, if_false]

/-- R183, R197: the atomics of a unit are performed as adjacent events, and the values replaced go back. -/
theorem exec_storeAtHome_of_atomics {ops : List (Nat × Nat × AtomicOp × Word)} {answer : Bool} {olds : List (Nat × Word)} {time : Nat}
    (due : RequestDue s c n src (.atomics ops answer clock a) run a)
    (ready : s.pages c a.agent.ctx (ops.map (·.2.1)) (some a.waiter) = .ready)
    (performed : (s.take c .req n).performAtomics a.agent c clock ops = (olds, time, t)) : exec (.storeAtHome c n) s =
      .next ((t.performed a time).reply c a.core (.ack time (if answer then olds else []) a)) := by
  obtain ⟨msg, turn, room⟩ := due
  change execStoreAtHome c n s = _
  simp only [execStoreAtHome, msg, turn, room, ready, performed, Bool.not_true, Bool.or_self, Bool.false_eq_true, if_false]

/-- R223: a store to a refused page leaves a trap to its stream. -/
theorem exec_storeAtHome_of_refused {writes : List (Nat × Byte)} {addr cause : Nat}
    (due : RequestDue s c n src (.store writes clock a) run a)
    (refused : s.pages c a.agent.ctx (writes.map (·.1)) (some a.waiter) = .refused addr cause t) :
    exec (.storeAtHome c n) s = .next ((t.take c .req n).refuseAtHome c a cause addr) := by
  obtain ⟨msg, turn, room⟩ := due
  change execStoreAtHome c n s = _
  simp only [execStoreAtHome, msg, turn, room, refused, Bool.not_true, Bool.or_self, Bool.false_eq_true, if_false]

end Homes

/-! ### At requesters (R183, R191, R193, R200, R201) -/

section Requesters
variable {s : State} {c n src line clock : Nat} {run : Option Nat} {a : Asker}

/-- The requester of a line, with what it has asked for taken back (R191). -/
def State.renewalTaken (s : State) (c n src line : Nat) : State :=
  (s.take c .rsp n).modCluster c fun p => { p with
    asked := p.asked.erase (src, line), readers := p.readers.filter (·.1 != lineKey src line) }

/-- The loads that wait for a line (R223). -/
def State.readersOf (s : State) (c src line : Nat) : List Issuer :=
  ((s.core c).cluster.readers.filter (·.1 == lineKey src line)).map (·.2)

theorem exec_clusterLoadReply_of_renewed {bytes : List Byte} {wts rts : Nat}
    (msg : s.message c .rsp n = some ⟨src, .renewed line bytes wts rts, run⟩) : exec (.clusterLoadReply c n) s =
      .next (if bytes = [] then (if s.readersOf c src line = [] then s.renewalTaken c n src line
          else (s.renewalTaken c n src line).cacheLine c (lineKey src line) ⟨[], 0, 0, some wts, s.readersOf c src line⟩)
        else (s.renewalTaken c n src line).cacheLine c (lineKey src line) ⟨bytes, wts, rts, none, []⟩) := by
  change execClusterLoadReply c n s = _
  simp only [execClusterLoadReply, msg, List.isEmpty_iff]
  rfl

theorem exec_storeAcknowledgement_of_ack {olds : List (Nat × Word)} (msg : s.message c .rsp n = some ⟨src, .ack clock olds a, run⟩) :
    exec (.storeAcknowledgement c n) s = .next (if olds = [] then ((s.take c .rsp n).acknowledge a).raiseClock c clock
      else (((s.take c .rsp n).acknowledge a).raiseClock c clock).takeValues a olds) := by
  change execStoreAcknowledgement c n s = _
  simp only [execStoreAcknowledgement, msg, List.isEmpty_iff]

theorem exec_storeAcknowledgement_of_post {accepted : Bool} {m : Nat} {v : Dword}
    (msg : s.message c .rsp n = some ⟨src, .postAnswer accepted m v a, run⟩) :
    exec (.storeAcknowledgement c n) s = .next ((s.take c .rsp n).postAnswered c src accepted m a) := by
  change execStoreAcknowledgement c n s = _
  simp only [execStoreAcknowledgement, msg]

/-- Every stream of a core polls (R201). -/
def State.pollStreams (s : State) (c : Nat) : State := { s with agenda := ((s.core c).streams c).map Turn.poll ++ s.agenda }

/-- No line of the cache is newer than a pushed one (R193). -/
def State.admits (s : State) (c key wts : Nat) : Prop := ∀ l, SMap.find (s.core c).cluster.cache key = some l → l.wts ≤ wts

section Watched
variable {home wts rts : Nat} {bytes : List Byte}

/-- A pushed line enters the cache where none newer stands and the home is another core, and every stream polls (R193, R201). -/
theorem exec_watchRenewal_of_watched {newer : Bool} (msg : s.message c .ctl n = some ⟨src, .watched home line bytes wts rts, run⟩)
    (turn : s.inTurn c .ctl n = true) (admits : newer = true ↔ (s.take c .ctl n).admits c (lineKey home line) wts) :
    exec (.watchRenewal c n) s = .next (State.pollStreams (if newer && home != c then
      (s.take c .ctl n).cacheLine c (lineKey home line) ⟨bytes, wts, rts, none, []⟩ else s.take c .ctl n) c) := by
  have stands : newer = match SMap.find ((s.take c .ctl n).core c).cluster.cache (lineKey home line) with
      | some l => decide (l.wts ≤ wts)
      | none => true := by
    rw [Bool.eq_iff_iff, admits, State.admits]
    split <;> simp_all
  change execWatchRenewal c n s = _
  rw [stands]
  simp only [execWatchRenewal, msg, turn, Bool.not_true, Bool.false_eq_true, if_false]
  rfl

theorem exec_watchRenewal_of_newer (msg : s.message c .ctl n = some ⟨src, .watched home line bytes wts rts, run⟩)
    (turn : s.inTurn c .ctl n = true) (newer : (s.take c .ctl n).admits c (lineKey home line) wts) (other : home ≠ c) :
    exec (.watchRenewal c n) s =
      .next (((s.take c .ctl n).cacheLine c (lineKey home line) ⟨bytes, wts, rts, none, []⟩).pollStreams c) := by
  rw [exec_watchRenewal_of_watched msg turn (iff_of_true rfl newer), if_pos (by simp [other])]

theorem exec_watchRenewal_of_older (msg : s.message c .ctl n = some ⟨src, .watched home line bytes wts rts, run⟩)
    (turn : s.inTurn c .ctl n = true) (older : ¬ ((s.take c .ctl n).admits c (lineKey home line) wts ∧ home ≠ c)) :
    exec (.watchRenewal c n) s = .next ((s.take c .ctl n).pollStreams c) := by
  by_cases newer : (s.take c .ctl n).admits c (lineKey home line) wts
  · have own : home = c := by simpa [newer] using older
    rw [exec_watchRenewal_of_watched msg turn (iff_of_true rfl newer), if_neg (by simp [own])]
  · rw [exec_watchRenewal_of_watched msg turn (iff_of_false Bool.false_ne_true newer), if_neg (by simp)]

end Watched

theorem exec_podArrival_of_due {setId : BitVec 16} {id : Nat}
    (due : s.cores.findSome? (fun k => ((k.2.inbox .ctl).findIdx? fun m => m.msg == .podArrive setId id).map fun n => (k.1, n)) =
      some (c, n)) (turn : s.inTurn c .ctl n = true) :
    exec (.podArrival setId id) s = .next ((s.take c .ctl n).countPod setId id) := by
  change execPodArrival setId id s = _
  simp only [execPodArrival, due, turn, Bool.not_true, Bool.false_eq_true, if_false]

end Requesters

/-! ### Element messages (R303 to R306, R441) -/

section Elements
variable {s t : State} {c n src origin clock : Nat} {run : Option Nat} {a : Asker} {part : Part} {op : ElementOp} {l : List Element}

theorem exec_elementMessage_of_part (due : RequestDue s c n src (.elements part op origin l clock a) run a) (rest : part.whole = false) :
    exec (.elementMessage c n) s = .next s := by
  change execElementMessage c n s = _
  simp only [execElementMessage, due.msg, rest, Bool.not_false, Bool.true_or, if_true]

theorem exec_elementMessage_of_ready {done : List Element} (due : RequestDue s c n src (.elements part op origin l clock a) run a)
    (whole : part.whole = true) (performed : s.performMessage c clock a op origin l = .ready done t) :
    exec (.elementMessage c n) s =
      .next ((t.take c .req n).replyTrain c (t.latestWrite c clock op done) a none done) := by
  obtain ⟨msg, turn, room⟩ := due
  change execElementMessage c n s = _
  simp only [execElementMessage, msg, turn, room, whole, performed, Bool.not_true, Bool.or_self, Bool.false_eq_true, if_false]

theorem exec_elementMessage_of_refused {r : TrapRec} (due : RequestDue s c n src (.elements part op origin l clock a) run a)
    (whole : part.whole = true) (refused : s.performMessage c clock a op origin l = .refused r t) :
    exec (.elementMessage c n) s = .next ((t.take c .req n).replyTrain c clock a (some r) l) := by
  obtain ⟨msg, turn, room⟩ := due
  change execElementMessage c n s = _
  simp only [execElementMessage, msg, turn, room, whole, refused, Bool.not_true, Bool.or_self, Bool.false_eq_true, if_false]

/-- A reply whose whole train has come reaches the unit that asked, with its records or its refusal (R303, R441). -/
theorem exec_elementReply_of_whole {refused : Option TrapRec}
    (msg : s.message c .rsp n = some ⟨src, .elementsDone part refused l clock a, run⟩) (whole : part.whole = true) :
    exec (.elementReply c n) s = .next ((refused.elim (((s.take c .rsp n).raiseClock c clock).elementsReturned a l) fun r =>
      ((s.take c .rsp n).raiseClock c clock).elementsRefused a r).acknowledge a) := by
  change execElementReply c n s = _
  simp only [execElementReply, msg, whole, Bool.not_true, Bool.false_eq_true, if_false]
  cases refused <;> rfl

end Elements

/-! ### Departures (R211 to R216, R419) -/

section Departures
variable {s : State}

theorem State.freeValues_cores (n : Nat) (acc : List Dword × State) :
    ((List.range n).foldl (fun (acc : List Dword × State) _ => (acc.1 ++ [acc.2.freeValue.1], acc.2.freeValue.2)) acc).2.cores =
      acc.2.cores :=
  List.foldlRecOn (motive := fun x : List Dword × State => x.2.cores = acc.2.cores) _ _ rfl fun _ same _ _ => same

theorem State.sums_cores (b : Barrier) (away : Bool) : (s.sums b away).2.cores = s.cores := by
  unfold State.sums
  split
  · exact State.freeValues_cores 8 ([], s)
  · rfl

/-- Every core has the units that it had. -/
structure SameUnits (s t : State) : Prop where
  units : ∀ c, (t.core c).units = (s.core c).units

theorem SameUnits.refl (s : State) : SameUnits s s := ⟨fun _ => rfl⟩

theorem SameUnits.trans {t u : State} (h : SameUnits s t) (k : SameUnits t u) : SameUnits s u :=
  ⟨fun c => (k.units c).trans (h.units c)⟩

theorem SameUnits.of_cores {t : State} (same : t.cores = s.cores) : SameUnits s t := ⟨fun c => by unfold State.core; rw [same]⟩

theorem sameUnits_modCore (c : Nat) {f : CoreState → CoreState} (units : ∀ k, (f k).units = k.units) : SameUnits s (s.modCore c f) := by
  refine ⟨fun d => ?_⟩
  rw [State.core_modCore]
  split
  · subst d; exact units _
  · rfl

theorem sameUnits_modCluster (c : Nat) (f : ClusterPart → ClusterPart) : SameUnits s (s.modCluster c f) :=
  sameUnits_modCore c fun _ => rfl

theorem sameUnits_setBarrier (c ctx scope id : Nat) (b : Barrier) : SameUnits s (s.setBarrier c ctx scope id b) := by
  unfold State.setBarrier
  split
  · exact sameUnits_modCore c fun _ => rfl
  · exact .of_cores rfl

theorem sameUnits_meet (cores : List Nat) : SameUnits s (s.meet cores) :=
  List.foldlRecOn (motive := SameUnits s) cores _ (.refl s) fun _ same _ _ => same.trans (sameUnits_modCluster ..)

/-- The barrier point changes the barrier and the clocks of its parties (R188, R211). -/
theorem sameUnits_passPoint (c ctx scope id : Nat) (b : Barrier) (away : Bool) : SameUnits s (s.passPoint c ctx scope id b away) := by
  unfold State.passPoint
  by_cases sums : b.parties.any (·.cntsum) = true
  · simp only [if_pos sums]
    exact ((SameUnits.of_cores (State.sums_cores ..)).trans (sameUnits_setBarrier ..)).trans (sameUnits_meet _)
  · simp only [if_neg sums]
    exact (sameUnits_setBarrier ..).trans (sameUnits_meet _)

theorem sameUnits_podReleased (ctx : Nat) (x : Context) (scope inst id : Nat) : SameUnits s (s.podReleased ctx x scope inst id) := by
  unfold State.podReleased
  split
  · exact .refl s
  · dsimp only
    split
    · exact .refl s
    · exact sameUnits_passPoint ..

theorem SameUnits.instanceUnits {t : State} (h : SameUnits s t) (x : Context) (scope inst : Nat) :
    t.instanceUnits x scope inst = s.instanceUnits x scope inst := by
  unfold State.instanceUnits
  simp only [h.units]

/-- The units that wait at a barrier's place depart, once a release from outside has ended their generation (R213, R419). -/
def State.departures (s : State) (x : Context) (ctx scope inst id : Nat) : State :=
  (s.instanceUnits x scope inst).foldl (fun t y => t.departUnit ctx scope id y.1 y.2) (s.podReleased ctx x scope inst id)

/-- R213, R419: after the release from outside (log entries 20, 87), the units that wait there depart, and what no party owes is dropped. -/
theorem exec_barrierDeparture_of_placed {ctx scope inst id : Nat} {x : Context} (context : s.context ctx = some x)
    (placed : x.placed = true) (ids : id < 16) (scopes : scope < 7) : exec (.barrierDeparture ctx scope inst id) s =
      .next (if scope = 0 then s.departures x ctx scope inst id
        else (s.departures x ctx scope inst id).settleRecords x ctx scope inst id) := by
  have checks : (!x.placed || decide (6 < scope) || decide (15 < id)) = false := by simp [placed]; omega
  change execBarrierDeparture ctx scope inst id s = _
  simp only [execBarrierDeparture, context, checks, Bool.false_eq_true, if_false,
    (sameUnits_podReleased ctx x scope inst id).instanceUnits, State.departures]

end Departures

/-- Settles O37: every clause is the lemma of its event, and the release from outside leaves the units that a
departure visits. -/
theorem clusterEvents : Obligations.ClusterEvents := by
  unfold Obligations.ClusterEvents
  refine ⟨fun s c n ctx src line clock x run a => ⟨fun msg holds turn room => ?renewal, fun bytes wts rts msg => ?reply,
    fun w more msg turn room => ?store, fun ops olds time t answer msg turn room => ?atomics,
    fun writes addr cause t msg turn room => ?refused, fun olds msg => ?ack, fun m v accepted => exec_storeAcknowledgement_of_post, rfl,
    fun home bytes wts rts msg turn => ?watched, fun ref => rfl, fun setId id => exec_podArrival_of_due,
    fun part op origin l msg turn room => ?elements, fun part l u p r msg whole who pending unit => ?returned,
    fun part refused l msg whole => exec_elementReply_of_whole msg whole⟩,
    fun s ctx scope inst id x context placed ids scopes => ?departs⟩
  case renewal =>
    have due : RenewalDue s c n ctx src line clock x run := ⟨msg, holds, turn, room⟩
    exact ⟨exec_leaseRenewal_of_ready due, fun addr cause t => exec_leaseRenewal_of_refused due⟩
  case reply =>
    have replies := exec_clusterLoadReply_of_renewed msg
    exact ⟨fun line => replies.trans (congrArg _ (if_neg line)),
      fun empty waits => replies.trans (congrArg _ ((if_pos empty).trans (if_neg waits))),
      fun empty none => replies.trans (congrArg _ ((if_pos empty).trans (if_pos none)))⟩
  case store => exact exec_storeAtHome_of_store ⟨msg, turn, room⟩
  case atomics => exact exec_storeAtHome_of_atomics ⟨msg, turn, room⟩
  case refused => exact exec_storeAtHome_of_refused ⟨msg, turn, room⟩
  case ack => exact exec_storeAcknowledgement_of_ack msg
  case watched => exact ⟨exec_watchRenewal_of_newer msg turn, exec_watchRenewal_of_older msg turn⟩
  case elements =>
    have due : RequestDue s c n src (.elements part op origin l clock a) run a := ⟨msg, turn, room⟩
    exact ⟨exec_elementMessage_of_part due, fun done t => exec_elementMessage_of_ready due,
      fun r t => exec_elementMessage_of_refused due⟩
  case returned =>
    rw [exec_elementReply_of_whole msg whole]
    simp only [Option.elim_none, State.elementsReturned, who, pending, unit]
  case departs =>
    have departs := exec_barrierDeparture_of_placed (inst := inst) context placed ids scopes
    exact ⟨fun lane => departs.trans (congrArg _ (if_pos lane)), fun wide => departs.trans (congrArg _ (if_neg wide))⟩

end Sys2Proof.Machine
end

section
/-! PROOF. The barrier words: what they share, how they arrive and wait, and what they trap on (O19). -/

namespace Sys2Proof.Machine

/-! ### The checks of every barrier word (R148, R208, R210, R214, R217) -/

/-- A barrier word is the shared unit with a body of its own. -/
theorem exec_of_barrierWord {x : Instr} {b : RegField} {sc : BitVec 3} {g : GuardField} {reads writes : List RegField} {lane : Bool}
    (word : barrierWord x = some (b, sc, g, reads, writes, lane)) :
    ∃ body, ∀ s, exec x s = barrierUnit lane reads writes sc b g body s := by
  unfold barrierWord at word
  split at word <;> cases word
  case h_1 => exact ⟨_, fun s => (show exec _ s = execBar b sc g s from rfl).trans rfl⟩
  case h_2 a => exact ⟨_, fun s => (show exec _ s = execBara a b sc g s from rfl).trans rfl⟩
  case h_3 a => exact ⟨_, fun s => (show exec _ s = execBarw a b sc g s from rfl).trans rfl⟩
  case h_4 a => exact ⟨_, fun s => (show exec _ s = execBarinit a b sc g s from rfl).trans rfl⟩
  case h_5 a => exact ⟨_, fun s => (show exec _ s = execCntsum a b sc g s from rfl).trans rfl⟩

section Shared
variable {g : GuardField} {s u : State} {i : Issue} {sc : BitVec 3} {id : RegField} {reads writes : List RegField} {lane : Bool}
  {body : Issue → Nat → Nat → State → Eff}

/-- A BARRIER trap of the unit, with its reason, scope and identifier (R217). -/
abbrev State.barrierTrapped (s : State) (i : Issue) (reason scope id : Nat) : State :=
  s.takeTrap i ⟨Cause.barrier, i.mask, 0, BitVec.ofNat 64 (reason + 16 * scope + 128 * id)⟩

theorem barrierUnit_of_reason {reason : Nat} (names : NamesBarrier g s i sc id reads writes lane)
    (why : s.awake.barrierReason i sc.toNat id.toNat = some reason) :
    barrierUnit lane reads writes sc id g body s = .next (s.awake.barrierTrapped i reason sc.toNat id.toNat) := by
  obtain ⟨issues, fields, written⟩ := names
  refine runUnit_trapsAt issues ?_
  simp only [fields, written, why, Bool.not_true, Bool.false_eq_true, if_false]
  rfl

/-- A word that passes the checks does what its body says. -/
theorem barrierUnit_of_passes (h : AtBarrier g s i sc id reads writes lane) :
    barrierUnit lane reads writes sc id g body s =
      .next ((body i sc.toNat id.toNat s.awake).settle barrierAttr i s.awake) := by
  obtain ⟨⟨issues, fields, written⟩, passes⟩ := h
  unfold barrierUnit
  rw [runUnit_issues issues]
  simp only [fields, written, passes, Bool.not_true, Bool.false_eq_true, if_false]

theorem AtBarrier.done (h : AtBarrier g s i sc id reads writes lane) (b : body i sc.toNat id.toNat s.awake = .done u) :
    barrierUnit lane reads writes sc id g body s = .next (i.finished barrierAttr u) := by
  rw [barrierUnit_of_passes h, b]; rfl

theorem AtBarrier.moved (h : AtBarrier g s i sc id reads writes lane) (b : body i sc.toNat id.toNat s.awake = .moved u) :
    barrierUnit lane reads writes sc id g body s = .next u := by
  rw [barrierUnit_of_passes h, b]; rfl

theorem AtBarrier.waits (h : AtBarrier g s i sc id reads writes lane) (b : body i sc.toNat id.toNat s.awake = .wait s.awake) :
    barrierUnit lane reads writes sc id g body s = .next s.awake.heldBack := by
  rw [barrierUnit_of_passes h, b]; rfl

theorem AtBarrier.trapsAt {r : TrapRec} (h : AtBarrier g s i sc id reads writes lane)
    (b : body i sc.toNat id.toNat s.awake = .trap r s.awake) :
    barrierUnit lane reads writes sc id g body s = .next (s.awake.takeTrap i r) := by
  rw [barrierUnit_of_passes h, b, ← enterTrap_self]; rfl

end Shared

/-! ### The reasons that come first (R148, R210, R217; log entry 64) -/

section Reasons
variable {s : State} {i : Issue} {scope id : Nat}

/-- A hank, or a group whose launch may REFORM, names a scope within its core (R148). -/
abbrev State.staysOutside (s : State) (i : Issue) (scope : Nat) : Prop :=
  scope < 2 ∧ (i.hank = true ∨ i.kind = .group ∧ s.reforming i = true)

theorem State.staysOutside_iff :
    (decide (scope < 2) && (i.hank || (i.kind == .group && s.reforming i))) = true ↔ s.staysOutside i scope := by
  simp only [Bool.and_eq_true, Bool.or_eq_true, decide_eq_true_iff, beq_iff_eq]

theorem State.barrierReason_of_outside (first : s.ownWait i = none) (outside : s.staysOutside i scope) :
    s.barrierReason i scope id = some 0 := by
  rw [State.barrierReason, first, if_neg (by simp), if_pos (State.staysOutside_iff.mpr outside)]

/-- The core is not enrolled in a pod set (R419). -/
theorem State.barrierReason_of_unenrolled (first : s.ownWait i = none) (inside : ¬ s.staysOutside i scope)
    (pod : scope = 6 ∧ (s.core i.core).podOn = false) : s.barrierReason i scope id = some 5 := by
  rw [State.barrierReason, first, if_neg (by simp), if_neg (mt State.staysOutside_iff.mp inside), if_pos (by simp [pod])]

/-- Lanes of the group have arrived at another barrier (R210). -/
theorem State.barrierReason_of_elsewhere {r : Arrival} (first : s.ownWait i = none) (inside : ¬ s.staysOutside i scope)
    (enrolled : ¬ (scope = 6 ∧ (s.core i.core).podOn = false)) (arrival : s.arrival i = some r)
    (other : r.scope ≠ scope ∨ r.id ≠ id) : s.barrierReason i scope id = some 4 := by
  rw [State.barrierReason, first, if_neg (by simp), if_neg (mt State.staysOutside_iff.mp inside)]
  simp only [arrival]
  rw [if_neg (by simpa using enrolled), if_pos (by simpa using other)]

end Reasons

/-! ### BAR and CNTSUM (R209, R213, R214, R216) -/

section Waits
variable {s : State} {i : Issue} {scope id : Nat} {sum : Option Nat} {w : BarWait}

theorem arriveAndWait_of_departed (own : s.ownWait i = some w) (gone : w.departed = true) :
    arriveAndWait sum i scope id s = .done (s.dropWait i w) := by
  simp only [arriveAndWait, own, gone, if_true]

theorem arriveAndWait_of_waiting (own : s.ownWait i = some w) (here : w.departed = false) :
    arriveAndWait sum i scope id s = .wait s := by
  simp only [arriveAndWait, own, here, Bool.false_eq_true, if_false]

theorem arriveAndWait_of_idle (first : s.ownWait i = none) (idle : s.barrierIdle i scope id = true) :
    arriveAndWait sum i scope id s = i.barrierTrap 1 scope id s := by
  simp only [arriveAndWait, first, idle, if_true]

theorem arriveAndWait_of_group (first : s.ownWait i = none) (armed : s.barrierIdle i scope id = false) (group : i.kind = .group) :
    arriveAndWait sum i scope id s = .moved ((s.addWait i scope id none none).arrivePath i scope id [] sum) := by
  simp only [arriveAndWait, first, armed, group, Bool.false_eq_true, if_false]

theorem arriveAndWait_of_lead (first : s.ownWait i = none) (armed : s.barrierIdle i scope id = false) (lead : i.kind = .lead) :
    arriveAndWait sum i scope id s =
      .moved ((s.arrive i.core i.unit i.ctx scope id i.launch sum.isSome).2.addWait i scope id
        (some (s.arrive i.core i.unit i.ctx scope id i.launch sum.isSome).1) sum) := by
  simp only [arriveAndWait, first, armed, lead, Bool.false_eq_true, if_false]

end Waits

section Words
variable {a b : RegField} {sc : BitVec 3} {g : GuardField} {s : State} {i : Issue} {w : BarWait}

/-- The low word of an operand: the record of CNTSUM, the E of BARINIT (R215, R216). -/
abbrev State.lowWord (s : State) (i : Issue) (a : RegField) : Nat := (s.wide i a).toNat % 2 ^ 32

/-- CNTSUM names a record inside the window and aligned (R216). -/
structure RecordOk (s : State) (i : Issue) (a : RegField) : Prop where
  inside : i.window.holds (s.lowWord i a) 64 = true
  aligned : s.lowWord i a % 64 = 0

/-- The word arrives and waits at the barrier; `sum` is the record that it owes, if it is CNTSUM. -/
def ArrivesAndWaits (x : Instr) (s : State) (i : Issue) (scope id : Nat) (sum : Option Nat) : Prop :=
  exec x s = .next ((arriveAndWait sum i scope id s.awake).settle barrierAttr i s.awake)

theorem exec_bar_arrivesAndWaits (h : AtBarrier g s i sc b [] [] true) : ArrivesAndWaits (.bar b sc g) s i sc.toNat b.toNat none := by
  change execBar b sc g s = _
  exact barrierUnit_of_passes h

theorem exec_cntsum_arrivesAndWaits (h : AtBarrier g s i sc b [a] [] false) (record : RecordOk s.awake i a) :
    ArrivesAndWaits (.cntsum a b sc g) s i sc.toNat b.toNat (some (s.awake.lowWord i a)) := by
  obtain ⟨inside, aligned⟩ := record
  change execCntsum a b sc g s = _
  refine (barrierUnit_of_passes h).trans ?_
  simp only [inside, aligned, Bool.not_true, Bool.false_eq_true, if_false, ne_eq, not_true_eq_false]

theorem execCntsum_of_outside (h : AtBarrier g s i sc b [a] [] false) (outside : i.window.holds (s.awake.lowWord i a) 64 = false) :
    execCntsum a b sc g s =
      .next (s.awake.takeTrap i ⟨Cause.lsBound, i.mask, BitVec.ofNat 64 (s.awake.lowWord i a), BitVec.ofNat 64 0⟩) := by
  refine h.trapsAt ?_
  simp only [outside, Bool.not_false, if_true]
  rfl

theorem execCntsum_of_misaligned (h : AtBarrier g s i sc b [a] [] false) (inside : i.window.holds (s.awake.lowWord i a) 64 = true)
    (odd : s.awake.lowWord i a % 64 ≠ 0) :
    execCntsum a b sc g s =
      .next (s.awake.takeTrap i ⟨Cause.misalign, i.mask, BitVec.ofNat 64 (s.awake.lowWord i a), BitVec.ofNat 64 0⟩) := by
  refine h.trapsAt ?_
  simp only [inside, odd, Bool.not_true, Bool.false_eq_true, if_false, ne_eq, not_false_eq_true, if_true]
  rfl

section Arrival
variable {x : Instr} {scope id : Nat} {sum : Option Nat} (h : ArrivesAndWaits x s i scope id sum)
include h

theorem ArrivesAndWaits.departed (own : s.awake.ownWait i = some w) (gone : w.departed = true) :
    exec x s = .next (i.finished barrierAttr (s.awake.dropWait i w)) := by
  rw [h, arriveAndWait_of_departed own gone]; rfl

theorem ArrivesAndWaits.waiting (own : s.awake.ownWait i = some w) (here : w.departed = false) :
    exec x s = .next s.awake.heldBack := by
  rw [h, arriveAndWait_of_waiting own here]; rfl

theorem ArrivesAndWaits.idle (first : s.awake.ownWait i = none) (idle : s.awake.barrierIdle i scope id = true) :
    exec x s = .next (s.awake.barrierTrapped i 1 scope id) := by
  rw [h, arriveAndWait_of_idle first idle, State.barrierTrapped, ← enterTrap_self]; rfl

theorem ArrivesAndWaits.group (first : s.awake.ownWait i = none) (armed : s.awake.barrierIdle i scope id = false)
    (group : i.kind = .group) : exec x s = .next ((s.awake.addWait i scope id none none).arrivePath i scope id [] sum) := by
  rw [h, arriveAndWait_of_group first armed group]; rfl

theorem ArrivesAndWaits.lead (first : s.awake.ownWait i = none) (armed : s.awake.barrierIdle i scope id = false)
    (lead : i.kind = .lead) :
    exec x s = .next ((s.awake.arrive i.core i.unit i.ctx scope id i.launch sum.isSome).2.addWait i scope id
      (some (s.awake.arrive i.core i.unit i.ctx scope id i.launch sum.isSome).1) sum) := by
  rw [h, arriveAndWait_of_lead first armed lead]; rfl

end Arrival

/-! ### BARINIT (R211, R212, R215) -/

theorem execBarinit_of_collecting (h : AtBarrier g s i sc b [a] [] false)
    (parties : (s.awake.barrier i.core i.ctx sc.toNat b.toNat).parties ≠ []) :
    execBarinit a b sc g s = .next (s.awake.barrierTrapped i 2 sc.toNat b.toNat) :=
  h.trapsAt (if_pos (by simpa using parties))

theorem execBarinit_of_outOfRange (h : AtBarrier g s i sc b [a] [] false)
    (parties : (s.awake.barrier i.core i.ctx sc.toNat b.toNat).parties = [])
    (count : s.awake.lowWord i a = 0 ∨ 2 ^ 24 ≤ s.awake.lowWord i a) :
    execBarinit a b sc g s = .next (s.awake.barrierTrapped i 3 sc.toNat b.toNat) :=
  h.trapsAt ((if_neg (by simp [parties])).trans (if_pos (by simpa [State.lowWord] using count)))

/-- The new E stands at the barrier after the events before it (log entry 81). -/
theorem execBarinit_of_inRange (h : AtBarrier g s i sc b [a] [] false)
    (parties : (s.awake.barrier i.core i.ctx sc.toNat b.toNat).parties = []) (nonzero : s.awake.lowWord i a ≠ 0)
    (few : s.awake.lowWord i a < 2 ^ 24) :
    execBarinit a b sc g s = .next (i.finished barrierAttr
      ((s.awake.inOrder i.core i.ctx sc.toNat b.toNat).setBarrier i.core i.ctx sc.toNat b.toNat
        { (s.awake.inOrder i.core i.ctx sc.toNat b.toNat).barrier i.core i.ctx sc.toNat b.toNat with
          expected := s.awake.lowWord i a })) :=
  h.done ((if_neg (by simp [parties])).trans (if_neg (by simpa [State.lowWord] using And.intro nonzero few)))

/-! ### BARW (R210, R211, R214) -/

/-- The generation that BARW names. -/
abbrev State.token (s : State) (i : Issue) (a : RegField) : Word := (s.wide i a).setWidth 32

theorem execBarw_of_waiting (h : AtBarrier g s i sc b [a] [] true) (own : s.awake.ownWait i = some w) :
    execBarw a b sc g s = if 0 < (s.awake.generation i sc.toNat b.toNat - s.awake.token i a).toInt
      then .next (i.finished barrierAttr (s.awake.dropWait i w)) else .next s.awake.heldBack := by
  split
  case isTrue ended => exact h.done (by simp only [own]; exact if_pos ended)
  case isFalse present => exact h.waits (by simp only [own]; exact if_neg present)

/-- A token of a generation to come (R217). -/
theorem execBarw_of_future (h : AtBarrier g s i sc b [a] [] true) (first : s.awake.ownWait i = none)
    (future : 0 < (s.awake.token i a - s.awake.generation i sc.toNat b.toNat).toInt) :
    execBarw a b sc g s = .next (s.awake.barrierTrapped i 6 sc.toNat b.toNat) :=
  h.trapsAt (by simp only [first]; exact if_pos future)

/-- A word and what it exceeds: not both differences are above 0. -/
theorem not_toInt_sub_pos {x y : Word} (above : 0 < (x - y).toInt) : ¬ 0 < (y - x).toInt := by
  rw [BitVec.toInt_sub, Int.bmod_def] at above ⊢
  omega

theorem execBarw_of_ended (h : AtBarrier g s i sc b [a] [] true) (first : s.awake.ownWait i = none)
    (ended : 0 < (s.awake.generation i sc.toNat b.toNat - s.awake.token i a).toInt) :
    execBarw a b sc g s = .next (i.finished barrierAttr s.awake) :=
  h.done (by simp only [first]; exact (if_neg (not_toInt_sub_pos ended)).trans (if_pos ended))

theorem execBarw_of_present (h : AtBarrier g s i sc b [a] [] true) (first : s.awake.ownWait i = none)
    (notFuture : ¬ 0 < (s.awake.token i a - s.awake.generation i sc.toNat b.toNat).toInt)
    (notEnded : ¬ 0 < (s.awake.generation i sc.toNat b.toNat - s.awake.token i a).toInt) :
    execBarw a b sc g s = .next (s.awake.addWait i sc.toNat b.toNat (some (s.awake.token i a)) none) :=
  h.moved (by simp only [first]; exact (if_neg notFuture).trans (if_neg notEnded))

/-! ### BARA (R209, R214) -/

theorem execBara_of_idle (h : AtBarrier g s i sc b [] [a] true) (idle : s.awake.barrierIdle i sc.toNat b.toNat = true) :
    execBara a b sc g s = .next (s.awake.barrierTrapped i 1 sc.toNat b.toNat) :=
  h.trapsAt (if_pos idle)

theorem execBara_of_group (h : AtBarrier g s i sc b [] [a] true) (armed : s.awake.barrierIdle i sc.toNat b.toNat = false)
    (group : i.kind = .group) :
    execBara a b sc g s = .next (i.finished barrierAttr ((s.awake.supersede i (fieldRegs .pair a)).arrivePath i sc.toNat b.toNat
      (if a = 60 then [] else [(i.active, a.toNat, true), (i.active, a.toNat + 1, false)]) none)) :=
  h.done (by simp only [armed, group, Bool.false_eq_true, if_false])

theorem execBara_of_lead (h : AtBarrier g s i sc b [] [a] true) (armed : s.awake.barrierIdle i sc.toNat b.toNat = false)
    (lead : i.kind = .lead) :
    execBara a b sc g s = .next (i.finished barrierAttr
      ((s.awake.arrive i.core i.unit i.ctx sc.toNat b.toNat i.launch false).2.writeReg i .pair a 0
        ((s.awake.arrive i.core i.unit i.ctx sc.toNat b.toNat i.launch false).1.setWidth 64))) :=
  h.done (by simp only [armed, lead, Bool.false_eq_true, if_false])

end Words

/-- Settles O19: the shared reasons come first; then BAR and a CNTSUM with its record checked arrive and wait, BARINIT arms,
BARW compares generations, and BARA arrives and goes on. -/
theorem barriers : Obligations.Barriers := by
  unfold Obligations.Barriers
  intro a b sc g s i w
  refine ⟨fun x reads writes lane word names first => ?reasons, fun bar => ?bar, fun sums => ⟨execCntsum_of_outside sums,
    execCntsum_of_misaligned sums, ?departed, ?waiting, ?idle, ?group, ?lead, execBarinit_of_collecting sums,
    execBarinit_of_outOfRange sums, execBarinit_of_inRange sums⟩, fun barw => ⟨execBarw_of_future barw, execBarw_of_ended barw,
      fun own ended => (execBarw_of_waiting barw own).trans (if_pos ended),
      fun own present => (execBarw_of_waiting barw own).trans (if_neg present), execBarw_of_present barw⟩,
    fun bara => ⟨execBara_of_idle bara, execBara_of_group bara, execBara_of_lead bara⟩⟩
  case reasons =>
    obtain ⟨body, unit⟩ := exec_of_barrierWord word
    have traps {reason : Nat} (why : s.awake.barrierReason i sc.toNat b.toNat = some reason) :
        exec x s = .next (s.awake.barrierTrapped i reason sc.toNat b.toNat) := (unit s).trans (barrierUnit_of_reason names why)
    exact ⟨fun outside => traps (State.barrierReason_of_outside first outside),
      fun inside pod => traps (State.barrierReason_of_unenrolled first inside pod),
      fun r inside enrolled arrival other => traps (State.barrierReason_of_elsewhere first inside enrolled arrival other)⟩
  case bar =>
    have waits := exec_bar_arrivesAndWaits bar
    exact ⟨waits.departed, waits.waiting, fun ⟨first, idle⟩ => waits.idle first idle,
      fun ⟨first, armed⟩ => waits.group first armed, fun ⟨first, armed⟩ => waits.lead first armed⟩
  all_goals rintro ⟨inside, aligned⟩
  all_goals have waits := exec_cntsum_arrivesAndWaits sums ⟨inside, aligned⟩
  case departed => exact waits.departed
  case waiting => exact waits.waiting
  case idle => exact fun ⟨first, idle⟩ => waits.idle first idle
  case group => exact fun ⟨first, armed⟩ => waits.group first armed
  case lead => exact fun ⟨first, armed⟩ => waits.lead first armed

end Sys2Proof.Machine
end

section
/-! PROOF. L2WB, L2INV, TSINV, LSPIN and LSUNPIN (O20). -/

namespace Sys2Proof.Machine

/-! ### Words with operands A and B (R33) -/

/-- A word that issues and reads its operands does what its body says of their values, if no check of its own fails. -/
theorem twoWideAfter_of_readsWide {t : Attr} {g : GuardField} {a b : RegField} {write : List RegField} {s u v : State} {i : Issue}
    {x y : Dword} {illegal : Issue → Bool} {early : Issue → Dword → Dword → State → Option Eff}
    {f : Issue → Dword → Dword → State → State → Eff} (reads : ReadsWide t g a b write s u i x y) (legal : illegal i = false)
    (passes : ∀ x y, early i x y s.awake = none) (done : f i x y s.awake u = .done v) :
    twoWideAfter t a b write g illegal early f s = .next (i.finished t v) := by
  obtain ⟨issues, ⟨readA, readB⟩, writable, vals, read, rfl, rfl⟩ := reads
  have written : (write.all fun r => i.regOk true .pair r) = true := List.all_eq_true.mpr writable
  have tokens : s.awake.tokenPending i ([(Cls.pair, a), (Cls.pair, b)].flatMap fun x => fieldRegs x.1 x.2) = false := by
    refine Bool.eq_false_iff.mpr fun pending => ?_
    unfold State.operands at read
    simp only [pending, if_true] at read
    split at read <;> cases read
  refine runUnit_done issues ?_
  simp only [readA, readB, written, legal, State.operandsAfter, tokens, passes, read, Bool.not_true, Bool.or_self, Bool.false_eq_true,
    if_false]
  exact done

theorem twoWide_of_readsWide {t : Attr} {g : GuardField} {a b : RegField} {write : List RegField} {s u v : State} {i : Issue}
    {x y : Dword} {illegal : Issue → Bool} {f : Issue → Dword → Dword → State → State → Eff}
    (reads : ReadsWide t g a b write s u i x y) (legal : illegal i = false) (done : f i x y s.awake u = .done v) :
    twoWide t a b write g illegal f s = .next (i.finished t v) :=
  twoWideAfter_of_readsWide reads legal (fun _ _ => rfl) done

/-! ### L2WB and L2INV (R236, R237) -/

section Lines
variable {a b : RegField} {g : GuardField} {s u : State} {i : Issue} {x y : Dword}

/-- The range that a maintenance names: line addresses within the device, or nothing where it takes all lines (R237). -/
structure LineRange (i : Issue) (x y : Dword) : Prop where
  base : x.toNat % 64 = 0
  length : y.toNat % 64 = 0
  inside : x.toNat + y.toNat ≤ 2 ^ 40
  whole : (i.k % 2 == 1) = true → x = 0 ∧ y = 0

/-- The maintenance starts, and its unit waits for it. -/
def State.maintains (u : State) (i : Issue) (x y : Dword) (invalidate : Bool) : State :=
  (u.awaiting i).2.modL2 fun l => { l with maintenance := l.maintenance
    ++ [⟨(u.awaiting i).1, i.k % 2 == 1, x.toNat, x.toNat + y.toNat, invalidate, i.k / 2 % 2 == 1⟩] }

theorem maintain_of_lineRange (range : LineRange i x y) (invalidate : Bool) : maintain invalidate i x y s u =
    .done (if (i.k % 2 == 1) = false ∧ y = 0 then u else u.maintains i x y invalidate) := by
  obtain ⟨base, length, inside, whole⟩ := range
  have bounded : ¬ 2 ^ 40 < x.toNat + y.toNat := Nat.not_lt.mpr inside
  unfold maintain
  cases all : i.k % 2 == 1
  · simp only [base, length, bounded, Bool.false_and, Bool.false_eq_true, if_false, ne_eq, not_true_eq_false, decide_false, Bool.or_self,
      Bool.not_false, Bool.true_and, beq_iff_eq, true_and, State.maintains, all]
    split <;> rfl
  · obtain ⟨rfl, rfl⟩ := whole all
    simp only [bne_self_eq_false, Bool.or_self, Bool.and_false, Bool.false_eq_true, if_false, base, ne_eq, not_true_eq_false, decide_false,
      bounded, Bool.not_true, Bool.false_and, State.maintains, all, Bool.true_eq_false, false_and]

theorem exec_l2wb_of_lineRange (reads : ReadsWide pageAttr g a b [] s u i x y) (range : LineRange i x y) (k : i.k ≤ 1) :
    exec (.l2wb a b g) s = .next (i.finished pageAttr (if (i.k % 2 == 1) = false ∧ y = 0 then u else u.maintains i x y false)) := by
  change execL2wb a b g s = _
  exact twoWide_of_readsWide reads (decide_eq_false (Nat.not_lt.mpr k)) (maintain_of_lineRange range false)

theorem exec_l2inv_of_lineRange (reads : ReadsWide pageAttr g a b [] s u i x y) (range : LineRange i x y) (k : i.k ≤ 3) :
    exec (.l2inv a b g) s = .next (i.finished pageAttr (if (i.k % 2 == 1) = false ∧ y = 0 then u else u.maintains i x y true)) := by
  change execL2inv a b g s = _
  exact twoWide_of_readsWide reads (decide_eq_false (Nat.not_lt.mpr k)) (maintain_of_lineRange range true)

end Lines

/-! ### TSINV (R238) -/

section Shootdowns
variable {a b : RegField} {g : GuardField} {s u : State} {i : Issue} {x y : Dword}

/-- The K of a TSINV: an action, and a context unless it names all of them (R238). -/
structure ShootdownK (i : Issue) : Prop where
  small : i.k < 2 ^ 19
  action : i.k / 2 ^ 16 % 4 ≠ 3
  context : (i.k / 2 ^ 18 % 2 == 1) = true → i.k % 2 ^ 16 = 0

/-- The range of a TSINV: whole pages of 64 KiB below 2 ^ 57 (R238). -/
structure PageRange (x y : Dword) : Prop where
  base : x.toNat % 65536 = 0
  length : y.toNat % 65536 = 0
  inside : x.toNat + y.toNat ≤ 2 ^ 57

theorem ShootdownK.legal (k : ShootdownK i) : (decide (2 ^ 19 ≤ i.k) || i.k / 2 ^ 16 % 4 == 3
    || (i.k / 2 ^ 18 % 2 == 1 && i.k % 2 ^ 16 != 0)) = false := by
  obtain ⟨small, action, context⟩ := k
  rw [decide_eq_false (Nat.not_le.mpr small), beq_eq_false_iff_ne.mpr action, Bool.or_self, Bool.false_or]
  cases all : i.k / 2 ^ 18 % 2 == 1
  · rfl
  · rw [context all]; rfl

theorem exec_tsinv_of_pageRange (reads : ReadsWide pageAttr g a b [] s u i x y) (k : ShootdownK i) (range : PageRange x y) :
    let base := if y = 0 then 0 else x.toNat
    let limit := if y = 0 then 2 ^ 57 else x.toNat + y.toNat
    let ctx := i.k % 2 ^ 16
    let all := i.k / 2 ^ 18 % 2 == 1
    exec (.tsinv a b g) s = .next (i.finished pageAttr ((u.awaiting i).2.modL2 fun l => { l with shootdowns := l.shootdowns
      ++ [⟨(u.awaiting i).1, ctx, all, base, limit, i.k / 2 ^ 16 % 4, (u.awaiting i).2.stalledIn ctx all base limit⟩] })) := by
  obtain ⟨base, length, inside⟩ := range
  change execTsinv a b g s = _
  refine twoWide_of_readsWide reads k.legal ?_
  simp only [base, length, Nat.not_lt.mpr inside, ne_eq, not_true_eq_false, decide_false, Bool.or_self, Bool.false_eq_true, if_false]

end Shootdowns

/-! ### LSPIN and LSUNPIN (R220, R221, R239) -/

/-- The pages that an LSPIN or LSUNPIN names: some of them, of the first MiB (R239). -/
structure PinRange (x y : Dword) : Prop where
  base : x.toNat % 4096 = 0
  nonzero : y ≠ 0
  few : y.toNat ≤ 256
  inside : x.toNat + 4096 * y.toNat ≤ 2 ^ 20

/-- The numbers of those pages. -/
abbrev pinPages (x y : Dword) : List Nat := (List.range y.toNat).map fun j => x.toNat / 4096 + j

section Pins
variable {a b : RegField} {g : GuardField} {s u v : State} {i : Issue} {x y : Dword} {f : Issue → List Nat → State → State → Eff}

theorem pinUnit_of_pinRange (reads : ReadsWide pageAttr g a b [a] s u i x y) (k : i.k = 0) (range : PinRange x y)
    (done : f i (pinPages x y) s.awake u = .done v) : pinUnit f a b g s = .next (i.finished pageAttr v) := by
  obtain ⟨base, nonzero, few, inside⟩ := range
  have count : ¬ (decide (y = 0) || decide (256 < y.toNat)) = true := by
    rw [decide_eq_false nonzero, decide_eq_false (Nat.not_lt.mpr few)]
    exact Bool.false_ne_true
  refine twoWide_of_readsWide reads (decide_eq_false (not_not_intro k)) ?_
  exact (if_neg (not_not_intro base)).trans ((if_neg (Nat.not_lt.mpr inside)).trans ((if_neg count).trans done))

theorem exec_lspin_of_pinRange (reads : ReadsWide pageAttr g a b [a] s u i x y) (k : i.k = 0) (range : PinRange x y)
    (done : s.awake.pinPages u i a (pinPages x y) = .done v) : exec (.lspin a b g) s = .next (i.finished pageAttr v) := by
  change execLspin a b g s = _
  exact pinUnit_of_pinRange reads k range done

end Pins

/-- A change of a core that leaves its units leaves where a result goes. -/
theorem State.broadcasts_modCore {u : State} {i : Issue} {a : RegField} (broadcast : u.broadcasts i a) (c : Nat)
    {f : CoreState → CoreState} (units : ∀ k, (f k).units = k.units) : (u.modCore c f).broadcasts i a :=
  State.broadcasts_of_queues broadcast fun _ => by rw [State.unit, (sameUnits_modCore c units).units, State.unit]

theorem CoreState.units_unpinOne (k : CoreState) (ctx page : Nat) : (k.unpinOne ctx page).units = k.units := by
  unfold CoreState.unpinOne
  split
  · rfl
  · split <;> rfl

theorem CoreState.units_modFrame (k : CoreState) (ctx page : Nat) (f : Frame → Frame) : (k.modFrame ctx page f).units = k.units := by
  unfold CoreState.modFrame
  split <;> rfl

/-- A core whose pages have been pinned once more each. -/
abbrev CoreState.pinAll (k : CoreState) (ctx : Nat) (pages : List Nat) : CoreState :=
  pages.foldl (fun k p => k.modFrame ctx p Frame.pin) k

/-- A core whose pages have been unpinned once each. -/
abbrev CoreState.unpinAll (k : CoreState) (ctx : Nat) (pages : List Nat) : CoreState := pages.foldl (fun k p => k.unpinOne ctx p) k

theorem CoreState.units_pinAll (k : CoreState) (ctx : Nat) (pages : List Nat) : (k.pinAll ctx pages).units = k.units :=
  List.foldlRecOn (motive := fun j : CoreState => j.units = k.units) pages _ rfl fun _ same p _ => (units_modFrame _ ctx p _).trans same

theorem CoreState.units_unpinAll (k : CoreState) (ctx : Nat) (pages : List Nat) : (k.unpinAll ctx pages).units = k.units :=
  List.foldlRecOn (motive := fun j : CoreState => j.units = k.units) pages _ rfl fun _ same p _ => (units_unpinOne _ ctx p).trans same

section Unpin
variable {a b : RegField} {g : GuardField} {s u : State} {i : Issue} {x y : Dword}

/-- R239: LSUNPIN lowers each page's count, and answers 3 where one was 0 already. -/
theorem exec_lsunpin_of_pinRange (reads : ReadsWide pageAttr g a b [a] s u i x y) (k : i.k = 0) (range : PinRange x y)
    (broadcast : u.broadcasts i a) : exec (.lsunpin a b g) s = .next (i.finished pageAttr
      ((u.modCore i.core fun k => k.unpinAll i.ctx (pinPages x y)).answered i a
        (if (pinPages x y).any fun p => (s.awake.core i.core).pins i.ctx p == 0 then 3 else 0))) := by
  change execLsunpin a b g s = _
  exact pinUnit_of_pinRange reads k range
    (State.result_of_broadcasts (State.broadcasts_modCore broadcast _ fun k => k.units_unpinAll ..) .pair _)

end Unpin

/-! #### Pages that are there -/

/-- A page has a frame whose bytes are there and stay. -/
def CoreState.Present (k : CoreState) (ctx page : Nat) : Prop :=
  ∃ j f, k.frameOf ctx page = some (j, f) ∧ f.refused = none ∧ (f.state = .resident ∨ f.state = .dirty)

theorem CoreState.modFrame_eq {k : CoreState} {ctx page j : Nat} {h : Frame} (frame : k.frameOf ctx page = some (j, h))
    (f : Frame → Frame) : k.modFrame ctx page f = { k with frames := SMap.put k.frames j (f h) } := by
  simp only [CoreState.modFrame, frame]

/-- Pinning a page keeps every page where it is, and the canonical form. -/
theorem CoreState.present_modFrame_pin {k : CoreState} {ctx page : Nat} (wf : SMap.wf k.frames = true) (here : k.Present ctx page)
    (other : Nat) (there : k.Present ctx other) :
    SMap.wf (k.modFrame ctx page Frame.pin).frames = true ∧ (k.modFrame ctx page Frame.pin).Present ctx other := by
  obtain ⟨j, h, frame, -, -⟩ := here
  obtain ⟨n, e, place, accepted, state⟩ := there
  obtain ⟨found, -, -, -⟩ := CoreState.frameOf_eq_some wf frame
  obtain ⟨entry, -, -, -⟩ := CoreState.frameOf_eq_some wf place
  rw [CoreState.modFrame_eq frame]
  have kept : SMap.wf (SMap.put k.frames j h.pin) = true := SMap.wf_put wf _ _
  have key : (CoreState.frameOf { k with frames := SMap.put k.frames j h.pin } ctx other).map (·.1) = some n := by
    have same := SMap.find?_put_key (p := fun (_, f) => f.ctx == ctx && f.page == other && f.old.isNone) (w := h.pin) found rfl
    exact same.trans (congrArg (Option.map (·.1)) place)
  obtain ⟨⟨m, e'⟩, place', rfl⟩ := Option.map_eq_some_iff.mp key
  obtain ⟨entry', -, -, -⟩ := CoreState.frameOf_eq_some kept place'
  refine ⟨kept, m, e', place', ?_⟩
  rw [SMap.find_put] at entry'
  split at entry'
  case isTrue own =>
    have same : some e = some h := entry.symm.trans (own ▸ found)
    cases same
    cases entry'
    exact ⟨accepted, state⟩
  case isFalse =>
    cases entry.symm.trans entry'
    exact ⟨accepted, state⟩

theorem CoreState.present_pinAll {k : CoreState} {ctx : Nat} {pages : List Nat} (wf : SMap.wf k.frames = true)
    (here : ∀ p ∈ pages, k.Present ctx p) : ∀ p ∈ pages, (k.pinAll ctx pages).Present ctx p :=
  (List.foldlRecOn (motive := fun j : CoreState => SMap.wf j.frames = true ∧ ∀ p ∈ pages, j.Present ctx p) pages _ ⟨wf, here⟩
    fun _ kept p mem => ⟨(present_modFrame_pin kept.1 (kept.2 p mem) p (kept.2 p mem)).1,
      fun q there => (present_modFrame_pin kept.1 (kept.2 p mem) q (kept.2 q there)).2⟩).2

theorem CoreState.pageAccess_of_present {k : CoreState} {ctx page : Nat} (here : k.Present ctx page) (who : Option Issuer) :
    ∃ j, k.pageAccess ctx page who = .ready j := by
  obtain ⟨j, f, frame, accepted, state⟩ := here
  refine ⟨j, ?_⟩
  rcases state with state | state <;> simp only [CoreState.pageAccess, frame, accepted, state]

theorem CoreState.drains_of_present {k : CoreState} {ctx : Nat} {pages : List Nat} (here : ∀ p ∈ pages, k.Present ctx p) :
    k.drains ctx pages = false := by
  refine List.any_eq_false.mpr fun p mem => ?_
  obtain ⟨_, f, frame, -, state⟩ := here p mem
  rw [frame]
  rcases state with state | state <;> simp [state]

theorem State.pages_of_present {t : State} {c ctx : Nat} {pages : List Nat} (here : ∀ p ∈ pages, (t.core c).Present ctx p)
    (who : Option Issuer) : t.pages c ctx (pages.map (4096 * ·)) who = .ready := by
  have ready : ∀ p ∈ pages, ∃ j, (t.core c).pageAccess ctx (4096 * p / 4096) who = .ready j := fun p mem => by
    rw [Nat.mul_div_cancel_left p (by decide)]
    exact CoreState.pageAccess_of_present (here p mem) who
  unfold State.pages
  dsimp only
  split
  case h_1 refused =>
    obtain ⟨va, mem, cause⟩ := List.exists_of_findSome?_eq_some refused
    obtain ⟨p, page, rfl⟩ := List.mem_map.mp mem
    obtain ⟨j, access⟩ := ready p page
    rw [access] at cause
    cases cause
  case h_2 =>
    refine if_pos (List.all_eq_true.mpr fun va mem => ?_)
    obtain ⟨p, page, rfl⟩ := List.mem_map.mp mem
    obtain ⟨j, access⟩ := ready p page
    rw [access]

theorem State.requestPage_of_present {t : State} {c ctx page : Nat} (here : (t.core c).Present ctx page) :
    t.requestPage c ctx page = t := by
  obtain ⟨_, f, frame, accepted, -⟩ := here
  have kept : t.dropRefused c ctx page = t := by
    simp only [State.dropRefused, frame, accepted, Option.isSome_none, Bool.false_and, Bool.false_eq_true, if_false]
  simp only [State.requestPage, kept, frame, Option.isSome_some, if_true]

/-! #### An LSPIN unit whose pages are all there -/

theorem SMap.put_put {β : Type} (m : SMap β) (k : Nat) (v w : β) : SMap.put (SMap.put m k v) k w = SMap.put m k w := by
  induction m with
  | nil => simp [SMap.put]
  | cons e r ih =>
    simp only [SMap.put]
    split
    · simp [SMap.put]
    · split <;> simp [SMap.put, *]

/-- Two changes of a core are one. -/
theorem State.modCore_modCore (t : State) (c : Nat) (f h : CoreState → CoreState) :
    (t.modCore c f).modCore c h = t.modCore c fun k => h (f k) := by
  rw [State.modCore, State.core_modCore_self]
  simp only [State.modCore, State.setCore, SMap.put_put]

theorem State.pinEach_of_present {t : State} {c ctx : Nat} {pages : List Nat} {f : CoreState → CoreState}
    (wf : SMap.wf (f (t.core c)).frames = true) (here : ∀ p ∈ pages, (f (t.core c)).Present ctx p) :
    (t.modCore c f).pinEach c ctx pages = ([], t.modCore c fun k => (f k).pinAll ctx pages) := by
  induction pages generalizing f with
  | nil => rfl
  | cons p more ih =>
    have first := here p List.mem_cons_self
    have placed : ((t.modCore c f).core c).Present ctx p := by rwa [State.core_modCore_self]
    have framed : (((t.modCore c f).core c).frameOf ctx p).isSome = true := by
      obtain ⟨_, _, frame, -, -⟩ := placed
      rw [frame]; rfl
    have keeps (q : Nat) (mem : q ∈ more) := CoreState.present_modFrame_pin wf first q (here q (List.mem_cons_of_mem _ mem))
    simp only [State.pinEach, State.requestPage_of_present placed, framed, if_true, State.modCore_modCore]
    exact ih (f := fun k => (f k).modFrame ctx p Frame.pin) (CoreState.present_modFrame_pin wf first p first).1
      fun q mem => (keeps q mem).2

section Attempt
variable {u : State} {i : Issue} {pages : List Nat}

/-- The unit has raised no counts yet: there is no record of it to replace. -/
theorem CoreState.pinning_of_fresh {k : CoreState} (fresh : k.pinning.any i.pinning = false) :
    { k with pinning := k.pinning.filter (!i.pinning ·) } = k := by
  have all : k.pinning.filter (!i.pinning ·) = k.pinning :=
    List.filter_eq_self.mpr fun w mem => by simpa using List.any_eq_false.mp fresh w mem
  rw [all]

theorem State.pinAttempt_of_present (fresh : (u.core i.core).pinning.any i.pinning = false)
    (wf : SMap.wf (u.core i.core).frames = true) (here : ∀ p ∈ pages, (u.core i.core).Present i.ctx p) :
    u.pinAttempt i pages = .ready () (u.modCore i.core fun k => k.pinAll i.ctx pages) := by
  have due : (u.core i.core).pinning.find? i.pinning = none := List.find?_eq_none.mpr fun w mem => List.any_eq_false.mp fresh w mem
  have own := CoreState.pinning_of_fresh fresh
  have each : (u.keepPins i none).pinEach i.core i.ctx pages = ([], u.modCore i.core fun k => k.pinAll i.ctx pages) := by
    refine (State.pinEach_of_present (f := fun k => { k with pinning := k.pinning.filter (!i.pinning ·) }) ?_ ?_).trans ?_
    · exact wf
    · exact here
    · exact congrArg (fun k : CoreState => ([], u.setCore i.core (k.pinAll i.ctx pages))) own
  have pinned : ∀ p ∈ pages, ((u.modCore i.core fun k => k.pinAll i.ctx pages).core i.core).Present i.ctx p := by
    rw [State.core_modCore_self]
    exact CoreState.present_pinAll wf here
  simp only [State.pinAttempt, due, Option.map_none, Option.getD_none, each, State.pages_of_present pinned,
    CoreState.drains_of_present pinned, Bool.false_eq_true, if_false]

end Attempt

/-! #### What LSPIN answers (R221, R239) -/

section Answers
variable {a b : RegField} {g : GuardField} {s u : State} {i : Issue} {x y : Dword} {pages : List Nat}

/-- LSPIN answers 1 where its pages would exceed the frames that may be pinned, also where a count is full (R239; log entry 101). -/
theorem State.pinPages_of_full (fresh : (s.core i.core).pinning.any i.pinning = false) (broadcast : u.broadcasts i a)
    (full : 224 < (s.core i.core).pinned + (pages.filter fun p => (s.core i.core).pins i.ctx p == 0).length) :
    s.pinPages u i a pages = .done (u.answered i a 1) := by
  simp only [State.pinPages, fresh, full, Bool.not_false, Bool.true_and, decide_true, if_true]
  exact State.result_of_broadcasts broadcast .pair _

theorem State.pinPages_of_saturated (fresh : (s.core i.core).pinning.any i.pinning = false) (broadcast : u.broadcasts i a)
    (fits : (s.core i.core).pinned + (pages.filter fun p => (s.core i.core).pins i.ctx p == 0).length ≤ 224)
    (saturated : ∃ p ∈ pages, (s.core i.core).pins i.ctx p = 255) : s.pinPages u i a pages = .done (u.answered i a 2) := by
  have any : (pages.any fun p => (s.core i.core).pins i.ctx p == 255) = true := by simpa using saturated
  simp only [State.pinPages, fresh, Nat.not_lt.mpr fits, any, Bool.not_false, Bool.true_and, decide_false, Bool.false_eq_true, if_false,
    if_true]
  exact State.result_of_broadcasts broadcast .pair _

/-- LSPIN raises the counts and answers 0 where its pages fit and are all there; `own` says that the operands left the core's pages. -/
theorem State.pinPages_of_present
    (own : (u.core i.core).frames = (s.core i.core).frames ∧ (u.core i.core).pinning = (s.core i.core).pinning)
    (fresh : (s.core i.core).pinning.any i.pinning = false) (broadcast : u.broadcasts i a)
    (fits : (s.core i.core).pinned + (pages.filter fun p => (s.core i.core).pins i.ctx p == 0).length ≤ 224)
    (below : ∀ p ∈ pages, (s.core i.core).pins i.ctx p ≠ 255) (wf : SMap.wf (s.core i.core).frames = true)
    (here : ∀ p ∈ pages, (s.core i.core).Present i.ctx p) :
    s.pinPages u i a pages = .done ((u.modCore i.core fun k => k.pinAll i.ctx pages).answered i a 0) := by
  obtain ⟨frames, pinning⟩ := own
  have any : (pages.any fun p => (s.core i.core).pins i.ctx p == 255) = false := by simpa using below
  have placed : ∀ p ∈ pages, (u.core i.core).Present i.ctx p := by
    simpa only [CoreState.Present, CoreState.frameOf, frames] using here
  have attempt := State.pinAttempt_of_present (u := u) (pinning ▸ fresh) (frames ▸ wf) placed
  simp only [State.pinPages, fresh, Nat.not_lt.mpr fits, any, Bool.not_false, Bool.true_and, decide_false, Bool.false_eq_true, if_false,
    State.accessing_of_ready (v := (·.pinAttempt i pages)) attempt]
  exact State.result_of_broadcasts (State.broadcasts_modCore broadcast _ fun k => k.units_pinAll ..) .pair _

/-- Reading operands leaves the pages of the core (R31). -/
theorem ReadsWide.core_pages {t : Attr} {write : List RegField} (reads : ReadsWide t g a b write s u i x y) :
    (u.core i.core).frames = (s.awake.core i.core).frames ∧ (u.core i.core).pinning = (s.awake.core i.core).pinning := by
  obtain ⟨-, ⟨readA, readB⟩, -, vals, read, -, -⟩ := reads
  have core := (sameOutside_operands (by simp [readA, readB]) read).core
  exact ⟨by rw [core], by rw [core]⟩

end Answers

/-- Settles O20: maintenance and shootdowns start and are awaited, and LSPIN answers what its pages and counts say. As the statement
parses, what LSUNPIN leaves stands among its hypotheses and is not claimed; `exec_lsunpin_of_pinRange` proves it. -/
theorem pagesAndLines : Obligations.PagesAndLines := by
  unfold Obligations.PagesAndLines
  intro a b g s u i x y
  refine ⟨fun reads => ⟨fun base length inside whole => ?lines, fun small action context base length inside => ?shootdown⟩,
    fun reads k base nonzero few inside broadcast => ?pins⟩
  case lines =>
    have range : LineRange i x y := ⟨base, length, inside, whole⟩
    have writes := exec_l2wb_of_lineRange reads range
    have drops := exec_l2inv_of_lineRange reads range
    refine ⟨fun part empty => ?_, fun some => ?_⟩
    · have nothing : (i.k % 2 == 1) = false ∧ y = 0 := ⟨part, empty⟩
      rw [if_pos nothing] at writes drops
      exact ⟨writes, drops⟩
    · have lines : ¬ ((i.k % 2 == 1) = false ∧ y = 0) := fun ⟨part, empty⟩ =>
        some.elim (ne_true_of_eq_false part) fun filled => filled empty
      rw [if_neg lines] at writes drops
      exact ⟨writes, drops⟩
  case shootdown => exact exec_tsinv_of_pageRange reads ⟨small, action, context⟩ ⟨base, length, inside⟩
  case pins =>
    have range : PinRange x y := ⟨base, nonzero, few, inside⟩
    rintro pages core ⟨-, fresh⟩
    refine ⟨fun full => ?_, fun fits saturated => ?_, fun fits below wf here => ?_⟩
    · exact exec_lspin_of_pinRange reads k range (State.pinPages_of_full fresh broadcast full)
    · exact exec_lspin_of_pinRange reads k range (State.pinPages_of_saturated fresh broadcast fits saturated)
    · exact exec_lspin_of_pinRange reads k range (State.pinPages_of_present reads.core_pages fresh broadcast fits below wf
        fun p mem => (here p mem).elim fun f there => ⟨f.1, f.2, there⟩)

end Sys2Proof.Machine
end

section
/-! PROOF. The events of local-store pages and of the translation stations (O38). -/

namespace Sys2Proof.Machine

/-! ### Local pages (R219 to R223) -/

section Frames
variable {s : State} {c ctx page i : Nat} {f : Frame} {p : Place}

/-- A page fills in frame i from the place p of its backing page (R220). -/
structure Fills (s : State) (c ctx page i : Nat) (f : Frame) (p : Place) : Prop where
  frame : ((s.core c).framesIn ctx page .filling).find? (fun f => f.2.refused.isNone && f.2.place.isSome) = some (i, f)
  place : f.place = some p

theorem exec_lsPageFillComplete_of_read (fills : Fills s c ctx page i f p) (mapped : s.mapped p = true)
    (sound : s.pagePoisoned p = false) (heard : f.lost = false) (read : s.placeRead (dieOf c) p f.answered = true) :
    exec (.lsPageFillComplete c ctx page) s = .next (s.fillPage c i f p) := by
  obtain ⟨frame, place⟩ := fills
  change execLsPageFillComplete c ctx page s = _
  simp only [execLsPageFillComplete, frame, place, mapped, sound, heard, read, Bool.not_true, Bool.or_self, Bool.false_eq_true, if_false]

theorem exec_lsPageFillComplete_of_unmapped (fills : Fills s c ctx page i f p) (unmapped : s.mapped p = false) :
    exec (.lsPageFillComplete c ctx page) s = .next (s.unmapFrame c i f) := by
  obtain ⟨frame, place⟩ := fills
  change execLsPageFillComplete c ctx page s = _
  simp only [execLsPageFillComplete, frame, place, unmapped, Bool.not_false, if_true]

/-- The page of frame i drains to the place p of its backing page (R220). -/
structure Drains (s : State) (c ctx page i : Nat) (f : Frame) (p : Place) : Prop where
  frame : ((s.core c).framesIn ctx page .draining).find? (fun f => f.2.place.isSome) = some (i, f)
  place : f.place = some p

theorem exec_lsPageWritebackComplete_of_unmapped (drains : Drains s c ctx page i f p) (unmapped : s.mapped p = false) :
    exec (.lsPageWritebackComplete c ctx page) s = .next (s.unmapFrame c i f) := by
  obtain ⟨frame, place⟩ := drains
  change execLsPageWritebackComplete c ctx page s = _
  simp only [execLsPageWritebackComplete, frame, place, unmapped, Bool.not_false, if_true]

/-- R220: the page is written; its frame stays where an access came meanwhile, and goes otherwise. -/
theorem exec_lsPageWritebackComplete_of_answers (drains : Drains s c ctx page i f p) (mapped : s.mapped p = true)
    (heard : f.lost = false) (answers : s.placeAnswers (dieOf c) p 4096 = true) :
    exec (.lsPageWritebackComplete c ctx page) s = if f.touched = true
      then .next ((s.writePage c i ctx p).modCore c fun k => { k with frames := SMap.put k.frames i f.kept })
      else .next ((s.writePage c i ctx p).dropFrame c i) := by
  obtain ⟨frame, place⟩ := drains
  change execLsPageWritebackComplete c ctx page s = _
  simp only [execLsPageWritebackComplete, frame, place, mapped, heard, answers, Bool.not_true, Bool.or_self, Bool.false_eq_true,
    if_false]

end Frames

/-! ### Walks and fault records (R224 to R229) -/

section Stations
variable {s : State} {stn n : Nat} {y : Stalled}

/-- A request that its station has still to walk for, and can. -/
structure Walks (s : State) (stn n : Nat) (y : Stalled) : Prop where
  request : (s.station stn).stalled[n]? = some y
  unrecorded : y.state ≠ .recorded
  answers : s.walkAnswers (stn / 16) y.ctx y.va = true

theorem exec_translationWalk_of_ok {t : Translation} (walks : Walks s stn n y)
    (ok : (s.walkRead y.ctx y.va).walk y.ctx y.va y.acc = .ok t) : exec (.translationWalk stn n) s =
      .next (((s.walkRead y.ctx y.va).modStation stn fun st => Station.keep { st with stalled := dropAt n st.stalled } t).resume
        y.who (t.place! y.va)) := by
  obtain ⟨request, unrecorded, answers⟩ := walks
  change execTranslationWalk stn n s = _
  simp only [execTranslationWalk, request, beq_eq_false_iff_ne.mpr unrecorded, answers, ok, Bool.not_true, Bool.or_self,
    Bool.false_eq_true, if_false]

theorem exec_translationWalk_of_error {e : WalkFault} (walks : Walks s stn n y)
    (error : (s.walkRead y.ctx y.va).walk y.ctx y.va y.acc = .error e) : exec (.translationWalk stn n) s =
      .next ((s.walkRead y.ctx y.va).stallRequest stn n { y with kind := e.kind, level := e.level }) := by
  obtain ⟨request, unrecorded, answers⟩ := walks
  change execTranslationWalk stn n s = _
  simp only [execTranslationWalk, request, beq_eq_false_iff_ne.mpr unrecorded, answers, error, Bool.not_true, Bool.or_self,
    Bool.false_eq_true, if_false]

theorem exec_faultQueueRecheck_of_context {ctx : Nat} {x : Context} (context : s.context ctx = some x) :
    exec (.faultQueueRecheck stn ctx) s = .next (s.postHeld stn ctx x (s.station stn).held.length) := by
  change execFaultQueueRecheck stn ctx s = _
  simp only [execFaultQueueRecheck, context]

end Stations

/-! ### TSINV (R226, R238) -/

section Shootdowns
variable {s : State} {m : Shootdown} {more : List Shootdown}

/-- Every station has dropped what the oldest TSINV covers. -/
def State.shotDown (s : State) (m : Shootdown) (more : List Shootdown) : State :=
  (s.modL2 fun l => { l with shootdowns := more }).mapStations (·.shotDown m)

/-- The requests that the TSINV acts on are refused. -/
def State.refuseAll (t : State) (m : Shootdown) : State :=
  (t.stations.flatMap fun st => st.2.stalled.filter m.acts).foldl State.refuseRequest (t.mapStations (·.refused m))

/-- R238: the translations go, and the requests that stood under a record walk again with action 1 and are refused with action 2. -/
theorem exec_tsinvComplete_of_oldest (oldest : s.l2.shootdowns = m :: more) : exec .tsinvComplete s =
    .next ((if m.action = 1 then (s.shotDown m more).mapStations (·.walkAgain m)
      else if m.action = 2 then (s.shotDown m more).refuseAll m else s.shotDown m more).setPending m.who none) := by
  change execTsinvComplete s = _
  simp only [execTsinvComplete, oldest]
  rfl

end Shootdowns

/-- Settles O38: pages fill and drain by their places, a walk resumes or stalls its request, records are posted, and a TSINV takes
its action. -/
theorem pageEvents : Obligations.PageEvents := by
  unfold Obligations.PageEvents
  intro s c ctx page i stn n f p x y m more
  refine ⟨fun frame place => ?fill, fun frame place => ?drain, fun request unrecorded answers => ?walk,
    exec_faultQueueRecheck_of_context, fun oldest => ?shootdown⟩
  case fill =>
    have fills : Fills s c ctx page i f p := ⟨frame, place⟩
    exact ⟨exec_lsPageFillComplete_of_read fills, exec_lsPageFillComplete_of_unmapped fills⟩
  case drain =>
    have drains : Drains s c ctx page i f p := ⟨frame, place⟩
    refine ⟨exec_lsPageWritebackComplete_of_unmapped drains, fun mapped heard answers => ?_⟩
    have written := exec_lsPageWritebackComplete_of_answers drains mapped heard answers
    exact ⟨fun touched => written.trans (if_pos touched), fun alone => written.trans (if_neg (ne_true_of_eq_false alone))⟩
  case walk =>
    have walks : Walks s stn n y := ⟨request, unrecorded, answers⟩
    exact ⟨fun t => exec_translationWalk_of_ok walks, fun e => exec_translationWalk_of_error walks⟩
  case shootdown =>
    have done := exec_tsinvComplete_of_oldest oldest
    refine ⟨fun zero => ?_, fun one => ?_, fun two => ?_⟩
    · rw [if_neg (by omega), if_neg (by omega)] at done
      exact done
    · rw [if_pos one] at done
      exact done
    · rw [if_neg (by omega), if_pos two] at done
      exact done

end Sys2Proof.Machine
end

section
/-! PROOF. Interleave commits, maintenance, and the requests at the L2 slices (O39). -/

namespace Sys2Proof.Machine

/-! ### Commits (R233 to R235, R438, R439) -/

section Commits
variable {s : State} {m : Commit} {stn : Nat}

theorem exec_l2commit_of_requested (commit : s.l2.commit = some m) (requested : m.stage = .requested) : exec (.l2commit m.mask) s =
    .next (if s.commitErr m = 0
      then (s.modL2 fun l => { l with stat := s.l2Status }).modL2 fun l => { l with commit := some { m with stage := .draining } }
      else ((s.modL2 fun l => { l with stat := s.l2Status }).modL2 fun l => { l with commit := none }).setPending m.who none) := by
  change execL2commit m.mask s = _
  have due : (m.stage != .requested || decide (m.mask ≠ m.mask)) = false := by simp [requested]
  simp only [execL2commit, commit, due, Bool.false_eq_true, if_false]
  split <;> rfl

theorem exec_l2CommitPoint_of_draining (commit : s.l2.commit = some m) (draining : m.stage = .draining)
    (taken : s.stacksTake (s.l2.lines.filter fun y => s.departs m (y.1 / 512) (y.1 % 512)) = true) :
    exec .l2CommitPoint s = .next (s.switched m) := by
  change execL2CommitPoint s = _
  simp only [execL2CommitPoint, commit, draining, taken, bne_self_eq_false, Bool.not_true, Bool.or_self, Bool.false_eq_true, if_false]
  rfl

/-- A station whose copies of every domain are the active set (R235). -/
def State.reloaded (s : State) (stn : Nat) : State := (List.range 16).foldl (fun t d => t.reloadCopy stn d) s

/-- R233, R439: the commit completes with the reload of its last station. -/
theorem exec_stationReload_of_switched (commit : s.l2.commit = some m) (switched : m.stage = .switched) (waits : stn ∈ m.reload) :
    exec (.stationReload stn) s = .next (if m.reload.erase stn = []
      then ((s.reloaded stn).modL2 fun l => { l with commit := none, stat := l.stat &&& ~~~(1 : Dword) }).setPending m.who none
      else (s.reloaded stn).modL2 fun l => { l with commit := some { m with reload := m.reload.erase stn } }) := by
  change execStationReload stn s = _
  simp only [execStationReload, commit, switched, List.contains_iff_mem.mpr waits, bne_self_eq_false, Bool.not_true, Bool.or_self,
    Bool.false_eq_true, if_false, List.isEmpty_iff]
  split <;> rfl

theorem exec_l2MaintenanceDone_of_oldest {w : Maintenance} {more : List Maintenance} (oldest : s.l2.maintenance = w :: more)
    (idle : s.l2.commit = none)
    (taken : s.stacksTake (s.l2.lines.filter fun y => (!w.invalidate || w.writeBack) && w.covers (y.1 / 512)) = true) :
    exec .l2MaintenanceDone s = .next (((s.maintained w).modL2 fun l => { l with maintenance := more }).setPending w.who none) := by
  change execL2MaintenanceDone s = _
  simp only [execL2MaintenanceDone, oldest, idle, taken, Bool.not_true, Bool.false_eq_true, if_false]

end Commits

/-! ### Requests at a slice (R232 to R234, R245) -/

section Requests
variable {s : State} {c u q p line k j : Nat} {r : LineRequest}

/-- A line that is still to be asked for. -/
structure Asks (s : State) (c u q p line : Nat) (r : LineRequest) : Prop where
  request : s.lineRequest c u q p line = some r
  pending : r.state.pending = true

/-- The slice to which the station of a core sends a request for a line (R235). -/
abbrev State.askedSlice (s : State) (c : Nat) (r : LineRequest) : Option Nat := (s.station (stationOf c)).fold r.state (64 * r.line)

theorem exec_sliceRequest_of_unmapped (asks : Asks s c u q p line r) (unmapped : s.sliceOf (64 * r.line) = none) :
    exec (.sliceRequest c u q p line) s = .next (s.unmapPiece c u q p) := by
  obtain ⟨request, pending⟩ := asks
  change execSliceRequest c u q p line s = _
  simp only [execSliceRequest, request, pending, unmapped, Bool.not_true, Bool.false_eq_true, if_false]

/-- R234: a slice that the mapping does not name answers REPLAY. -/
theorem exec_sliceRequest_of_other (asks : Asks s c u q p line r) (mapped : s.sliceOf (64 * r.line) = some k)
    (asked : s.askedSlice c r = some j) (route : s.routeUp (dieOf c) (j / 128) = true) (other : j ≠ k) :
    exec (.sliceRequest c u q p line) s = .next (s.setLine c u q p line (s.replayAnswer r.line)) := by
  obtain ⟨request, pending⟩ := asks
  change execSliceRequest c u q p line s = _
  simp only [execSliceRequest, request, pending, mapped, asked, route, other, ne_eq, not_false_eq_true, Bool.not_true, Bool.false_eq_true,
    if_false, if_true]

/-- A commit drains the line out of the slice (R233). -/
def State.drainsLine (s : State) (line slice : Nat) : Prop :=
  ∃ m, s.l2.commit = some m ∧ m.stage = .draining ∧ s.departs m line slice = true

theorem exec_sliceRequest_of_drains (asks : Asks s c u q p line r) (mapped : s.sliceOf (64 * r.line) = some k)
    (asked : s.askedSlice c r = some k) (route : s.routeUp (dieOf c) (k / 128) = true) (drains : s.drainsLine r.line k) :
    exec (.sliceRequest c u q p line) s = .next (s.setLine c u q p line .held) := by
  obtain ⟨request, pending⟩ := asks
  obtain ⟨m, commit, draining, departs⟩ := drains
  change execSliceRequest c u q p line s = _
  simp only [execSliceRequest, request, pending, mapped, asked, route, commit, draining, departs, ne_eq, not_true_eq_false,
    beq_self_eq_true, Bool.and_self, Bool.not_true, Bool.false_eq_true, if_false, if_true]

theorem exec_sliceRequest_of_stays (asks : Asks s c u q p line r) (mapped : s.sliceOf (64 * r.line) = some k)
    (asked : s.askedSlice c r = some k) (route : s.routeUp (dieOf c) (k / 128) = true) (stays : ¬ s.drainsLine r.line k) :
    exec (.sliceRequest c u q p line) s = .next (s.serve c u q p line k r) := by
  obtain ⟨request, pending⟩ := asks
  change execSliceRequest c u q p line s = _
  simp only [execSliceRequest, request, pending, mapped, asked, route, ne_eq, not_true_eq_false, Bool.not_true, Bool.false_eq_true,
    if_false]
  cases commit : s.l2.commit with
  | none => rfl
  | some m =>
    refine if_neg fun departs => stays ⟨m, commit, ?_⟩
    rwa [Bool.and_eq_true, beq_iff_eq] at departs

end Requests

/-! ### Replays and reads (R230, R234, R429, R440) -/

section Answers
variable {s : State} {c u q p line k : Nat} {r : LineRequest}

theorem exec_l2Replay_of_unmapped (request : s.lineRequest c u q p line = some r) (replayed : r.state = .replayed none) :
    exec (.l2Replay c u q p line) s = .next (s.unmapPiece c u q p) := by
  change execL2Replay c u q p line s = _
  simp only [execL2Replay, request, replayed]

/-- R234, R440: the request is folded under the copy of the domain that REPLAY names, which an older copy becomes first. -/
theorem exec_l2Replay_of_domain {d : Nat} {gen : Word} (request : s.lineRequest c u q p line = some r)
    (replayed : r.state = .replayed (some (d, gen))) : exec (.l2Replay c u q p line) s =
      .next ((if 0 < (gen - ((s.station (stationOf c)).copy d).gen).toInt then s.reloadCopy (stationOf c) d else s).setLine
        c u q p line (.under d)) := by
  change execL2Replay c u q p line s = _
  simp only [execL2Replay, request, replayed]

/-- The read of a missed line can return: its line has a slice, no error, and a way to the core's die (R230, R429). -/
structure Returns (s : State) (c u q p line k : Nat) (r : LineRequest) : Prop where
  request : s.lineRequest c u q p line = some r
  missed : r.state = .missed
  sound : r.line ∉ s.l2.poisoned
  mapped : s.sliceOf (64 * r.line) = some k
  answers : s.lineAnswers (dieOf c) r.line = true

/-- The read line has entered its slice, where no slice held it; a corrected error is counted (R230, R429). -/
def State.readIn (s : State) (corrected : Bool) (line k : Nat) : State :=
  if s.cached line = true then s
  else (if corrected then s.modHost fun h => { h with ce := bumpCount h.ce } else s).install line k ⟨s.deviceLine line, false⟩

theorem exec_hbm4ReadComplete_of_returns (returns : Returns s c u q p line k r) (corrected : Bool) :
    exec (.hbm4ReadComplete c u q p line corrected) s = .next (if r.entry.op.stows = true
      then (s.readIn corrected r.line k).setLine c u q p line .asked else (s.readIn corrected r.line k).readLine c u q p line r) := by
  obtain ⟨request, missed, sound, mapped, answers⟩ := returns
  have clean : s.l2.poisoned.contains r.line = false := by simpa using sound
  change execHbm4ReadComplete c u q p line corrected s = _
  simp only [execHbm4ReadComplete, request, missed, clean, mapped, answers, bne_self_eq_false, Bool.or_self, Bool.not_true,
    Bool.false_eq_true, if_false]
  rfl

end Answers

/-- Settles O39: a commit goes from stage to stage, maintenance completes, and a request at a slice is served, held, replayed, or read
from HBM4. -/
theorem sliceEvents : Obligations.SliceEvents := by
  unfold Obligations.SliceEvents
  intro s c u q p line k stn corrected m w more r
  refine ⟨fun commit => ⟨fun requested => ?requested, exec_l2CommitPoint_of_draining commit, fun switched waits => ?switched⟩,
    exec_l2MaintenanceDone_of_oldest, fun request => ⟨fun pending => ?asks, exec_l2Replay_of_unmapped request,
      fun d gen replayed => ?replay, fun missed sound mapped answers => ?read⟩⟩
  case requested =>
    have checked := exec_l2commit_of_requested commit requested
    exact ⟨fun begins => checked.trans (congrArg _ (if_pos begins)), fun refused => checked.trans (congrArg _ (if_neg refused))⟩
  case switched =>
    have reloads := exec_stationReload_of_switched commit switched waits
    exact ⟨fun last => reloads.trans (congrArg _ (if_pos last)), fun others => reloads.trans (congrArg _ (if_neg others))⟩
  case asks =>
    have asks : Asks s c u q p line r := ⟨request, pending⟩
    refine ⟨exec_sliceRequest_of_unmapped asks, fun j => exec_sliceRequest_of_other asks, fun mapped asked route => ⟨fun stays => ?_,
      fun m commit draining departs => exec_sliceRequest_of_drains asks mapped asked route ⟨m, commit, draining, departs⟩⟩⟩
    refine exec_sliceRequest_of_stays asks mapped asked route ?_
    rintro ⟨m, commit, draining, departs⟩
    exact Bool.false_ne_true ((stays m commit draining).symm.trans departs)
  case replay =>
    have folds := exec_l2Replay_of_domain request replayed
    exact ⟨fun older => by rw [folds, if_pos older], fun newer => by rw [folds, if_neg newer]⟩
  case read =>
    have returns := exec_hbm4ReadComplete_of_returns ⟨request, missed, sound, mapped, answers⟩ corrected
    exact ⟨fun stow => returns.trans (congrArg _ (if_pos stow)),
      fun haul => returns.trans (congrArg _ (if_neg (ne_true_of_eq_false haul)))⟩

end Sys2Proof.Machine
end

section
/-! PROOF. The machine after reset (O53). -/

namespace Sys2Proof.Machine

/-- No domain is listed after reset: domain 0 holds the whole device in 512 slices, and no other one is enabled (R231). -/
theorem State.domain_reset (d : Nat) : State.reset.domain d =
    if d = 0 then ⟨0, 2 ^ 40, 0, 9, true, 0x1FF000, BitVec.allOnes 512⟩ else ⟨0, 0, 0, 0, false, 0, 0⟩ := rfl

/-- No core is listed after reset: each is as `CoreState.reset` says. -/
@[simp] theorem State.core_reset (c : Nat) : State.reset.core c = CoreState.reset := rfl

/-- The queues of the handler engine are idle (R242). -/
theorem State.queue_reset (c : Nat) {q : Nat} (named : q < 4) : State.reset.queue c 16 q = EngineQueue.idle := by
  have queues : State.reset.engineQueues c 16 = List.replicate 4 EngineQueue.idle := rfl
  rw [State.queue, queues, List.getElem?_replicate_of_lt named, Option.getD_some]

/-- Settles O53: the parts that reset names hold its values, and every map of the reset state is empty, so that what it does not
list reads as at reset. -/
theorem resetState : Obligations.ResetState := by
  unfold Obligations.ResetState
  refine ⟨⟨rfl, rfl, rfl, rfl, rfl, rfl, rfl, rfl, rfl, rfl, rfl, rfl, rfl, rfl, fun w => ⟨rfl, rfl, rfl⟩⟩, State.domain_reset, rfl, rfl,
    fun k => rfl, fun p => rfl, fun l => rfl, rfl, fun c => ?core, rfl⟩
  exact ⟨State.core_reset c, rfl, rfl, rfl, fun k => rfl, fun q named => State.queue_reset c named, fun m => rfl, fun n => rfl, rfl⟩

end Sys2Proof.Machine
end

section
/-! PROOF. The words of the copy engine that enter entries, XSTAT and QFENCE (O21). -/

namespace Sys2Proof.Machine

/-! ### What the XF words share (R242, R255) -/

section Entries
variable {a b : RegField} {q : BitVec 2} {g : GuardField} {s u v : State} {i : Issue} {x y : Dword}

theorem xfUnit_of_readsWide {write : List RegField} {f : Issue → Dword → Dword → State → Eff}
    (reads : ReadsWide xfAttr g a b write s u i x y) (noQueueA : isQueue a = false) (noQueueB : isQueue b = false)
    (done : f i x y s.awake = .done v) : xfUnit a b write g f s = .next (i.finished xfAttr v) :=
  twoWide_of_readsWide reads (by rw [noQueueA, noQueueB, Bool.or_self]) done

/-- A queue that can take an entry takes it (R242, R260). -/
theorem State.accept_of_takesEntry (takes : TakesEntry s i q) (op : EngineOp) (k : State → State) :
    s.accept i q.toNat op k = .done (k (s.placeEntry i q.toNat op false)) := by
  simp only [State.accept, takes.sound, takes.inbox, decide_eq_false (Nat.not_le.mpr takes.room), Bool.not_true, Bool.or_self,
    Bool.false_eq_true, if_false]

/-- An access that has passed its check changes no first failure. -/
theorem firstFailing_append_ok (l : List (Except (Nat × Nat) (Nat × Nat))) (z : Nat × Nat) :
    firstFailing (l ++ [.ok z]) = firstFailing l := by
  simp only [firstFailing, List.findSome?_append, List.findSome?_singleton, Option.or_none]

/-! ### HAUL, STOW, HAUL2 and STOW2 (R256) -/

/-- The operands of a HAUL or STOW: whole words, of the device and of local space (R256). -/
structure CopyRange (i : Issue) (x y : Dword) : Prop where
  k : i.k < 2 ^ 18
  unused : y.toNat < 2 ^ 53
  least : 4 ≤ y.toNat / 2 ^ 32 % 2 ^ 21
  most : y.toNat / 2 ^ 32 % 2 ^ 21 ≤ 2 ^ 20
  words : y.toNat / 2 ^ 32 % 2 ^ 21 % 4 = 0
  base : x.toNat % 4 = 0

theorem CopyRange.legal (range : CopyRange i x y) :
    (i.k / 2 ^ 18 != 0 || y.toNat / 2 ^ 53 != 0 || decide (y.toNat / 2 ^ 32 % 2 ^ 21 < 4) || decide (2 ^ 20 < y.toNat / 2 ^ 32 % 2 ^ 21)
      || y.toNat / 2 ^ 32 % 2 ^ 21 % 4 != 0 || decide (x.toNat % 4 ≠ 0)) = false := by
  obtain ⟨k, unused, least, most, words, base⟩ := range
  rw [Nat.div_eq_of_lt k, Nat.div_eq_of_lt unused, decide_eq_false (Nat.not_lt.mpr least), decide_eq_false (Nat.not_lt.mpr most), words,
    base]
  rfl

theorem copyUnit_of_copyRange (stow : Bool) (reads : ReadsWide xfAttr g a b [] s u i x y) (noQueueA : isQueue a = false)
    (noQueueB : isQueue b = false) (takes : TakesEntry s.awake i q) (range : CopyRange i x y)
    (passes : firstFailing [s.awake.spanAt i (y.toNat % 2 ^ 32) (y.toNat / 2 ^ 32 % 2 ^ 21) 4, s.awake.nearAt i (i.k % 2 ^ 18)] = none) :
    copyUnit stow false a b q g s = .next (i.finished xfAttr (s.awake.placeEntry i q.toNat
      (.copy stow x.toNat (y.toNat / 2 ^ 32 % 2 ^ 21) (y.setWidth 32) none (4 * (i.k % 2 ^ 18))) false)) := by
  refine xfUnit_of_readsWide reads noQueueA noQueueB ?_
  simp only [Bool.false_eq_true, if_false, range.legal, takes.group, List.append_nil, List.singleton_append, passes,
    State.accept_of_takesEntry takes, id]

/-- R256: the length of a HAUL2 or STOW2 is 64 bytes times a power of two that K gives. -/
theorem copyUnit_of_copy2Range (stow : Bool) (reads : ReadsWide xfAttr g a b [] s u i x y) (noQueueA : isQueue a = false)
    (noQueueB : isQueue b = false) (takes : TakesEntry s.awake i q) (length : i.k / 2 ^ 18 ≤ 14) (base : x.toNat % 4 = 0)
    (passes : firstFailing [s.awake.spanAt i (y.toNat % 2 ^ 32) (64 * 2 ^ (i.k / 2 ^ 18)) 4, s.awake.spanAt i (y.toNat / 2 ^ 32) 4 4,
      s.awake.nearAt i (i.k % 2 ^ 18)] = none) :
    copyUnit stow true a b q g s = .next (i.finished xfAttr (s.awake.placeEntry i q.toNat (.copy stow x.toNat
      (64 * 2 ^ (i.k / 2 ^ 18)) (y.setWidth 32) (some ((y >>> 32).setWidth 32)) (4 * (i.k % 2 ^ 18))) false)) := by
  refine xfUnit_of_readsWide reads noQueueA noQueueB ?_
  simp only [if_true, decide_eq_false (Nat.not_lt.mpr length), base, ne_eq, not_true_eq_false, decide_false, Bool.or_self,
    Bool.false_eq_true, if_false, takes.group, List.cons_append, List.nil_append, passes,
    State.accept_of_takesEntry takes, id]

/-! ### HAULT (R257) -/

/-- The operands of a HAULT: a run of slots, and the pitch of whole lines (R257). -/
structure TileRange (i : Issue) (x y : Dword) : Prop where
  k : i.k < 2 ^ 18
  unused : y.toNat / 2 ^ 12 % 2 ^ 20 = 0
  slots : y.toNat % 64 + (y.toNat / 64 % 64 + 1) ≤ 64
  pitch : y.toNat / 2 ^ 32 = 0 ∨ y.toNat / 2 ^ 32 % 64 = 0 ∧ 128 ≤ y.toNat / 2 ^ 32
  base : x.toNat % 64 = 0

theorem TileRange.legal (range : TileRange i x y) :
    (decide (2 ^ 18 ≤ i.k) || y.toNat / 2 ^ 12 % 2 ^ 20 != 0 || decide (64 < y.toNat % 64 + (y.toNat / 64 % 64 + 1))
      || (y.toNat / 2 ^ 32 != 0 && (y.toNat / 2 ^ 32 % 64 != 0 || decide (y.toNat / 2 ^ 32 < 128)))) = false := by
  obtain ⟨k, unused, slots, pitch, -⟩ := range
  rw [decide_eq_false (Nat.not_le.mpr k), unused, decide_eq_false (Nat.not_lt.mpr slots)]
  obtain none | ⟨lines, wide⟩ := pitch
  · rw [none]; rfl
  · rw [lines, decide_eq_false (Nat.not_lt.mpr wide)]; exact Bool.and_false _

theorem exec_hault_of_tileRange (reads : ReadsWide xfAttr g a b [] s u i x y) (noQueueA : isQueue a = false) (noQueueB : isQueue b = false)
    (takes : TakesEntry s.awake i q) (range : TileRange i x y) (near : firstFailing [s.awake.nearAt i i.k] = none)
    (held : s.awake.unheld i (y.toNat % 64) (y.toNat / 64 % 64 + 1) = none) :
    exec (.hault a b q g) s = .next (i.finished xfAttr ((s.awake.placeEntry i q.toNat (.tiles x.toNat
      (if y.toNat / 2 ^ 32 = 0 then 128 else y.toNat / 2 ^ 32) (y.toNat % 64) (y.toNat / 64 % 64 + 1) (4 * i.k)) false).modTile i.core
        fun t => t.modSlots (y.toNat % 64) (y.toNat / 64 % 64 + 1) fun x => { x with claims := x.claims + 1 })) := by
  change execHault a b q g s = _
  have passes : firstFailing [s.awake.nearAt i i.k, .ok (0, 0)] = none := (firstFailing_append_ok [_] (0, 0)).trans near
  refine xfUnit_of_readsWide reads noQueueA noQueueB ?_
  simp only [range.legal, range.base, ne_eq, not_true_eq_false, Bool.false_eq_true, if_false, takes.group, passes, held,
    State.accept_of_takesEntry takes]

/-! ### CBUMP (R258) -/

theorem exec_cbump_of_takesEntry (reads : ReadsWide xfAttr g a b [] s u i x y) (noQueueA : isQueue a = false) (noQueueB : isQueue b = false)
    (takes : TakesEntry s.awake i q) (k : i.k = 0) (passes : firstFailing [s.awake.spanAt i (x.toNat % 2 ^ 32) 4 4] = none) :
    exec (.cbump a b q g) s =
      .next (i.finished xfAttr (s.awake.placeEntry i q.toNat (.bump (x.setWidth 32) (y.setWidth 32)) false)) := by
  change execCbump a b q g s = _
  refine xfUnit_of_readsWide reads noQueueA noQueueB ?_
  simp only [k, ne_eq, not_true_eq_false, Bool.false_eq_true, if_false, takes.group, passes, State.accept_of_takesEntry takes, id]

end Entries

/-! ### XSTAT and QFENCE (R259, R261) -/

section Status
variable {a : RegField} {q : BitVec 2} {m : BitVec 4} {g : GuardField} {s u : State} {i : Issue} {x y : Dword}

/-- R259, R261: XSTAT reads the status word, and CLR clears a queue that has faulted. -/
theorem exec_xstat_of_readsWide (reads : ReadsWide xfAttr g 60 60 [a] s u i x y) (noQueue : isQueue a = false) (group : i.hank = false)
    (k : i.k ≤ 1) :
    (let e := s.awake.queue i.core i.engines q.toNat
     let t := s.awake.writeLanes i .pair a i.active fun _ => BitVec.ofNat 64 e.status
     exec (.xstat a q g) s = .next (i.finished xfAttr
      (if i.k = 1 ∧ e.faulted = true then t.clearQueue i.core i.engines q.toNat else t))) := by
  change execXstat a q g s = _
  refine xfUnit_of_readsWide reads rfl rfl ?_
  simp only [noQueue, group, Nat.not_lt.mpr k, Bool.false_eq_true, if_false, Bool.and_eq_true, decide_eq_true_eq]

/-- The queues that a QFENCE names. -/
abbrev fencedQueues (m : BitVec 4) : List Nat := (List.range 4).filter fun j => m.getLsbD j

/-- R261: a join enters every queue that is named, where none of them has faulted or is full. -/
theorem exec_qfence_of_room (reads : ReadsWide xfAttr g 60 60 [] s u i x y) (group : i.hank = false) (nonzero : m ≠ 0) (k : i.k = 0)
    (sound : ∀ j ∈ fencedQueues m, (s.awake.queue i.core i.engines j).faulted = false)
    (room : ∀ j ∈ fencedQueues m, (s.awake.queue i.core i.engines j).entries.length < 16) :
    exec (.qfence m g) s = .next (i.finished xfAttr (((fencedQueues m).foldl
      (fun t j => t.placeEntry i j (.join m (s.awake.newId i.core).1) true) (s.awake.newId i.core).2).advance i.core i.engines 64)) := by
  change execQfence m g s = _
  have noneFaulted : ((fencedQueues m).find? fun j => (s.awake.queue i.core i.engines j).faulted) = none :=
    List.find?_eq_none.mpr fun j named => Bool.eq_false_iff.mp (sound j named)
  have noneFull : ((fencedQueues m).any fun j => decide (16 ≤ (s.awake.queue i.core i.engines j).entries.length)) = false :=
    List.any_eq_false.mpr fun j named => by rw [decide_eq_true_eq]; exact Nat.not_le.mpr (room j named)
  refine xfUnit_of_readsWide reads rfl rfl ?_
  simp only [nonzero, k, ne_eq, not_true_eq_false, group, noneFaulted, noneFull, Bool.false_eq_true, if_false]

end Status

/-- Settles O21: each word is the lemma of its checks. -/
theorem engineEntries : Obligations.EngineEntries := by
  unfold Obligations.EngineEntries
  refine ⟨fun a b q g s u i x y reads noQueueA noQueueB takes => ⟨?copies, ?powers, ?tiles, ?bump⟩,
    fun a q m g s u i x y group => ⟨fun reads noQueue k => exec_xstat_of_readsWide reads noQueue group k, ?fence⟩⟩
  case copies =>
    intro k unused least most words base passes
    have range : CopyRange i x y := ⟨k, unused, least, most, words, base⟩
    exact ⟨copyUnit_of_copyRange false reads noQueueA noQueueB takes range passes,
      copyUnit_of_copyRange true reads noQueueA noQueueB takes range passes⟩
  case powers =>
    intro length base passes
    exact ⟨copyUnit_of_copy2Range false reads noQueueA noQueueB takes length base passes,
      copyUnit_of_copy2Range true reads noQueueA noQueueB takes length base passes⟩
  case tiles =>
    intro k unused slots pitch base near held
    exact exec_hault_of_tileRange reads noQueueA noQueueB takes ⟨k, unused, slots, pitch, base⟩ near held
  case bump => exact exec_cbump_of_takesEntry reads noQueueA noQueueB takes
  case fence =>
    intro reads nonzero k named takes
    exact exec_qfence_of_room reads group nonzero k (fun j named => (takes j named).1) fun j named => (takes j named).2

end Sys2Proof.Machine
end

section
/-! PROOF. The events of die edges, fabric ports and fabric packets (O46). -/

namespace Sys2Proof.Machine

/-! ### Links (R415, R416, R424) -/

section Links
variable {s : State} {l : Nat}

theorem exec_linkTrained_of_training (training : s.linkState l = .training) : exec (.linkTrained l) s = .next (s.setLink l .up) := by
  change execLinkTrained l s = _
  simp only [execLinkTrained, training, beq_self_eq_true, if_true]

theorem exec_linkRetrained_of_retraining (retraining : s.linkState l = .retraining) :
    exec (.linkRetrained l) s = .next (s.setLink l .up) := by
  change execLinkRetrained l s = _
  simp only [execLinkRetrained, retraining, beq_self_eq_true, if_true]

/-- R415: a link that trains or retrains is down. -/
theorem trains_of_down {x : LinkState} (down : x = .training ∨ x = .retraining) : (x == .training || x == .retraining) = true := by
  rcases down with rfl | rfl <;> rfl

end Links

/-! ### Die edges (R416) -/

section Edges
variable {s : State} {l : Nat}

/-- Links 0 to 71 are the die edges. -/
theorem State.linkState_edge (s : State) (isEdge : l < 72) : s.linkState l = s.edge l := if_pos isEdge

theorem exec_linkError_of_edge (isEdge : l < 72) (up : s.edge l = .up) : exec (.linkError l) s = .next (s.setLink l .retraining) := by
  change execLinkError l s = _
  simp only [execLinkError, s.linkState_edge isEdge, up, beq_self_eq_true, if_true, if_pos isEdge]

/-- R381, R416: a die edge that fails loses what it may hold, and the launches that cross it are told. -/
theorem exec_linkFailureTimeout_of_edge (isEdge : l < 72) (down : s.edge l = .training ∨ s.edge l = .retraining) :
    exec (.linkFailureTimeout l) s =
      .next (((((s.setLink l .failed).loseFlows l).losePieces l).losePages l).linkDown l) := by
  change execLinkFailureTimeout l s = _
  simp only [execLinkFailureTimeout, s.linkState_edge isEdge, trains_of_down down, if_true, if_pos isEdge]

end Edges

/-! ### Fabric ports (R415, R419, R424) -/

section Ports
variable {s : State} {p : Nat}

/-- A port is changed. -/
abbrev State.putPort (s : State) (p : Nat) (x : Port) : State := s.modLink fun k => { k with ports := SMap.put k.ports p x }

@[simp] theorem State.hostEvent_port (s : State) (bit p : Nat) : (s.hostEvent bit).port p = s.port p := rfl

@[simp] theorem State.putPort_port (s : State) (p : Nat) (x : Port) : (s.putPort p x).port p = x := by
  simp only [State.port, State.modLink_link, SMap.find_put_self, Option.getD_some]

/-- Links 72 to 135 are the fabric ports. -/
theorem State.linkState_port (s : State) (p : Nat) : s.linkState (72 + p) = (s.port p).state := by
  rw [State.linkState, if_neg (Nat.not_lt.mpr (Nat.le_add_right 72 p)), Nat.add_sub_cancel_left]

theorem State.setLink_port (s : State) (p : Nat) (x : LinkState) :
    s.setLink (72 + p) x = (s.putPort p { s.port p with state := x }).hostEvent 1 := by
  rw [State.setLink, if_neg (Nat.not_lt.mpr (Nat.le_add_right 72 p)), Nat.add_sub_cancel_left]

/-- R419: a port that errs retrains, of which the host is told, and counts that it does. -/
theorem exec_linkError_of_port (up : (s.port p).state = .up) : exec (.linkError (72 + p)) s =
    .next (((s.putPort p { s.port p with state := .retraining }).hostEvent 1).putPort p
      { s.port p with state := .retraining, retrainings := (s.port p).retrainings + 1 }) := by
  change execLinkError (72 + p) s = _
  simp only [execLinkError, s.linkState_port, s.setLink_port, up, beq_self_eq_true, if_true,
    if_neg (Nat.not_lt.mpr (Nat.le_add_right 72 p)), Nat.add_sub_cancel_left, State.hostEvent_port, State.putPort_port]

theorem exec_linkFailureTimeout_of_port (down : (s.port p).state = .training ∨ (s.port p).state = .retraining) :
    exec (.linkFailureTimeout (72 + p)) s = .next ((s.putPort p { s.port p with state := .failed }).hostEvent 1) := by
  change execLinkFailureTimeout (72 + p) s = _
  simp only [execLinkFailureTimeout, s.linkState_port, s.setLink_port, trains_of_down down, if_true,
    if_neg (Nat.not_lt.mpr (Nat.le_add_right 72 p))]

/-- The state that FPCTL.EN gives a port (R415). -/
def Port.enabled (q : Port) : LinkState :=
  if q.en then (if q.state = .disabled then .training else q.state)
  else if q.state = .up ∨ q.state = .failed then .disabled else q.state

/-- R415: a written FPCTL.EN takes effect, and the host is told where the port's state changes. -/
theorem exec_fpctlWrite_of_written (written : (s.port p).written = true) : exec (.fpctlWrite p (s.port p).en) s =
    .next (let t := s.putPort p { s.port p with written := false, state := (s.port p).enabled }
      if (s.port p).enabled = (s.port p).state then t else t.hostEvent 1) := by
  change execFpctlWrite p (s.port p).en s = _
  simp only [execFpctlWrite, State.applyFpctl, written, beq_self_eq_true, Bool.not_true, Bool.false_eq_true, if_true, if_false,
    Bool.or_eq_true, beq_iff_eq]
  rfl

end Ports

/-! ### Fabric packets (R246, R418, R419) -/

section Fabric
variable {s : State} {pkg seq j : Nat} {op : FabricOp}

/-- Packets arrive over a port that carries traffic (R415). -/
theorem anyPort_of_portUp (up : ∃ n < 64, s.portUp n = true) : ((List.range 64).any s.portUp) = true := by
  obtain ⟨n, small, works⟩ := up
  exact List.any_eq_true.mpr ⟨n, List.mem_range.mpr small, works⟩

/-- The next expected number is no duplicate (R418). -/
theorem FabricFlow.duplicate_nextExpected (f : FabricFlow) : f.duplicate f.nextExpected = false := by
  simp [FabricFlow.duplicate]

/-- R418: a duplicate is answered with the reply that is kept. -/
theorem exec_fabricPacket_of_duplicate (up : ∃ n < 64, s.portUp n = true) (other : pkg ≠ ownPackage)
    (duplicate : (s.fabricFlow pkg).duplicate seq = true) :
    exec (.fabricPacket pkg seq op) s = .next (s.setFabric pkg { s.fabricFlow pkg with
      answer := some (seq, (SMap.find (s.fabricFlow pkg).replies seq).getD []) }) := by
  change execFabricPacket pkg seq op s = _
  simp only [execFabricPacket, anyPort_of_portUp up, duplicate, bne_iff_ne.mpr other, Bool.not_true, Bool.false_eq_true, if_false,
    Bool.and_self, if_true]

/-- R418: the next expected packet is performed, and its reply kept in place of the one 256 packets before. -/
theorem exec_fabricPacket_of_expected (next : seq = (s.fabricFlow pkg).nextExpected) (up : ∃ n < 64, s.portUp n = true)
    (ready : s.fabricReady op = true) (other : pkg ≠ ownPackage) :
    (let t := (s.performFabric op).2
     let f := t.fabricFlow pkg
     exec (.fabricPacket pkg seq op) s = .next (t.setFabric pkg { f with
      nextExpected := (seq + 1) % 2 ^ 24
      answer := some (seq, (s.performFabric op).1)
      replies := SMap.drop (SMap.put f.replies seq (s.performFabric op).1) ((seq + 2 ^ 24 - 256) % 2 ^ 24) })) := by
  have fresh : (s.fabricFlow pkg).duplicate seq = false := next ▸ FabricFlow.duplicate_nextExpected _
  change execFabricPacket pkg seq op s = _
  simp only [execFabricPacket, anyPort_of_portUp up, fresh, ready, beq_eq_false_iff_ne.mpr other, not_not_intro next, decide_false,
    Bool.not_true, Bool.false_and, Bool.or_self, Bool.false_eq_true, if_false]

/-- R418: an acknowledgement frees every packet up to its number. -/
theorem exec_fabricAcknowledgement_of_sent (sent : ((s.fabricFlow pkg).replay.take 256).findIdx? (·.1 == seq) = some j)
    (reachable : s.reachable pkg = true) : exec (.fabricAcknowledgement pkg seq) s =
      .next (((s.fabricFlow pkg).replay.take (j + 1)).foldl (fun t x => t.fabricDone pkg x.2)
        (s.setFabric pkg { s.fabricFlow pkg with replay := (s.fabricFlow pkg).replay.drop (j + 1), expiries := 0 })) := by
  change execFabricAcknowledgement pkg seq s = _
  simp only [execFabricAcknowledgement, sent, reachable, Bool.not_true, Bool.false_eq_true, if_false]

theorem exec_fabricAckTimer_of_unacked (unacked : (s.fabricFlow pkg).acked ≠ (s.fabricFlow pkg).nextExpected) :
    exec (.fabricAckTimer pkg) s =
      .next (s.setFabric pkg { s.fabricFlow pkg with acked := (s.fabricFlow pkg).nextExpected }) := by
  change execFabricAckTimer pkg s = _
  simp only [execFabricAckTimer, if_neg unacked]

/-! ### Expiries (R418, R421) -/

theorem exec_fabricResendTimeout_of_working (unacked : (s.fabricFlow pkg).replay ≠ []) (works : s.portsFailed pkg = false) :
    exec (.fabricResendTimeout pkg) s = .next (s.setFabric pkg { s.fabricFlow pkg with expiries := 0 }) := by
  change execFabricResendTimeout pkg s = _
  simp only [execFabricResendTimeout, List.isEmpty_eq_false_iff.mpr unacked, works, Bool.false_eq_true, if_false]
  rfl

/-- R421: at the eighth expiry in a row with every port failed the host is told. -/
theorem exec_fabricResendTimeout_of_failed (unacked : (s.fabricFlow pkg).replay ≠ []) (failed : s.portsFailed pkg = true) :
    exec (.fabricResendTimeout pkg) s = .next (if (s.fabricFlow pkg).expiries = 7
      then (s.setFabric pkg { s.fabricFlow pkg with expiries := 8 }).hostEvent 2
      else s.setFabric pkg { s.fabricFlow pkg with expiries := (s.fabricFlow pkg).expiries + 1 }) := by
  have eighth : (s.fabricFlow pkg).expiries + 1 = 8 ↔ (s.fabricFlow pkg).expiries = 7 := Nat.succ_inj
  change execFabricResendTimeout pkg s = _
  simp only [execFabricResendTimeout, List.isEmpty_eq_false_iff.mpr unacked, failed, Bool.false_eq_true, if_false, if_true, eighth]
  split
  next seven => rw [seven]
  next => rfl

end Fabric

/-- Settles O46: every clause is the lemma of its event. -/
theorem linkEvents : Obligations.LinkEvents := by
  unfold Obligations.LinkEvents
  intro s l p pkg seq j en op
  refine ⟨fun isEdge => ?edge, ⟨fun training => ?trained, fun retraining => ?retrained,
      fun up => ⟨_, exec_linkError_of_port up, State.putPort_port ..⟩, exec_linkFailureTimeout_of_port, fun en written => ?enable⟩,
    exec_fabricPacket_of_duplicate, exec_fabricPacket_of_expected, exec_fabricAcknowledgement_of_sent, exec_fabricAckTimer_of_unacked,
    fun unacked => ⟨exec_fabricResendTimeout_of_working unacked, exec_fabricResendTimeout_of_failed unacked⟩⟩
  case edge =>
    have link := s.linkState_edge isEdge
    exact ⟨fun training => exec_linkTrained_of_training (link.trans training),
      fun retraining => exec_linkRetrained_of_retraining (link.trans retraining),
      exec_linkError_of_edge isEdge, exec_linkFailureTimeout_of_edge isEdge⟩
  case trained => rw [exec_linkTrained_of_training ((s.linkState_port p).trans training), State.setLink_port]
  case retrained => rw [exec_linkRetrained_of_retraining ((s.linkState_port p).trans retraining), State.setLink_port]
  case enable =>
    subst en
    have takesEffect := exec_fpctlWrite_of_written written
    refine ⟨fun changes => takesEffect.trans (congrArg _ (if_neg changes)), fun stays => takesEffect.trans (congrArg _ ?_)⟩
    exact (if_pos stays).trans (by rw [show (s.port p).enabled = _ from stays])

end Sys2Proof.Machine
end

section
/-! PROOF. What the words of these statements share: operands checked before QUEUE_MAP, slots held, and what leaves queues. -/

namespace Sys2Proof.Machine

/-! ### Operands whose values are checked before QUEUE_MAP (R33) -/

/-- What a check before QUEUE_MAP sees of operands v: each operand's value, or 0 for an entry not yet popped. -/
def SeenBefore (w v : List (Nat → Dword)) : Prop := List.Forall₂ (fun x y => x = y ∨ x = fun _ => 0) w v

theorem SeenBefore.refl (v : List (Nat → Dword)) : SeenBefore v v := List.forall₂_same.mpr fun _ _ => .inl rfl

/-- In every lane alike, the check sees an operand's value, or 0. -/
theorem SeenBefore.nth {w v : List (Nat → Dword)} (seen : SeenBefore w v) (k : Nat) :
    (∀ l, nth w k l = nth v k l) ∨ ∀ l, nth w k l = 0 := by
  induction seen generalizing k with
  | nil => exact .inl fun _ => rfl
  | cons head _ ih => cases k with
    | zero => exact head.imp (fun same _ => congrFun same _) fun zero _ => congrFun zero _
    | succ k => exact ih k

section Operands
variable {s u : State} {i : Issue} {srcs : List (Cls × RegField)} {dsts : List RegField} {v : List (Nat → Dword)}

/-- What the checks before QUEUE_MAP see of the sources. -/
abbrev State.registersSeen (s : State) (i : Issue) (srcs : List (Cls × RegField)) : List (Nat → Dword) :=
  srcs.map fun x => if isQueue x.2 then fun _ => 0 else s.source i x.1 x.2 none

theorem State.tokenPending_of_operands (read : s.operands i srcs dsts = .ok v u) :
    s.tokenPending i (srcs.flatMap fun x => fieldRegs x.1 x.2) = false := by
  refine Bool.eq_false_iff.mpr fun pending => ?_
  unfold State.operands at read
  simp only [pending, if_true] at read
  split at read <;> cases read

/-- R31: a register gives the value that it holds before the unit, whatever the unit pops. -/
theorem State.registersSeen_foldl (s : State) (i : Issue) (srcs : List (Cls × RegField)) {seen : List (Nat → Dword)}
    {acc : List (Nat → Dword) × State} (same : SeenBefore seen acc.1) :
    SeenBefore (seen ++ s.registersSeen i srcs) (srcs.foldl (fun (acc : List (Nat → Dword) × State) x =>
      if isQueue x.2 then
        let (e, t) := acc.2.popQueue i (queueIndex x.2)
        (acc.1 ++ [s.source i x.1 x.2 (some e)], t)
      else (acc.1 ++ [s.source i x.1 x.2 none], acc.2)) acc).1 := by
  induction srcs generalizing seen acc with
  | nil => rw [State.registersSeen, List.map_nil, List.append_nil]; exact same
  | cons x xs ih =>
    rw [State.registersSeen, List.map_cons, List.append_cons]
    refine ih ?_
    by_cases queue : isQueue x.2 = true
    · simp only [queue, if_true]
      exact List.rel_append same (.cons (.inr rfl) .nil)
    · simp only [queue, Bool.false_eq_true, if_false]
      exact List.rel_append same (.cons (.inl rfl) .nil)

theorem State.registersSeen_of_operands (read : s.operands i srcs dsts = .ok v u) : SeenBefore (s.registersSeen i srcs) v := by
  unfold State.operands at read
  dsimp only at read
  split at read
  · cases read
  · split at read
    · cases read
    · injection read with values _
      rw [← values]
      exact State.registersSeen_foldl s i srcs (seen := []) (acc := ([], s)) .nil

theorem State.operandsAfter_of_checks {early : List (Nat → Dword) → Option Eff} (read : s.operands i srcs dsts = .ok v u)
    (before : early (s.registersSeen i srcs) = none) (passes : early v = none) : s.operandsAfter i srcs dsts early = .ok v u := by
  simp only [State.operandsAfter, State.tokenPending_of_operands read, before, read, passes, Bool.false_eq_true, if_false]

theorem State.operandsAfter_of_operands {early : List (Nat → Dword) → Option Eff} (read : s.operands i srcs dsts = .ok v u)
    (passes : ∀ w, SeenBefore w v → early w = none) : s.operandsAfter i srcs dsts early = .ok v u :=
  State.operandsAfter_of_checks read (passes _ (State.registersSeen_of_operands read)) (passes v (.refl v))

/-- Where the source is a register, the checks see its value. -/
theorem State.registersSeen_of_register {c : Cls} {f : RegField} (read : s.operands i [(c, f)] dsts = .ok v u)
    (register : isQueue f = false) : s.registersSeen i [(c, f)] = v := by
  unfold State.operands at read
  simp only [List.filter_cons, register, Bool.false_eq_true, if_false, List.filter_nil, List.map_nil, List.foldl_cons, List.foldl_nil,
    List.nil_append] at read
  split at read
  · cases read
  · split at read
    · cases read
    · injection read with values _
      rw [← values, State.registersSeen, List.map_cons, List.map_nil]
      simp only [register, Bool.false_eq_true, if_false]

end Operands

/-! ### E-format words (R33) -/

section Wide
variable {t : Attr} {g : GuardField} {a b : RegField} {write : List RegField} {s u v : State} {i : Issue} {x y : Dword}
  {illegal : Issue → Bool} {early : Issue → Dword → Dword → State → Option Eff} {f : Issue → Dword → Dword → State → State → Eff}

/-- A check before QUEUE_MAP that the operands pass, and that they would pass as zeros. -/
def PassesEarly (early : Dword → Dword → Option Eff) (x y : Dword) : Prop :=
  ∀ x' y', x' = x ∨ x' = 0 → y' = y ∨ y' = 0 → early x' y' = none

/-- A word that issues and reads its operands is settled by what its body says of their values. -/
theorem twoWideAfter_settles (reads : ReadsWide t g a b write s u i x y) (legal : illegal i = false)
    (passes : PassesEarly (fun x y => early i x y s.awake) x y) :
    twoWideAfter t a b write g illegal early f s = .next ((f i x y s.awake u).settle t i s.awake) := by
  obtain ⟨issues, ⟨readA, readB⟩, writable, vals, read, rfl, rfl⟩ := reads
  have written : (write.all fun r => i.regOk true .pair r) = true := List.all_eq_true.mpr writable
  have after := State.operandsAfter_of_operands (early := fun v => early i (nth v 0 (lowestLane i.active)) (nth v 1 (lowestLane i.active))
    s.awake) read fun w seen => passes _ _ ((seen.nth 0).imp (· _) (· _)) ((seen.nth 1).imp (· _) (· _))
  refine (runUnit_issues issues _).trans ?_
  simp only [readA, readB, written, legal, after, Bool.not_true, Bool.or_self, Bool.false_eq_true, if_false]

theorem twoWideAfter_done (reads : ReadsWide t g a b write s u i x y) (legal : illegal i = false)
    (passes : PassesEarly (fun x y => early i x y s.awake) x y) (done : f i x y s.awake u = .done v) :
    twoWideAfter t a b write g illegal early f s = .next (i.finished t v) := by
  rw [twoWideAfter_settles reads legal passes, done]; rfl

end Wide

/-! ### Slots (R272, R287) -/

section Slots
variable {s u : State} {i : Issue} {r : Resident} {slots : List Nat}

theorem HoldsSlots.tileChecks (holds : HoldsSlots s i r slots) (ok : Resident → Eff) : s.tileChecks i slots ok = ok r := by
  obtain ⟨unit, group, held⟩ := holds
  have found : (slots.find? fun k => (r.reservation k).isNone) = none :=
    List.find?_eq_none.mpr fun k mem => by rw [← Option.not_isSome, held k mem]; decide
  unfold State.tileChecks
  simp only [unit, group, found, Bool.false_eq_true, if_false]

end Slots

/-! ### Where a result goes (R151) -/

section Broadcasts
variable {u : State} {i : Issue} {a : RegField}

/-- A change of the issuing unit that leaves its queues leaves where a result goes. -/
theorem State.broadcasts_modUnit (broadcast : u.broadcasts i a) (k : Nat) {f : Resident → Resident}
    (queues : ∀ r, (f r).queues = r.queues) : (u.modUnit i.core k f).broadcasts i a :=
  State.broadcasts_of_queues broadcast fun _ => by
    rw [State.unit_modUnit]
    split
    case isTrue own =>
      rw [Option.map_map, own]
      exact congrArg (fun h : Resident → _ => Option.map h _) (funext queues)
    case isFalse => rfl

theorem State.broadcasts_modTile (broadcast : u.broadcasts i a) (c : Nat) (f : TilePart → TilePart) : (u.modTile c f).broadcasts i a :=
  State.broadcasts_modCore broadcast c fun _ => rfl

theorem State.broadcasts_modHandlers (broadcast : u.broadcasts i a) (c : Nat) (f : HandlerPart → HandlerPart) :
    (u.modHandlers c f).broadcasts i a := State.broadcasts_modCore broadcast c fun _ => rfl

theorem State.broadcasts_modRay (broadcast : u.broadcasts i a) (c : Nat) (f : RayPart → RayPart) : (u.modRay c f).broadcasts i a :=
  State.broadcasts_modCore broadcast c fun _ => rfl

end Broadcasts

end Sys2Proof.Machine
end

section
/-! PROOF. CLAIM, RELEASE, TSTAT, TFILL, TDRAIN and SPLICE (O22). -/

namespace Sys2Proof.Machine

section Words
variable {a b k : RegField} {m : BitVec 2} {g : GuardField} {s u : State} {i : Issue} {x y : Dword} {r : Resident}

/-! ### CLAIM, RELEASE and TSTAT (R265 to R269, R284) -/

theorem exec_claim_of_noRun (reads : ReadsWide tileAttr g 60 b [a] s u i x y) (holds : HoldsSlots s.awake i r []) (sound : consistent y = true)
    (broadcast : u.broadcasts i a)
    (none : (s.awake.core i.core).tile.freeRun r.slotBase r.slotCount (describe y 0 ((r.rgen + 1) % 2 ^ 20)).count = none) :
    exec (.claim a b g) s = .next (i.finished tileAttr (u.answered i a (BitVec.allOnes 64))) := by
  change execClaim a b g s = _
  refine twoWide_of_readsWide reads rfl ?_
  simp only [holds.tileChecks, sound, none, Bool.not_true, Bool.false_eq_true, if_false]
  exact State.result_of_broadcasts broadcast .pair _

theorem exec_claim_of_run {first : Nat} (reads : ReadsWide tileAttr g 60 b [a] s u i x y) (holds : HoldsSlots s.awake i r [])
    (sound : consistent y = true) (broadcast : u.broadcasts i a)
    (run : (s.awake.core i.core).tile.freeRun r.slotBase r.slotCount (describe y 0 ((r.rgen + 1) % 2 ^ 20)).count = some first) :
    let v := { describe y 0 ((r.rgen + 1) % 2 ^ 20) with first := first }
    exec (.claim a b g) s = .next (i.finished tileAttr (((u.modTile i.core (·.claim v)).modUnit i.core i.unit fun r =>
      { r with resvs := r.resvs ++ [v], rgen := r.rgen + 1 }).answered i a
        (BitVec.ofNat 64 (first + 64 * (v.count - 1) + 4096 * v.rgen)))) := by
  intro v
  change execClaim a b g s = _
  refine twoWide_of_readsWide reads rfl ?_
  simp only [holds.tileChecks, sound, run, Bool.not_true, Bool.false_eq_true, if_false]
  have kept := State.broadcasts_modUnit (State.broadcasts_modTile broadcast i.core (·.claim v)) i.unit
    (f := fun r => { r with resvs := r.resvs ++ [v], rgen := r.rgen + 1 }) fun _ => rfl
  exact State.result_of_broadcasts kept .pair _

/-- A handle is a word: its upper half is 0, and so is that of an entry not yet popped. -/
theorem passesEarly_word (low : x.toNat < 2 ^ 32) (e : Eff) : PassesEarly (fun h _ => if h.toNat / 2 ^ 32 ≠ 0 then some e else none) x y := by
  rintro x' y' (rfl | rfl) -
  · exact if_neg (not_not_intro (Nat.div_eq_of_lt low))
  · rfl

theorem exec_release_of_idle {v : Reservation} (reads : ReadsWide tileAttr g a 60 [] s u i x y) (holds : HoldsSlots s.awake i r [])
    (low : x.toNat < 2 ^ 32) (named : r.named x = some v)
    (unpaired : ∀ y ∈ (s.awake.core i.core).tile.splices, ¬ (y.unit = i.unit ∧ v.holds y.slot = true))
    (idle : ∀ j < v.count, let y := (s.awake.core i.core).tile.slot (v.first + j)
      y.state ≠ .filling ∧ y.state ≠ .draining ∧ y.readers = 0 ∧ y.claims = 0) :
    exec (.release a g) s = .next (i.finished tileAttr
      ((u.modTile i.core fun t => (List.range v.count).foldl (fun t j => t.free (v.first + j)) t).modUnit i.core i.unit fun r =>
        { r with resvs := r.resvs.erase v })) := by
  change execRelease a g s = _
  refine twoWideAfter_done reads rfl (passesEarly_word low _) ?_
  have spliced : ((s.awake.core i.core).tile.splices.find? fun x => x.unit == i.unit && v.holds x.slot) = none :=
    List.find?_eq_none.mpr fun y mem => by
      rw [Bool.and_eq_true, beq_iff_eq]
      exact unpaired y mem
  have busy : ((List.range v.count).any fun j =>
      let x := (s.awake.core i.core).tile.slot (v.first + j)
      x.state == .filling || x.state == .draining || x.readers != 0 || x.claims != 0) = false :=
    List.any_eq_false.mpr fun j mem => by
      obtain ⟨filling, draining, readers, claims⟩ := idle j (List.mem_range.mp mem)
      simp [filling, draining, readers, claims]
  simp only [holds.tileChecks, named, spliced, busy, Bool.false_eq_true, if_false]

theorem exec_tstat (reads : ReadsWide tileAttr g 60 60 [a] s u i x y) (holds : HoldsSlots s.awake i r []) (broadcast : u.broadcasts i a) :
    exec (.tstat a k g) s = .next (i.finished tileAttr
      (u.answered i a (BitVec.ofNat 64 (slotStatus ((s.awake.core i.core).tile.slot k.toNat) (r.reservation k.toNat))))) := by
  change execTstat a k g s = _
  refine twoWide_of_readsWide reads rfl ?_
  simp only [holds.tileChecks]
  exact State.result_of_broadcasts broadcast .pair _

/-! ### TFILL and TDRAIN (R272) -/

/-- The operands of a TFILL or TDRAIN are ones that R272 allows. -/
structure TileOperands (i : Issue) (x y : Dword) : Prop where
  field : y.toNat < 4096
  inside : y.toNat % 64 + (y.toNat / 64 % 64 + 1) ≤ 64
  k : i.k < 2 ^ 18
  pitch : x.toNat / 2 ^ 32 = 0 ∨ x.toNat / 2 ^ 32 % 64 = 0 ∧ 128 ≤ x.toNat / 2 ^ 32

theorem TileOperands.sound (operands : TileOperands i x y) : tileOperandsBad i.k x y = false := by
  obtain ⟨field, inside, k, pitch⟩ := operands
  unfold tileOperandsBad
  simp only [Bool.or_eq_false_iff, Bool.and_eq_false_imp, bne_eq_false_iff_eq, decide_eq_false_iff_not, bne_iff_ne]
  refine ⟨⟨⟨Nat.div_eq_of_lt field, Nat.not_lt.mpr inside⟩, Nat.not_le.mpr k⟩, fun nonzero => ?_⟩
  obtain ⟨aligned, wide⟩ := pitch.resolve_left nonzero
  exact ⟨aligned, Nat.not_lt.mpr wide⟩

/-- An operand that counts as zero before it is popped breaks none of those rules. -/
theorem TileOperands.passesEarly (operands : TileOperands i x y) (e : Eff) :
    PassesEarly (fun x y => if tileOperandsBad i.k x y then some e else none) x y := by
  intro x' y' left right
  have still : TileOperands i x' y' := by
    obtain ⟨field, inside, k, pitch⟩ := operands
    constructor
    · rcases right with rfl | rfl
      · exact field
      · decide
    · rcases right with rfl | rfl
      · exact inside
      · decide
    · exact k
    · rcases left with rfl | rfl
      · exact pitch
      · exact .inl rfl
  exact if_neg (by rw [still.sound]; decide)

/-- What TFILL and TDRAIN ask of their rows and of their core besides the slots' states: rows and counter within reach, and room for a
command. -/
structure TakesCopy (s : State) (i : Issue) (x y : Dword) (r : Resident) : Prop where
  slots : HoldsSlots s i r ((List.range (y.toNat / 64 % 64 + 1)).map (y.toNat % 64 + ·))
  reach : firstFailing [s.spanAt i (x.toNat % 2 ^ 32) ((64 * (y.toNat / 64 % 64 + 1) - 1) *
    (if x.toNat / 2 ^ 32 = 0 then 128 else x.toNat / 2 ^ 32) + 128) 64, s.nearAt i i.k] = none
  room : (s.core i.core).tile.cmds.length < 8
  inbox : s.ownRoom i.core = true

/-- The command of a TFILL or TDRAIN. -/
def Issue.tileCmd (i : Issue) (x y : Dword) (fill : Bool) : TileCmd :=
  ⟨fill, i.unit, i.kind == .lead, BitVec.ofNat 32 (x.toNat % 2 ^ 32), if x.toNat / 2 ^ 32 = 0 then 128 else x.toNat / 2 ^ 32, y.toNat % 64,
    y.toNat / 64 % 64 + 1, 4 * i.k, i.launch, false⟩

theorem exec_tfill_of_writable (reads : ReadsWide tileCopyAttr g a b [] s u i x y) (operands : TileOperands i x y)
    (takes : TakesCopy s.awake i x y r)
    (able : s.awake.slotsWritable i.core ((List.range (y.toNat / 64 % 64 + 1)).map (y.toNat % 64 + ·)) = true) :
    let slots := (List.range (y.toNat / 64 % 64 + 1)).map (y.toNat % 64 + ·)
    exec (.tfill a b g) s = .next (i.finished tileCopyAttr
      ((u.modTile i.core fun t => { slots.foldl (fun t k => t.beginWrite k) t with
        cmds := (slots.foldl (fun t k => t.beginWrite k) t).cmds ++ [i.tileCmd x y true] }).command i.core (.tile i.unit))) := by
  obtain ⟨holds, reach, room, inbox⟩ := takes
  change tileCopy true a b g s = _
  refine twoWideAfter_done reads rfl (operands.passesEarly _) ?_
  simp only [holds.tileChecks, reach, able, Nat.not_le.mpr room, inbox, decide_false, Bool.not_true, Bool.or_self, Bool.false_eq_true,
    if_true, if_false, Issue.tileCmd]

theorem exec_tdrain_of_ready (reads : ReadsWide tileCopyAttr g a b [] s u i x y) (operands : TileOperands i x y)
    (takes : TakesCopy s.awake i x y r)
    (ready : ∀ k ∈ (List.range (y.toNat / 64 % 64 + 1)).map (y.toNat % 64 + ·), ((s.awake.core i.core).tile.slot k).state = .ready) :
    exec (.tdrain a b g) s = .next (i.finished tileCopyAttr
      ((u.modTile i.core fun t =>
        let t := ((List.range (y.toNat / 64 % 64 + 1)).map (y.toNat % 64 + ·)).foldl
          (fun t k => t.modSlot k fun x => { x with state := .draining, readers := x.readers + 1 }) t
        { t with cmds := t.cmds ++ [i.tileCmd x y false] }).command i.core (.tile i.unit))) := by
  obtain ⟨holds, reach, room, inbox⟩ := takes
  change tileCopy false a b g s = _
  refine twoWideAfter_done reads rfl (operands.passesEarly _) ?_
  have filled : (((List.range (y.toNat / 64 % 64 + 1)).map (y.toNat % 64 + ·)).find? fun k =>
      ((s.awake.core i.core).tile.slot k).state == .empty) = none :=
    List.find?_eq_none.mpr fun k mem => by rw [ready k mem]; decide
  have able : (((List.range (y.toNat / 64 % 64 + 1)).map (y.toNat % 64 + ·)).all fun k =>
      ((s.awake.core i.core).tile.slot k).state == .ready) = true :=
    List.all_eq_true.mpr fun k mem => by rw [ready k mem]; rfl
  simp only [holds.tileChecks, filled, reach, able, Nat.not_le.mpr room, inbox, decide_false, Bool.not_true, Bool.or_self,
    Bool.false_eq_true, if_false, Issue.tileCmd]

/-! ### SPLICE (R282) -/

/-- A SPLICE whose exchange can be armed: a direction and a tag, a square rectangle for a transpose, no other exchange of that tag, and a slot
and a place that are free. -/
structure ArmsSplice (s : State) (i : Issue) (k : RegField) (m : BitVec 2) (r : Resident) (x : Context) : Prop where
  direction : m ≠ 3
  tag : i.k < 256
  slots : HoldsSlots s i r [k.toNat]
  context : s.context i.ctx = some x
  square : m = 0 → x.record.rw = x.record.rh
  unused : ∀ y ∈ (s.core i.core).tile.splices, ¬ (y.launch = i.launch ∧ y.m = m.toNat ∧ y.tag = i.k)
  writable : s.slotsWritable i.core [k.toNat] = true
  room : (s.core i.core).tile.splices.length < 4

theorem exec_splice_of_armed {c : Context} (issues : Issues { tileAttr with ximm := true, spin := true } g s i)
    (arms : ArmsSplice s.awake i k m r c) : exec (.splice k m g) s = .next (i.finished storeAttr
      (if c.partner i.core m.toNat = some i.core then s.awake.modTile i.core fun t => (t.beginWrite k.toNat).endWrite k.toNat
       else s.awake.modTile i.core fun t => { t.beginWrite k.toNat with
        splices := (t.beginWrite k.toNat).splices ++ [⟨i.unit, k.toNat, m.toNat, i.k, i.launch, false⟩] })) := by
  obtain ⟨direction, tag, holds, context, square, unused, writable, room⟩ := arms
  have shape : (decide (m = 0) && c.record.rw != c.record.rh) = false :=
    Bool.and_eq_false_imp.mpr fun zero => bne_eq_false_iff_eq.mpr (square (of_decide_eq_true zero))
  have single : ((s.awake.core i.core).tile.splices.any fun y => y.launch == i.launch && y.m == m.toNat && y.tag == i.k) = false :=
    List.any_eq_false.mpr fun y mem same => unused y mem (by
      simp only [Bool.and_eq_true, beq_iff_eq, and_assoc] at same
      exact same)
  change execSplice k m g s = _
  refine (runUnit_issues issues _).trans ?_
  simp only [direction, Nat.not_le.mpr tag, holds.tileChecks, context, shape, single, writable, Nat.not_le.mpr room, decide_false,
    Bool.not_true, Bool.or_self, Bool.false_eq_true, if_false]
  split <;> rfl

end Words

/-- Settles O22: each word passes the checks that its hypotheses answer, and its body is what the statement names. -/
theorem tileSlots : Obligations.TileSlots := by
  unfold Obligations.TileSlots
  intro a b k m g s u i x y r
  refine ⟨fun reads holds sound broadcast => ⟨exec_claim_of_noRun reads holds sound broadcast,
      fun _ => exec_claim_of_run reads holds sound broadcast⟩,
    fun reads holds low v named unpaired idle => exec_release_of_idle reads holds low named unpaired idle,
    exec_tstat, fun reads => ?copy,
    fun c issues direction tag holds context square unused writable room =>
      exec_splice_of_armed issues ⟨direction, tag, holds, context, square, unused, writable, room⟩⟩
  case copy =>
    intro slot count slots pitch p t cmd field inside k pitches holds reach room inbox
    have operands : TileOperands i x y := ⟨field, inside, k, pitches⟩
    have takes : TakesCopy s.awake i x y r := ⟨holds, reach, room, inbox⟩
    exact ⟨exec_tfill_of_writable reads operands takes, exec_tdrain_of_ready reads operands takes⟩

end Sys2Proof.Machine
end

section
/-! PROOF. MMA, MMAT, MMAS, MMSS, COMMIT and WAITB (O23). -/

namespace Sys2Proof.Machine

/-! ### What a step asks (R276, R287) -/

section Steps
variable {s : State} {i : Issue} {x : Dword} {c : BitVec 2} {q : Option Nat} {r : Resident} {acc : Nat}

theorem TakesStep.stepNamed (takes : TakesStep s i x c q r acc) (ok : Resident → StepDesc → Nat → Eff) :
    s.stepNamed i x c q ok = ok r (stepDesc x) acc := by
  obtain ⟨_, holds, ready, format, fits, declared, _⟩ := takes
  have filled : ((stepDesc x).slots.find? fun k => ((s.core i.core).tile.slot k).state == .empty) = none :=
    List.find?_eq_none.mpr fun k mem => by rw [ready k mem]; decide
  unfold State.stepNamed
  simp only [holds.tileChecks, filled, ← format, fits, declared, ne_eq, not_true_eq_false, if_false, Bool.not_true, Bool.false_eq_true]

theorem TakesStep.stepReady (takes : TakesStep s i x c q r acc) : s.stepReady i.core (stepDesc x) = true :=
  List.all_eq_true.mpr fun k mem => by rw [takes.ready k mem]; rfl

theorem TakesStep.stepChecks (takes : TakesStep s i x c q r acc) (ok : Resident → StepDesc → Nat → Eff) :
    s.stepChecks i x c q ok = ok r (stepDesc x) acc := by
  unfold State.stepChecks
  rw [takes.stepNamed, if_pos takes.stepReady]

/-- The descriptor's upper bits are 0, and so are those of an entry not yet popped. -/
theorem TakesStep.passesEarly (takes : TakesStep s i x c q r acc) (y : Dword) : PassesEarly (fun x _ => i.stepBad x s) x y := by
  rintro x' y' (rfl | rfl) -
  · exact if_neg (not_not_intro takes.field)
  · rfl

/-- The A slot of a step is one of its slots. -/
theorem StepDesc.aslot_mem (d : StepDesc) : d.aslot ∈ d.slots := by
  unfold StepDesc.slots
  split <;> exact List.mem_cons_self

end Steps

section Words
variable {a b : RegField} {q c : BitVec 2} {t f : BitVec 1} {g : GuardField} {s u : State} {i : Issue} {x y : Dword} {r : Resident} {acc : Nat}

/-- A group's mask is its active lanes, for which B is gz. -/
theorem groupMask_legal (mask : i.kind = .group → b = 60) : (i.kind == .group && b != 60) = false :=
  Bool.and_eq_false_imp.mpr fun group => bne_eq_false_iff_eq.mpr (mask (eq_of_beq group))

/-! ### MMA, MMAT and MMSS (R277, R278) -/

theorem denseStep_of_takes (reads : ReadsWide stepAttr g a b [] s u i x y) (mask : i.kind = .group → b = 60)
    (takes : TakesStep s.awake i x c none r acc) (transposed : Bool) :
    denseStep transposed a b c g s =
      .next (i.finished stepAttr (u.acceptStep i r (stepDesc x) acc transposed (i.stepMask y) none none)) := by
  refine twoWideAfter_done reads (groupMask_legal mask) (takes.passesEarly y) ?_
  simp only [takes.stepChecks, takes.room, Bool.not_true, Bool.false_eq_true, if_false]
  rfl

theorem exec_mmss_of_takes (reads : ReadsWide { stepAttr with l := false } g a 60 [] s u i x y) (lanes : i.laneRun b 1 = true)
    (written : s.awake.tokenPending i [b.toNat] = false) (takes : TakesStep s.awake i x c (some q.toNat) r acc) :
    exec (.mmss a b q c g) s = .next (i.finished stepAttr (u.acceptStep i r (stepDesc x) acc false i.active
      (some (q.toNat, (List.range 64).map fun l => if i.active.getLsbD l then s.awake.lane i.core r l b.toNat else 0)) none)) := by
  change execMmss a b q c g s = _
  refine twoWideAfter_done reads (by rw [lanes]; rfl) (takes.passesEarly y) ?_
  simp only [takes.stepChecks, takes.room, written, Bool.not_true, Bool.or_self, Bool.false_eq_true, if_false]

/-! ### MMAS (R291, R295, R296) -/

/-- A step asks the fid for the record of its A slot, where its identity has none and a place for the request is free (R291, R295). -/
def State.asksFid (s : State) (i : Issue) (d : StepDesc) (w : State) : State :=
  let id := (s.core i.core).tile.identity i.ctx d.aslot
  if (id.state == .absent || id.state == .stale) && decide ((s.core i.core).tile.requests.length < 8)
  then (w.modTile i.core (·.request i.ctx d.aslot)).command i.core (.compile d.aslot) else w

theorem State.asksFid_eq (s : State) (i : Issue) (d : StepDesc) (w : State) : s.asksFid i d w =
    (let id := (s.core i.core).tile.identity i.ctx d.aslot
     if (id.state = .absent ∨ id.state = .stale) ∧ (s.core i.core).tile.requests.length < 8
     then (w.modTile i.core (·.request i.ctx d.aslot)).command i.core (.compile d.aslot) else w) := by
  simp only [State.asksFid, Bool.and_eq_true, Bool.or_eq_true, beq_iff_eq, decide_eq_true_eq]

theorem State.asksFid_of_present (s : State) (i : Issue) (d : StepDesc) (w : State)
    (absent : ((s.core i.core).tile.identity i.ctx d.aslot).state ≠ .absent)
    (stale : ((s.core i.core).tile.identity i.ctx d.aslot).state ≠ .stale) : s.asksFid i d w = w := by
  rw [State.asksFid_eq]
  exact if_neg fun ⟨wants, _⟩ => wants.elim absent stale

/-- The fid's clock ticks with an accepted MMAS, and a record whose program the step takes is the one used last. -/
def State.fidUsed (u : State) (i : Issue) (d : StepDesc) (prog : Option (Nat × List MicroOp)) : State :=
  u.modCore i.core fun k => { k with
    order := k.order + 1
    tile := { k.tile with fid := SMap.alter k.tile.fid d.aslot fun r => if prog.isSome then { r with used := k.order + 1 } else r } }

/-- What MMAS does with a step that passes its checks: it asks, waits, or accepts the step with the program of a valid record. -/
theorem execMmas_settles (reads : ReadsWide stepAttr g a b [] s u i x y) (mask : i.kind = .group → b = 60)
    (takes : TakesStep s.awake i x c none r acc) :
    let d := stepDesc x
    let id := (s.awake.core i.core).tile.identity i.ctx d.aslot
    let prog := if id.state == .valid then some (id.made, id.prog) else none
    execMmas a b t f c g s = .next ((if (decide (f = 0) && (id.state == .absent || id.state == .stale || id.state == .compiling))
        || !(s.awake.asksFid i d s.awake).stepRoom i.core then Eff.wait (s.awake.asksFid i d s.awake)
      else .done (((s.awake.asksFid i d u).fidUsed i d prog).acceptStep i r d acc (t == 1) (i.stepMask y) none prog)).settle
        stepAttr i s.awake) := by
  intro d id prog
  refine (twoWideAfter_settles reads (groupMask_legal mask) (takes.passesEarly y)).trans ?_
  have room : s.awake.ownRoom i.core = true := (Bool.and_eq_true _ _ ▸ takes.room).2
  have slot := takes.ready _ (stepDesc x).aslot_mem
  rw [takes.stepNamed]
  simp only [slot, room, takes.stepReady, bne_self_eq_false, Bool.not_true, Bool.and_false, Bool.or_self, Bool.false_eq_true, if_false,
    Bool.or_false]
  rfl

section Fid
variable (reads : ReadsWide stepAttr g a b [] s u i x y) (mask : i.kind = .group → b = 60) (takes : TakesStep s.awake i x c none r acc)
include reads mask takes

theorem exec_mmas_of_valid (valid : ((s.awake.core i.core).tile.identity i.ctx (stepDesc x).aslot).state = .valid) :
    let id := (s.awake.core i.core).tile.identity i.ctx (stepDesc x).aslot
    exec (.mmas a b t f c g) s = .next (i.finished stepAttr
      ((u.fidUsed i (stepDesc x) (some (id.made, id.prog))).acceptStep i r (stepDesc x) acc (t == 1) (i.stepMask y) none
        (some (id.made, id.prog)))) := by
  have present (w : State) := s.awake.asksFid_of_present i (stepDesc x) w (by rw [valid]; decide) (by rw [valid]; decide)
  refine (execMmas_settles reads mask takes).trans ?_
  simp only [valid, present, takes.room, beq_self_eq_true, if_true, reduceCtorEq, beq_eq_false_iff_ne.mpr, ne_eq,
    not_false_eq_true, Bool.or_self, Bool.and_false, Bool.not_true, Bool.false_eq_true, if_false]
  rfl

theorem exec_mmas_of_dense (invalid : ((s.awake.core i.core).tile.identity i.ctx (stepDesc x).aslot).state ≠ .valid)
    (goes : f = 1 ∨ ((s.awake.core i.core).tile.identity i.ctx (stepDesc x).aslot).state = .refused)
    (room : (s.awake.asksFid i (stepDesc x) s.awake).stepRoom i.core = true) :
    exec (.mmas a b t f c g) s = .next (i.finished stepAttr
      (((s.awake.asksFid i (stepDesc x) u).fidUsed i (stepDesc x) none).acceptStep i r (stepDesc x) acc (t == 1) (i.stepMask y) none
        none)) := by
  refine (execMmas_settles reads mask takes).trans ?_
  have proceeds : (decide (f = 0) && (((s.awake.core i.core).tile.identity i.ctx (stepDesc x).aslot).state == .absent
      || ((s.awake.core i.core).tile.identity i.ctx (stepDesc x).aslot).state == .stale
      || ((s.awake.core i.core).tile.identity i.ctx (stepDesc x).aslot).state == .compiling)) = false := by
    rcases goes with rfl | refused
    · rfl
    · rw [refused]; exact Bool.and_false _
  simp only [proceeds, room, beq_eq_false_iff_ne.mpr invalid, Bool.not_true, Bool.or_self, Bool.false_eq_true, if_false]
  rfl

theorem exec_mmas_of_waits (missing : (((s.awake.core i.core).tile.identity i.ctx (stepDesc x).aslot).state = .absent ∨
      ((s.awake.core i.core).tile.identity i.ctx (stepDesc x).aslot).state = .stale) ∨
      ((s.awake.core i.core).tile.identity i.ctx (stepDesc x).aslot).state = .compiling) (waits : f = 0) :
    exec (.mmas a b t f c g) s = .next { (s.awake.asksFid i (stepDesc x) s.awake).heldBack with free := s.free } := by
  refine (execMmas_settles reads mask takes).trans ?_
  have held : (decide (f = 0) && (((s.awake.core i.core).tile.identity i.ctx (stepDesc x).aslot).state == .absent
      || ((s.awake.core i.core).tile.identity i.ctx (stepDesc x).aslot).state == .stale
      || ((s.awake.core i.core).tile.identity i.ctx (stepDesc x).aslot).state == .compiling)) = true := by
    simp only [waits, decide_true, Bool.true_and, Bool.or_eq_true, beq_iff_eq]
    exact missing
  simp only [held, Bool.true_or, if_true]
  rfl

end Fid

/-! ### COMMIT and WAITB (R280, R281) -/

theorem exec_commit_of_few (reads : ReadsWide tileAttr g 60 60 [a] s u i x y) (holds : HoldsSlots s.awake i r [])
    (few : ∀ n more, s.awake.stepBatches i.core i.unit = n :: more → (r.batch + 1 - n).toNat ≤ 4)
    (broadcast : (u.modUnit i.core i.unit fun r => { r with batch := r.batch + 1 }).broadcasts i a) :
    exec (.commit a g) s = .next (i.finished tileAttr
      ((u.modUnit i.core i.unit fun r => { r with batch := r.batch + 1 }).answered i a (r.batch.setWidth 64))) := by
  change execCommit a g s = _
  refine twoWide_of_readsWide reads rfl ?_
  have goesOn : (match s.awake.stepBatches i.core i.unit with
      | b :: _ => decide (4 < (r.batch + 1 - b).toNat)
      | [] => false) = false := by
    split
    case h_1 n more listed => exact decide_eq_false (Nat.not_lt.mpr (few n more listed))
    case h_2 => rfl
  rw [holds.tileChecks]
  refine (if_neg (Bool.eq_false_iff.mp goesOn)).trans ?_
  exact State.result_of_broadcasts broadcast .pair _

theorem exec_waitb_of_past (reads : ReadsWide tileAttr g a 60 [] s u i x y) (holds : HoldsSlots s.awake i r [])
    (past : ¬ 0 < (x.setWidth 32 - (r.batch - 1)).toInt)
    (ended : ∀ k ∈ s.awake.stepBatches i.core i.unit, (x.setWidth 32 - k).toInt < 0) :
    exec (.waitb a g) s = .next (i.finished tileAttr u) := by
  change execWaitb a g s = _
  refine twoWide_of_readsWide reads rfl ?_
  have none : ((s.awake.stepBatches i.core i.unit).any fun b => decide (0 ≤ (x.setWidth 32 - b).toInt)) = false :=
    List.any_eq_false.mpr fun k mem => by
      rw [decide_eq_true_eq]
      exact Int.not_le.mpr (ended k mem)
  rw [holds.tileChecks]
  simp only [past, none, Bool.false_eq_true, if_false]

end Words

/-- Settles O23: a step that passes its checks is accepted as its word says; MMAS first looks at the identity of its A slot. -/
theorem matrixSteps : Obligations.MatrixSteps := by
  unfold Obligations.MatrixSteps
  intro a b q c t f g s u i x y r acc
  refine ⟨fun reads mask takes => ⟨denseStep_of_takes reads mask takes false, denseStep_of_takes reads mask takes true, ?fid⟩,
    exec_mmss_of_takes, exec_commit_of_few, exec_waitb_of_past⟩
  case fid =>
    intro id wants ask used
    have asks (w : State) : s.awake.asksFid i (stepDesc x) w = ask w := State.asksFid_eq ..
    simp only [← asks]
    exact ⟨exec_mmas_of_valid reads mask takes, exec_mmas_of_dense reads mask takes, exec_mmas_of_waits reads mask takes⟩

end Sys2Proof.Machine
end

section
/-! PROOF. ACCZ, ACCRD, ACCWR, CVTOM, PSTAT and PINV (O24). -/

namespace Sys2Proof.Machine

section Words
variable {a k : RegField} {col : BitVec 4} {h : BitVec 3} {c : BitVec 2} {g : GuardField} {s u : State} {i : Issue} {x y : Dword}
  {r : Resident} {acc : Nat}

/-! ### Accumulators (R274, R275) -/

theorem AtAccumulator.accChecks {s : State} (there : AtAccumulator s i r c acc) (ok : Resident → Nat → Eff) : s.accChecks i c ok = ok r acc := by
  obtain ⟨holds, declared, still⟩ := there
  have target : ((s.core i.core).tile.steps.find? fun x => x.acc == acc) = none :=
    List.find?_eq_none.mpr fun x mem same => still x mem (eq_of_beq same)
  unfold State.accChecks
  simp only [holds.tileChecks, declared, target]

theorem exec_accz (issues : Issues tileAttr g s i) (there : AtAccumulator s.awake i r c acc) : exec (.accz c g) s =
    .next (i.finished tileAttr (s.awake.modTile i.core fun t => { t with acc := t.acc.filter fun x => x.1 / 4096 ≠ acc })) :=
  runUnit_done issues (there.accChecks _)

theorem exec_accrd (issues : Issues { tileAttr with l := false } g s i) (there : AtAccumulator s.awake i r c acc)
    (lanes : i.laneRun a 8 = true) : exec (.accrd a h c g) s = .next (i.finished tileAttr ((List.range 8).foldl (fun t e =>
      t.writeLanes i .word (a + BitVec.ofNat 6 e) i.active fun l =>
        (SMap.word (s.awake.core i.core).tile.acc (accKey acc l (8 * h.toNat + e))).setWidth 64) s.awake)) := by
  change execAccrd a h c g s = _
  refine runUnit_done issues ?_
  simp only [lanes, there.accChecks, Bool.not_true, Bool.false_eq_true, if_false]

theorem exec_accwr (issues : Issues { tileAttr with l := false } g s i) (there : AtAccumulator s.awake i r c acc)
    (lanes : i.laneRun a 8 = true) (written : s.awake.tokenPending i ((List.range 8).map (a.toNat + ·)) = false) :
    exec (.accwr a h c g) s = .next (i.finished tileAttr (s.awake.modTile i.core fun t => { t with
      acc := (lanesOf i.active).foldl (fun m l => (List.range 8).foldl (fun m e =>
        SMap.setWord m (accKey acc l (8 * h.toNat + e)) (s.awake.lane i.core r l (a.toNat + e))) m) t.acc })) := by
  change execAccwr a h c g s = _
  refine runUnit_done issues ?_
  simp only [lanes, there.accChecks, written, Bool.not_true, Bool.false_eq_true, if_false]

/-! ### CVTOM (R273) -/

/-- An override that a slot's format lists is one that the instruction accepts. -/
theorem Issue.satListed_of_format {fmt : Nat} (listed : i.satListed fmt = true) : i.satListed 0 = true := by
  unfold Issue.satListed at listed ⊢
  split at listed
  case h_1 =>
    simp only [Bool.or_eq_true, decide_eq_true_eq] at listed ⊢
    refine listed.imp id fun below => below.trans_le ?_
    split <;> decide
  case h_2 => rfl

/-- A conversion whose elements raise no enabled event is counted, and goes on. -/
theorem State.withEvents_of_disabled {s : State} {outs : List (Nat × Ev × Word)} (quiet : ∀ z ∈ outs, z.2.1.enabled (s.modeOf i) = false)
    (go : State → Eff) : s.withEvents u i (outs.map fun x => (x.1, x.2.1)) go = go (u.count i.core (Ev.sum (outs.map (·.2.1)))) := by
  have none : ((outs.map fun x => (x.1, x.2.1)).filter fun x => x.2.enabled (s.modeOf i)) = [] := by
    simp only [List.filter_eq_nil_iff, List.mem_map]
    rintro _ ⟨z, mem, rfl⟩
    exact Bool.eq_false_iff.mp (quiet z mem)
  unfold State.withEvents
  simp only [none, List.isEmpty_nil, if_true, List.map_map, Function.comp_def]

/-- A CVTOM converts into a slot: its registers are written, the slot is the group's and can be written, its format takes the
columns and the override, and no entry of its list that is read changes (R271, R273). -/
structure Converts (s : State) (i : Issue) (a k : RegField) (col : BitVec 4) (r : Resident) (v : Reservation) (t : TilePart)
    (outs : List (Nat × Ev × Word)) : Prop where
  lanes : i.laneRun a 8 = true
  slots : HoldsSlots s i r [k.toNat]
  reserved : r.reservation k.toNat = some v
  override : i.satListed v.fmt = true
  columns : 8 * col.toNat < fmtRow v.fmt
  written : s.tokenPending i ((List.range 8).map (a.toNat + ·)) = false
  writable : s.slotsWritable i.core [k.toNat] = true
  converted : s.convertLanes i r v (k.toNat - v.first) col.toNat a.toNat (lanesOf i.active) (s.core i.core).tile = (t, outs)
  unread : v.listWritten (s.core i.core).tile t = false

theorem exec_cvtom_of_quiet {v : Reservation} {t : TilePart} {outs : List (Nat × Ev × Word)}
    (issues : Issues { l := false, h := false, round := 6, sat := 4, info := 21 } g s i) (converts : Converts s.awake i a k col r v t outs)
    (quiet : ∀ z ∈ outs, z.2.1.enabled (s.awake.modeOf i) = false) : exec (.cvtom a k col g) s = .next (i.finished {}
      ((outs.foldl (fun (w : State) (z : Nat × Ev × Word) => w.setGen i z.1 z.2.2)
        (s.awake.count i.core (Ev.sum (outs.map (·.2.1))))).modTile i.core fun _ => (t.beginWrite k.toNat).endWrite k.toNat)) := by
  obtain ⟨lanes, ⟨unit, group, _⟩, reserved, override, columns, written, writable, converted, unread⟩ := converts
  change execCvtom a k col g s = _
  refine (runUnit_issues issues _).trans ?_
  simp only [lanes, Issue.satListed_of_format override, group, unit, reserved, override, Nat.not_le.mpr columns, written, writable,
    converted, unread, State.withEvents_of_disabled quiet, Bool.not_true, Bool.or_self, Bool.false_eq_true, if_false]
  rfl

/-! ### PSTAT and PINV (R291, R300) -/

theorem exec_pstat (reads : ReadsWide tileAttr g 60 60 [a] s u i x y) (holds : HoldsSlots s.awake i r []) (broadcast : u.broadcasts i a) :
    exec (.pstat a k g) s = .next (i.finished tileAttr (u.answered i a (BitVec.ofNat 64
      (((s.awake.core i.core).tile.record i.ctx k.toNat).status (r.reservation k.toNat).isSome)))) := by
  change execPstat a k g s = _
  refine twoWide_of_readsWide reads rfl ?_
  rw [holds.tileChecks]
  exact State.result_of_broadcasts broadcast .pair _

theorem exec_pinv (issues : Issues tileAttr g s i) (holds : HoldsSlots s.awake i r [k.toNat]) :
    exec (.pinv k g) s = .next (i.finished tileAttr
      (if ((s.awake.core i.core).tile.record i.ctx k.toNat).state = .absent then s.awake
       else s.awake.modTile i.core (·.dropRecord k.toNat))) := by
  change execPinv k g s = _
  refine runUnit_done issues ?_
  simp only [holds.tileChecks, beq_iff_eq]

end Words

/-- Settles O24: each word passes the checks that its hypotheses answer; CVTOM's override is one for every format, then one for its
slot's. -/
theorem accumulatorsAndRecords : Obligations.AccumulatorsAndRecords := by
  unfold Obligations.AccumulatorsAndRecords
  intro a k col h c g s u i x y r acc
  exact ⟨exec_accz, fun issues there lanes => ⟨exec_accrd issues there lanes, exec_accwr issues there lanes⟩,
    fun v t outs issues lanes holds reserved override columns written writable converted unread quiet =>
      exec_cvtom_of_quiet issues ⟨lanes, holds, reserved, override, columns, written, writable, converted, unread⟩ quiet,
    exec_pstat, exec_pinv⟩

end Sys2Proof.Machine
end

section
/-! PROOF. TFILL, TDRAIN, matrix steps, splices and the fid complete (O41). -/

namespace Sys2Proof.Machine

/-- A change of a core is what it makes of the core that is there. -/
theorem State.modCore_congr {s : State} {c : Nat} {f h : CoreState → CoreState} (same : f (s.core c) = h (s.core c)) :
    s.modCore c f = s.modCore c h := congrArg (s.setCore c) same

section Events
variable {s : State} {c n d k src slot home off : Nat} {run : Option Nat} {x : TileCmd} {g : Agent} {y z : Splice} {bytes : List Byte}
  {m : MatrixStep} {rest : List MatrixStep} {r : Resident} {a b : Reservation}

/-! ### TFILL and TDRAIN (R272) -/

section Copies
variable (listed : (s.core c).tile.cmds[n]? = some x) (commanded : x.commanded = true) (ready : s.tileReady c x = .ok (home, off, g))
include listed commanded ready

theorem exec_tfillComplete_of_ready (fill : x.fill = true) : exec (.tfillComplete c n) s =
    .next (State.endTileCmd ((x.rows off).foldl (fun s r =>
      (s.engineLoad g c home r.1 128).2.modTile c fun t => { t with
        opmem := Memory.writeBytes t.opmem r.2 (s.engineLoad g c home r.1 128).1 }) s) g c n x) := by
  change execTfillComplete c n s = _
  unfold execTfillComplete
  simp only [listed, commanded, fill, ready, Bool.not_true, Bool.or_self, Bool.false_eq_true, if_false]

theorem exec_tdrainComplete_of_ready (drain : x.fill = false) : exec (.tdrainComplete c n) s =
    .next (State.endTileCmd ((x.rows off).foldl (fun s r =>
      s.engineStore g c home r.1 (Memory.readBytes (s.core c).tile.opmem r.2 128) 4) s) g c n x) := by
  change execTdrainComplete c n s = _
  unfold execTdrainComplete
  simp only [listed, commanded, drain, ready, Bool.not_true, Bool.or_self, Bool.false_eq_true, if_false]

end Copies

/-! ### Matrix steps (R279) -/

theorem exec_matrixStepStart_of_waiting (head : (s.core c).tile.steps = m :: rest) (commanded : m.commanded = true)
    (waiting : m.started = false) : exec (.matrixStepStart c) s =
      .next (s.modTile c fun t => { t with steps := { m with started := true } :: rest }) := by
  change execMatrixStepStart c s = _
  unfold execMatrixStepStart
  simp only [head, commanded, waiting, Bool.not_false, Bool.and_self, if_true]
  exact congrArg _ (State.modCore_congr (by simp only [head, setAt, commanded]))

theorem exec_matrixStepComplete_of_started (head : (s.core c).tile.steps = m :: rest) (started : m.started = true)
    (unit : s.unit c m.unit = some r) (left : r.reservation m.aslot = some a) (right : r.reservation m.bslot = some b) :
    exec (.matrixStepComplete c) s = .next (s.modTile c fun t => { (StepDesc.slots ⟨m.aslot, m.bslot, m.aoff, m.boff, m.k⟩).foldl
      (fun t k => t.modSlot k fun y => { y with readers := y.readers - 1 }) t with
        steps := rest, acc := (Operand.mk (s.core c).tile a b m).apply }) := by
  change execMatrixStepComplete c s = _
  unfold execMatrixStepComplete
  simp only [head, started, unit, left, right, Option.bind_some, Option.map_some, Bool.not_true, Bool.false_eq_true, if_false]

/-! ### Splices (R282) -/

theorem exec_splicePairing_of_partner (armed : (s.core c).tile.splices[n]? = some y) (single : y.paired = false)
    (partner : s.splicePartner c y = some (d, k, z)) (there : s.room c d .req = true) (here : s.room d c .req = true) :
    let pair (s : State) (c n : Nat) : State :=
      s.modTile c fun t => { t with splices := setAt n (fun y => { y with paired := true }) t.splices }
    let t := pair (pair s c n) d k
    let v := t.send c d .req (.splice z.slot ((t.core c).tile.bytes y.slot 0 8192))
    exec (.splicePairing c n) s = .next (v.send d c .req (.splice y.slot ((v.core d).tile.bytes z.slot 0 8192))) := by
  change execSplicePairing c n s = _
  unfold execSplicePairing
  simp only [armed, partner, single, there, here, Bool.not_true, Bool.or_self, Bool.false_eq_true, if_false]

theorem exec_spliceExchangeComplete_of_paired (arrived : s.message c .req n = some ⟨src, .splice slot bytes, run⟩)
    (paired : (((s.take c .req n).core c).tile.splices.any fun y => y.paired && y.slot == slot) = true) :
    exec (.spliceExchangeComplete c n) s = .next ((s.take c .req n).modTile c fun t => { (t.putBytes slot 0 bytes).endWrite slot with
      splices := ((t.putBytes slot 0 bytes).endWrite slot).splices.filter fun y => !(y.paired && y.slot == slot) }) := by
  change execSpliceExchangeComplete c n s = _
  unfold execSpliceExchangeComplete
  simp only [arrived, paired, Bool.not_true, Bool.false_eq_true, if_false]

/-! ### The fid (R291 to R295) -/

theorem exec_fidCompileStart_of_asked (idle : (s.core c).tile.compiling = false) (head : (s.core c).tile.requests.head? = some (k, true)) :
    exec (.fidCompileStart c) s = .next (s.modTile c fun t => { t with compiling := true }) := by
  change execFidCompileStart c s = _
  unfold execFidCompileStart
  simp only [idle, head, Option.map_some, Option.getD_some, Bool.not_true, Bool.or_self, Bool.false_eq_true, if_false]

/-- The fid has packed the slot of its first request, whose record is compiling. -/
structure Packed (s : State) (c k : Nat) (f : FidRecord) (v : Reservation) (ops : List MicroOp) (columns : Nat)
    (more : List (Nat × Bool)) (asked : Bool) : Prop where
  head : (s.core c).tile.requests = (k, asked) :: more
  busy : (s.core c).tile.compiling = true
  record : SMap.find (s.core c).tile.fid k = some f
  compiling : f.state = .compiling
  reserved : (s.core c).reservation k = some v
  packed : (s.core c).tile.pack v (k - v.first) = (ops, columns)

section Packs
variable {f : FidRecord} {v : Reservation} {ops : List MicroOp} {columns : Nat} {more : List (Nat × Bool)} {asked : Bool}

theorem exec_fidCompileComplete_of_many (packed : Packed s c k f v ops columns more asked) (many : 3 * fmtRow v.fmt < 4 * ops.length) :
    exec (.fidCompileComplete c) s = .next (s.modTile c fun t => { t with
      fid := SMap.put t.fid k { f with state := .refused, nops := ops.length, columns := columns }
      requests := more, compiling := false }) := by
  obtain ⟨head, busy, record, compiling, reserved, ops⟩ := packed
  change execFidCompileComplete c s = _
  unfold execFidCompileComplete
  simp only [head, record, reserved, busy, compiling, ops, many, Bool.not_true, bne_self_eq_false, Bool.or_self, Bool.false_eq_true,
    if_true, if_false]
  exact congrArg _ (State.modCore_congr rfl)

theorem exec_fidCompileComplete_of_room {t : TilePart} (packed : Packed s c k f v ops columns more asked)
    (few : 4 * ops.length ≤ 3 * fmtRow v.fmt) (room : (s.core c).tile.makeRoom (ops.length + 1) 65 = some t) :
    exec (.fidCompileComplete c) s = .next (s.modCore c fun j => { j with order := j.order + 1, tile := { t with
      fid := SMap.put t.fid k { f with
        state := .valid, nops := ops.length, columns := columns, prog := ops, made := j.order + 1, used := j.order + 1 }
      requests := more, compiling := false } }) := by
  obtain ⟨head, busy, record, compiling, reserved, ops⟩ := packed
  change execFidCompileComplete c s = _
  unfold execFidCompileComplete
  simp only [head, record, reserved, busy, compiling, ops, Nat.not_lt.mpr few, room, Bool.not_true, bne_self_eq_false, Bool.or_self,
    Bool.false_eq_true, if_false, State.modTile, State.modCore_modCore]
  exact congrArg _ (State.modCore_congr rfl)

end Packs
end Events

/-- Settles O41: each event finds what its hypotheses name, and does to it what the statement says. -/
theorem tileEvents : Obligations.TileEvents := by
  unfold Obligations.TileEvents
  intro s c n d k src slot home off run x g y z bytes m rest r a b
  refine ⟨fun listed commanded ready => ⟨exec_tfillComplete_of_ready listed commanded ready,
      exec_tdrainComplete_of_ready listed commanded ready⟩,
    fun head => ⟨exec_matrixStepStart_of_waiting head, exec_matrixStepComplete_of_started head⟩,
    exec_splicePairing_of_partner, exec_spliceExchangeComplete_of_paired, exec_fidCompileStart_of_asked, ?fid⟩
  case fid =>
    intro f v ops columns more asked head busy record compiling reserved ops
    have packed : Packed s c k f v _ columns more asked := ⟨head, busy, record, compiling, reserved, ops⟩
    exact ⟨exec_fidCompileComplete_of_many packed, fun _ => exec_fidCompileComplete_of_room packed⟩

end Sys2Proof.Machine
end

section
/-! PROOF. GATHER, the scatters, HACC and HFIND (O25). -/

namespace Sys2Proof.Machine

/-! ### The shape of GATHER and the scatter family (R302, R306) -/

section Tables
variable {a b d : RegField} {op : AtomicOp} {write read : List RegField} {g : GuardField} {s : State} {i : Issue} {base len owner : Nat}
  {f : Issue → Nat → Option Nat → List (Nat × Nat) → Option TrapRec → State → Eff}

/-- What the table units accept: they write registers late, or none, and then they clear the spin count. -/
abbrev tableAttr (write : List RegField) : Attr := { irregularAttr with spin := write.isEmpty }

theorem tableUnit_of_illegal (issues : Issues (tableAttr write) g s i) (bad : i.tableOk a write (b :: read) = false) :
    tableUnit a b write read g f s = .next (s.awake.takeTrap i ⟨Cause.illegal, 0, 0, 0⟩) := by
  refine runUnit_trapsAt issues ?_
  simp only [bad, Bool.not_false, if_true]
  rfl

/-- R223: the refusal of a page is the trap that a unit which waits takes. -/
theorem tableUnit_of_refused {p : Pending} {r : TrapRec} (issues : Issues (tableAttr write) g s i)
    (fields : i.tableOk a write (b :: read) = true) (reply : s.awake.acknowledged i = some p) (refused : p.after = some r) :
    tableUnit a b write read g f s = .next (s.awake.enterTrap (s.awake.setPending (i.asker p.id) none) i r) := by
  refine runUnit_trap issues ?_
  simp only [fields, reply, refused, Bool.not_true, Bool.false_eq_true, if_false]

theorem goodLength (positive : 0 < len) (short : len < 2 ^ 24) : (decide (len = 0) || decide (2 ^ 24 ≤ len)) = false := by
  rw [decide_eq_false (Nat.ne_of_gt positive), decide_eq_false (Nat.not_le.mpr short)]; rfl

section Descriptor
variable (issues : Issues (tableAttr write) g s i) (names : NamesTable s.awake i a write (b :: read) base len)
include issues names

theorem tableUnit_of_badLength (bad : len = 0 ∨ 2 ^ 24 ≤ len) :
    tableUnit a b write read g f s = .next (s.awake.takeTrap i ⟨Cause.illegal, i.mask, BitVec.ofNat 64 0, BitVec.ofNat 64 22⟩) := by
  obtain ⟨fields, fresh, written, table⟩ := names
  refine runUnit_trapsAt issues ?_
  have bad : (decide (len = 0) || decide (2 ^ 24 ≤ len)) = true := by simpa only [Bool.or_eq_true, decide_eq_true_eq] using bad
  simp only [fields, fresh, written, table, bad, Bool.not_true, Bool.false_eq_true, if_false, if_true, Issue.trapAt]

theorem tableUnit_of_noSpace (positive : 0 < len) (short : len < 2 ^ 24) (noSpace : namesNoSpace base = true) :
    tableUnit a b write read g f s =
      .next (s.awake.takeTrap i ⟨Cause.clusterAddr, i.mask, BitVec.ofNat 64 base, BitVec.ofNat 64 0⟩) := by
  obtain ⟨fields, fresh, written, table⟩ := names
  refine runUnit_trapsAt issues ?_
  simp only [fields, fresh, written, table, goodLength positive short, noSpace, Bool.not_true, Bool.false_eq_true, if_false, if_true,
    Issue.trapAt]

theorem tableUnit_of_misaligned (positive : 0 < len) (short : len < 2 ^ 24) (space : namesNoSpace base = false) (misaligned : base % 4 ≠ 0) :
    tableUnit a b write read g f s =
      .next (s.awake.takeTrap i ⟨Cause.misalign, i.mask, BitVec.ofNat 64 base, BitVec.ofNat 64 0⟩) := by
  obtain ⟨fields, fresh, written, table⟩ := names
  refine runUnit_trapsAt issues ?_
  simp only [fields, fresh, written, table, goodLength positive short, space, misaligned, ne_eq, not_false_eq_true, Bool.not_true,
    Bool.false_eq_true, if_false, if_true, Issue.trapAt]

end Descriptor

theorem tableUnit_of_sound (issues : Issues (tableAttr write) g s i) (sound : SoundTable s.awake i a write (b :: read) base len) :
    tableUnit a b write read g f s = .next ((f i base ((s.awake.locate i .unified base).map (·.1))
      (ascending (goodElements (s.awake.elements i base len b))) (indexRange (s.awake.elements i base len b)) s.awake).settle
        (tableAttr write) i s.awake) := by
  obtain ⟨⟨fields, fresh, written, table⟩, ⟨positive, short⟩, space, aligned⟩ := sound
  refine (runUnit_issues issues _).trans ?_
  simp only [fields, fresh, written, table, goodLength positive short, space, aligned, ne_eq, not_true_eq_false, Bool.not_true,
    Bool.false_eq_true, if_false]
  rfl

/-! ### What a unit does with its elements (R303, R304, R306) -/

section Elements
variable {op : ElementOp} {l : List Element} {awaited : LaneMask}

/-- The message to the core itself has room there. -/
theorem ownMessage_fits (room : owner = i.core → s.ownRoom i.core = true) : (decide (owner = i.core) && !s.ownRoom i.core) = false :=
  Bool.and_eq_false_imp.mpr fun own => by rw [room (of_decide_eq_true own)]; rfl

theorem State.sendAndWait_of_room (room : owner = i.core → s.ownRoom i.core = true) (origin : Nat) (after : Option TrapRec) :
    s.sendAndWait i owner origin op l d awaited after = .moved (s.elementsAwaited i owner origin d awaited after op l) := by
  unfold State.sendAndWait
  rw [ownMessage_fits room]
  rfl

theorem State.irregular_sends (room : owner = i.core → s.ownRoom i.core = true) (some : l ≠ []) :
    s.irregular i base (.some owner) d awaited none op l = .done (s.elementsSent i owner base d awaited op l) := by
  obtain ⟨e, more, rfl⟩ := List.exists_cons_of_ne_nil some
  unfold State.irregular State.elementsSent
  simp only [ownMessage_fits room, Bool.false_eq_true, if_false]
  split <;> rfl

theorem State.irregular_awaits (room : owner = i.core → s.ownRoom i.core = true) (some : l ≠ []) (r : TrapRec) :
    s.irregular i base (.some owner) d awaited (.some r) op l =
      .moved (s.elementsAwaited i owner (base / 2 ^ 20 * 2 ^ 20) d awaited (.some r) op l) := by
  obtain ⟨e, more, rfl⟩ := List.exists_cons_of_ne_nil some
  exact State.sendAndWait_of_room room _ _

/-- Where a unit has no good element its trap is taken at once. -/
theorem State.irregular_of_none (c : Option Nat) (r : TrapRec) : s.irregular i base c d awaited (some r) op [] = .trap r s := by
  cases c <;> rfl

end Elements

theorem offsets_ne_nil {l : List (Nat × Nat)} (some : l ≠ []) : offsets l ≠ [] := by
  obtain ⟨e, more, rfl⟩ := List.exists_cons_of_ne_nil some
  exact List.cons_ne_nil _ _

/-- What GATHER does with its elements. -/
def gatherSends (d : RegField) (i : Issue) (base : Nat) (owner : Option Nat) (good : List (Nat × Nat)) (after : Option TrapRec)
    (s : State) : Eff :=
  s.irregular i base owner d (if d = 60 then 0 else good.foldl (fun m x => m ||| laneBit x.1) 0) after .read (readRecords good)

/-- What a scatter does with its elements. -/
def scatterSends (op : AtomicOp) (d : RegField) (i : Issue) (base : Nat) (owner : Option Nat) (good : List (Nat × Nat))
    (after : Option TrapRec) (s : State) : Eff :=
  s.irregular i base owner 60 0 after (.update op) (updateRecords op (s.laneWord i d) good)

theorem exec_gather (s : State) : exec (.gather d a b g) s = tableUnit a b [d] [] g (gatherSends d) s := rfl

theorem exec_of_scatterOf {x : Instr} (word : scatterOf x = some (op, d, a, b, g)) (s : State) :
    exec x s = tableUnit a b [] [d] g (scatterSends op d) s := by
  unfold scatterOf at word
  split at word <;> cases word <;> rfl

/-- GATHER and the scatters are one unit; without a good element it only traps. -/
theorem exec_of_tableWord {x : Instr} {t : Attr} (word : tableWord x = some (t, a, b, g, write, read)) :
    t = tableAttr write ∧ ∃ more f, read = b :: more ∧ (∀ s, exec x s = tableUnit a b write more g f s) ∧
      ∀ i base owner r s, f i base owner [] (some r) s = .trap r s := by
  unfold tableWord at word
  split at word
  case h_1 d a b g =>
    cases word
    exact ⟨rfl, [], gatherSends d, rfl, exec_gather, fun _ _ _ _ _ => State.irregular_of_none ..⟩
  case h_2 =>
    rw [Option.map_eq_some_iff] at word
    obtain ⟨⟨op, d, a, b, g⟩, scatter, same⟩ := word
    cases same
    exact ⟨rfl, [d], scatterSends op d, rfl, exec_of_scatterOf scatter, fun _ _ _ _ _ => State.irregular_of_none ..⟩

section Sends
variable (room : owner = i.core → s.awake.ownRoom i.core = true)
  (some : ascending (goodElements (s.awake.elements i base len b)) ≠ [])
include room some

theorem exec_gather_of_table (issues : Issues irregularAttr g s i) (table : OnTable s.awake i a [d] [b] base len owner) :
    let good := ascending (goodElements (s.awake.elements i base len b))
    let awaited : LaneMask := if d = 60 then 0 else good.foldl (fun m x => m ||| laneBit x.1) 0
    (indexRange (s.awake.elements i base len b) = none → exec (.gather d a b g) s = .next (i.finished irregularAttr
      (s.awake.elementsSent i owner base d awaited .read (readRecords good)))) ∧
    ∀ r, indexRange (s.awake.elements i base len b) = .some r → exec (.gather d a b g) s =
      .next (s.awake.elementsAwaited i owner (base / 2 ^ 20 * 2 ^ 20) d awaited (.some r) .read (readRecords good)) := by
  intro good awaited
  have records : readRecords good ≠ [] := fun none => some (List.map_eq_nil_iff.mp none)
  have unit := tableUnit_of_sound (write := [d]) (read := []) (f := gatherSends d) issues table.toSoundTable
  rw [exec_gather, unit, table.owner]
  refine ⟨fun sound => ?_, fun r bad => ?_⟩
  · rw [sound, gatherSends, State.irregular_sends room records]; rfl
  · rw [bad, gatherSends, State.irregular_awaits room records]; rfl

theorem exec_scatter_of_table {x : Instr} (word : scatterOf x = .some (op, d, a, b, g))
    (issues : Issues { irregularAttr with spin := true } g s i) (table : OnTable s.awake i a [] [b, d] base len owner) :
    let good := ascending (goodElements (s.awake.elements i base len b))
    let updates := updateRecords op (s.awake.laneWord i d) good
    (indexRange (s.awake.elements i base len b) = none →
      exec x s = .next (i.finished storeAttr (s.awake.elementsSent i owner base 60 0 (.update op) updates))) ∧
    ∀ r, indexRange (s.awake.elements i base len b) = .some r → exec x s =
      .next (s.awake.elementsAwaited i owner (base / 2 ^ 20 * 2 ^ 20) 60 0 (.some r) (.update op) updates) := by
  intro good updates
  have records : updates ≠ [] := fun none => offsets_ne_nil some (List.map_eq_nil_iff.mp none)
  have unit := tableUnit_of_sound (write := []) (read := [d]) (f := scatterSends op d) issues table.toSoundTable
  rw [exec_of_scatterOf word, unit, table.owner]
  refine ⟨fun sound => ?_, fun r bad => ?_⟩
  · rw [sound, scatterSends, State.irregular_sends room records]; rfl
  · rw [bad, scatterSends, State.irregular_awaits room records]; rfl

end Sends
end Tables

/-! ### Hash tables (R307 to R309) -/

section Hashes
variable {a b d : RegField} {g : GuardField} {s : State} {i : Issue} {base logc : Nat} {reserved : Bool} {op : Nat → Nat → ElementOp}
  {value : State → Issue → Nat → Word} {extra : Issue → List RegField} {results : State → Issue → SMap Dword → State} {t : Attr}

theorem hashUnit_of_illegal (issues : Issues t g s i) (bad : i.tableOk a [d] (b :: extra i) = false) :
    hashUnit d a b g reserved op value extra results t s = .next (s.awake.takeTrap i ⟨Cause.illegal, 0, 0, 0⟩) := by
  refine runUnit_trapsAt issues ?_
  simp only [bad, Bool.not_false, if_true]
  rfl

theorem hashUnit_of_refused {p : Pending} {r : TrapRec} (issues : Issues t g s i) (fields : i.tableOk a [d] (b :: extra i) = true)
    (reply : s.awake.acknowledged i = some p) (refused : p.after = some r) : hashUnit d a b g reserved op value extra results t s =
      .next (s.awake.enterTrap (s.awake.setPending (i.asker p.id) none) i r) := by
  refine runUnit_trap issues ?_
  simp only [fields, reply, refused, Bool.not_true, Bool.false_eq_true, if_false]

theorem hashUnit_of_reply {p : Pending} (issues : Issues t g s i) (fields : i.tableOk a [d] (b :: extra i) = true)
    (reply : s.awake.acknowledged i = some p) (sound : p.after = none) : hashUnit d a b g reserved op value extra results t s =
      .next (i.finished t (results (s.awake.setPending (i.asker p.id) none) i p.values)) := by
  refine runUnit_done issues ?_
  simp only [fields, reply, sound, Bool.not_true, Bool.false_eq_true, if_false]

/-- The keys of the active lanes, as the checks see them. -/
def State.hashKeys (s : State) (i : Issue) (b : RegField) : List (Nat × Nat) := (lanesOf i.active).map fun l => (l, (s.laneWord i b l).toNat)

theorem hashUnit_of_names (issues : Issues t g s i) (names : NamesHash s.awake i a b [d] (extra i) base logc) :
    hashUnit d a b g reserved op value extra results t s =
      .next (((s.awake.hashTrap i base logc (s.awake.hashKeys i b) reserved).getD (s.awake.sendAndWait i i.core 0 (op base logc)
        (s.awake.keyRecords i b (value s.awake i)) d i.active none)).settle t i s.awake) := by
  obtain ⟨fields, fresh, written, table⟩ := names
  refine (runUnit_issues issues _).trans ?_
  simp only [fields, fresh, written, table, Bool.not_true, Bool.false_eq_true, if_false, List.map_map]
  rw [show (lanesOf i.active).map (fun l => (l, (s.awake.laneWord i b l).toNat)) = s.awake.hashKeys i b from rfl]
  cases s.awake.hashTrap i base logc (s.awake.hashKeys i b) reserved <;> rfl

/-! What the checks answer. -/

/-- The largest word, as a number. -/
theorem toNat_beq_allOnes (w : Word) : (w.toNat == 0xFFFFFFFF) = (w == 0xFFFFFFFF) := by
  rw [Bool.eq_iff_iff, beq_iff_eq, beq_iff_eq, ← BitVec.toNat_inj]
  rfl

/-- The lanes whose key is reserved. -/
abbrev State.reservedLanes (s : State) (i : Issue) (b : RegField) : List Nat :=
  (lanesOf i.active).filter fun l => s.laneWord i b l == 0xFFFFFFFF

theorem State.filter_hashKeys (s : State) (i : Issue) (b : RegField) : ((s.hashKeys i b).filter fun x => x.2 == 0xFFFFFFFF) =
    (s.reservedLanes i b).map fun l => (l, (s.laneWord i b l).toNat) := by
  unfold State.hashKeys
  rw [List.filter_map]
  exact congrArg _ (List.filter_congr fun l _ => toNat_beq_allOnes (s.laneWord i b l))

/-- The size of a table is one of R307. -/
abbrev hashSize (base logc : Nat) : Prop := base < 2 ^ 20 ∧ 4 ≤ logc ∧ logc ≤ 17

theorem hashSize_checked : (decide (2 ^ 20 ≤ base) || decide (logc < 4) || decide (17 < logc)) = !decide (hashSize base logc) := by
  rw [Bool.eq_iff_iff]
  simp only [Bool.or_eq_true, decide_eq_true_eq, Bool.not_eq_true', decide_eq_false_iff_not]
  omega

section Checks
variable {keys : List (Nat × Nat)}

theorem State.hashTrap_of_size (bad : ¬ hashSize base logc) : s.hashTrap i base logc keys reserved = some (i.illegal 22 s) := by
  unfold State.hashTrap
  rw [hashSize_checked, decide_eq_false bad]
  rfl

theorem State.hashTrap_of_window (size : hashSize base logc) (outside : i.window.holds base (8 * 2 ^ logc) = false) :
    s.hashTrap i base logc keys reserved = some (i.trapAt Cause.lsBound base 0 s) := by
  unfold State.hashTrap
  simp only [hashSize_checked, decide_eq_true size, outside, Bool.not_true, Bool.not_false, Bool.false_eq_true, if_false, if_true]

theorem State.hashTrap_of_misaligned (size : hashSize base logc) (inside : i.window.holds base (8 * 2 ^ logc) = true)
    (misaligned : base % 8 ≠ 0) : s.hashTrap i base logc keys reserved = some (i.trapAt Cause.misalign base 0 s) := by
  unfold State.hashTrap
  simp only [hashSize_checked, decide_eq_true size, inside, misaligned, ne_eq, not_false_eq_true, Bool.not_true, Bool.false_eq_true,
    if_false, if_true]

theorem State.hashTrap_of_keys (size : hashSize base logc) (inside : i.window.holds base (8 * 2 ^ logc) = true) (aligned : base % 8 = 0) :
    s.hashTrap i base logc (s.hashKeys i b) reserved =
      if reserved = true ∧ s.reservedLanes i b ≠ [] then some (.trap ⟨Cause.indexRange,
        (s.reservedLanes i b).foldl (fun m l => m ||| laneBit l) 0, 0, BitVec.ofNat 64 (3 + 256 * (s.reservedLanes i b).length)⟩ s)
      else none := by
  unfold State.hashTrap
  simp only [hashSize_checked, decide_eq_true size, inside, aligned, ne_eq, not_true_eq_false, Bool.not_true, Bool.false_eq_true,
    if_false]
  cases reserved
  · simp
  · simp only [Bool.true_and, State.filter_hashKeys, List.isEmpty_iff, List.map_eq_nil_iff, List.foldl_map, List.length_map, true_and, ite_not]

end Checks

theorem State.hashTrap_of_hash {read : List RegField} (hash : OnHash s i a b [d] read reserved base logc) :
    s.hashTrap i base logc (s.hashKeys i b) reserved = none := by
  obtain ⟨_, size, inside, aligned, keys⟩ := hash
  rw [State.hashTrap_of_keys size inside aligned]
  refine if_neg fun ⟨checked, bad⟩ => bad (List.filter_eq_nil_iff.mpr fun l mem same => keys checked l mem (eq_of_beq same))

theorem hashUnit_sends (room : s.awake.ownRoom i.core = true) (issues : Issues t g s i)
    (hash : OnHash s.awake i a b [d] (extra i) reserved base logc) : hashUnit d a b g reserved op value extra results t s =
      .next (s.awake.elementsAwaited i i.core 0 d i.active none (op base logc) (s.awake.keyRecords i b (value s.awake i))) := by
  rw [hashUnit_of_names issues hash.toNamesHash, State.hashTrap_of_hash hash, Option.getD_none, State.sendAndWait_of_room fun _ => room]
  rfl

section Traps
variable (issues : Issues t g s i) (names : NamesHash s.awake i a b [d] (extra i) base logc)
include issues names

/-- A check that traps is the unit's outcome. -/
theorem hashUnit_of_trap {r : TrapRec} (traps : s.awake.hashTrap i base logc (s.awake.hashKeys i b) reserved = some (.trap r s.awake)) :
    hashUnit d a b g reserved op value extra results t s = .next (s.awake.takeTrap i r) := by
  rw [hashUnit_of_names issues names, traps, Option.getD_some, ← enterTrap_self]
  rfl

/-- R307, R308: the traps of a bad table, and of a reserved key. -/
theorem hashUnit_traps :
    (¬ hashSize base logc → hashUnit d a b g reserved op value extra results t s =
      .next (s.awake.takeTrap i ⟨Cause.illegal, 0, 0, 22⟩)) ∧
    (hashSize base logc → i.window.holds base (8 * 2 ^ logc) = false → hashUnit d a b g reserved op value extra results t s =
      .next (s.awake.takeTrap i ⟨Cause.lsBound, i.mask, BitVec.ofNat 64 base, 0⟩)) ∧
    (hashSize base logc → i.window.holds base (8 * 2 ^ logc) = true → base % 8 ≠ 0 → hashUnit d a b g reserved op value extra results t s =
      .next (s.awake.takeTrap i ⟨Cause.misalign, i.mask, BitVec.ofNat 64 base, 0⟩)) ∧
    (hashSize base logc → i.window.holds base (8 * 2 ^ logc) = true → base % 8 = 0 → reserved = true → s.awake.reservedLanes i b ≠ [] →
      hashUnit d a b g reserved op value extra results t s = .next (s.awake.takeTrap i ⟨Cause.indexRange,
        (s.awake.reservedLanes i b).foldl (fun m l => m ||| laneBit l) 0, 0,
        BitVec.ofNat 64 (3 + 256 * (s.awake.reservedLanes i b).length)⟩)) :=
  ⟨fun bad => hashUnit_of_trap issues names (State.hashTrap_of_size bad),
   fun size outside => hashUnit_of_trap issues names (State.hashTrap_of_window size outside),
   fun size inside misaligned => hashUnit_of_trap issues names (State.hashTrap_of_misaligned size inside misaligned),
   fun size inside aligned checked bad => hashUnit_of_trap issues names
     ((State.hashTrap_of_keys size inside aligned).trans (if_pos ⟨checked, bad⟩))⟩

end Traps

/-- What HACC writes with its reply (R308). -/
def haccResults (d : RegField) (s : State) (i : Issue) (vs : SMap Dword) : State :=
  (s.writeLanes i .nat d i.active fun _ => BitVec.ofNat 64 (marked vs).length).writePreds i 63
    fun _ => (marked vs).length == (lanesOf i.active).length

/-- What HFIND writes with its reply (R309). -/
def hfindResults (d : RegField) (s : State) (i : Issue) (vs : SMap Dword) : State :=
  (s.writeLanes i .nat d i.active fun l => BitVec.ofNat 64 (((SMap.find vs l).getD 0).toNat % 2 ^ 32)).writePreds i 63
    fun l => (marked vs).contains l

theorem exec_hacc (s : State) : exec (.hacc d a b g) s = hashUnit d a b g true .insert (fun s i l => s.laneWord i (i.cField d) l)
    (fun i => [i.cField d]) (haccResults d) { irregularAttr with c := true, spin := true } s := rfl

theorem exec_hfind (s : State) : exec (.hfind d a b g) s = hashUnit d a b g false .find (fun _ _ _ => 0) (fun _ => []) (hfindResults d)
    irregularAttr s := rfl

/-- HACC and HFIND are one unit, HACC with C besides and with a reserved key. -/
theorem exec_of_hashWord {x : Instr} {read : List RegField}
    (word : (x = .hacc d a b g ∧ t = { irregularAttr with c := true, spin := true } ∧ read = [i.cField d] ∧ reserved = true) ∨
      (x = .hfind d a b g ∧ t = irregularAttr ∧ read = [] ∧ reserved = false)) (s : State) :
    ∃ op value extra results, exec x s = hashUnit d a b g reserved op value extra results t s ∧ extra i = read := by
  rcases word with ⟨rfl, rfl, rfl, rfl⟩ | ⟨rfl, rfl, rfl, rfl⟩
  · exact ⟨_, _, _, _, exec_hacc s, rfl⟩
  · exact ⟨_, _, _, _, exec_hfind s, rfl⟩

end Hashes

/-- Settles O25: the table words are one unit, the hash words another; each is taken through its checks in their order. -/
theorem tableAccesses : Obligations.TableAccesses := by
  unfold Obligations.TableAccesses
  refine ⟨fun x op d a b t write read g s i base len owner => ⟨fun room some => ⟨exec_gather_of_table room some,
      exec_scatter_of_table room some⟩, ?words⟩,
    fun x d a b t reserved read g s i base logc => ⟨fun room => ?sends, fun p reply sound => ?replies, ?checks⟩⟩
  case words =>
    intro word issues
    obtain ⟨rfl, more, f, rfl, unit, none⟩ := exec_of_tableWord word
    simp only [unit]
    refine ⟨fun names => ⟨tableUnit_of_badLength issues names, tableUnit_of_noSpace issues names, tableUnit_of_misaligned issues names⟩,
      fun r sound bad empty => ?_, tableUnit_of_illegal issues, fun p r => tableUnit_of_refused issues⟩
    rw [tableUnit_of_sound issues sound, bad, empty, none, ← enterTrap_self]
    rfl
  case sends =>
    rw [exec_hacc, exec_hfind]
    exact ⟨hashUnit_sends (extra := fun i => [i.cField d]) room, hashUnit_sends (extra := fun _ => []) room⟩
  case replies =>
    rw [exec_hacc, exec_hfind]
    exact ⟨fun issues fields => hashUnit_of_reply issues fields reply sound,
      fun issues fields => hashUnit_of_reply issues fields reply sound⟩
  case checks =>
    intro word issues
    obtain ⟨op, value, extra, results, unit, rfl⟩ := exec_of_hashWord word s
    simp only [unit]
    exact ⟨hashUnit_traps issues, hashUnit_of_illegal issues, fun p r => hashUnit_of_refused issues⟩

end Sys2Proof.Machine
end

section
/-! PROOF. SEND, MPOST, WRET, MTAKE and WSPLIT (O26). -/

namespace Sys2Proof.Machine

section Payload
variable {s u v : State} {i : Issue} {a b : RegField} {g : GuardField} {vals : List (Nat → Dword)} {dst : Nat} {cls : MsgClass}

/-! ### Messages that leave (R313, R321, R324) -/

theorem State.emit_of_canEmit (can : u.canEmit i dst cls) (m : Asker → Msg) : s.emit u i dst cls m = .done (u.leaves i dst cls m) := by
  unfold State.emit State.leaves
  by_cases run : i.kind = .run
  · rw [run]; rfl
  · have room := can run
    cases kind : i.kind with
    | run => exact absurd kind run
    | group => simp only [room, Bool.not_true, Bool.false_eq_true, if_false]; rfl
    | lead => simp only [room, Bool.not_true, Bool.false_eq_true, if_false]; rfl

/-! ### The shape of SEND, RSEND and RHIT (R331, R359, R363) -/

/-- A message's first operand, and its address where K says that its payload lies in memory, read in the lowest active lane; u is the
state after its sources were popped. -/
inductive ReadsPayload (s u : State) (i : Issue) (a b : RegField) (x : Dword) : Option Nat → Prop
  | registers {v : List (Nat → Dword)} (k : i.k = 1) (scalar : i.kind ≠ .group) (read : s.operands i [(.pair, a)] [] = .ok v u)
      (value : nth v 0 (lowestLane i.active) = x) : ReadsPayload s u i a b x none
  | memory {v : List (Nat → Dword)} {y : Dword} (k : i.k = 0) (field : i.regOk false .pair b = true)
      (read : s.operands i [(.pair, a), (.pair, b)] [] = .ok v u) (value : nth v 0 (lowestLane i.active) = x)
      (address : nth v 1 (lowestLane i.active) = y) : ReadsPayload s u i a b x (some y.toNat)

/-- A check of a message's operands that they pass, and that they would pass as zeros. -/
def PassesPayload (bad : Dword → Option Nat → Bool) (x : Dword) (address : Option Nat) : Prop :=
  ∀ x' y', x' = x ∨ x' = 0 → y' = address ∨ y' = address.map (fun _ => 0) → bad x' y' = false

theorem payloadUnit_settles {info : Nat} {early : Issue → State → Option Eff} {bad : Issue → Dword → Option Nat → State → Bool}
    {f : Issue → Dword → Option Nat → State → State → Eff} {x : Dword} {address : Option Nat}
    (issues : Issues { messageAttr with ximm := true } g s i) (first : early i s.awake = none) (field : i.regOk false .pair a = true)
    (room : s.awake.bufferFull i = false) (reads : ReadsPayload s.awake u i a b x address)
    (passes : PassesPayload (fun x y => bad i x y s.awake) x address) :
    payloadUnit info a b g early bad f s =
      .next ((f i x address s.awake u).settle { messageAttr with ximm := true } i s.awake) := by
  refine (runUnit_issues issues _).trans ?_
  cases reads with
  | @registers v k scalar read value =>
    have after := State.operandsAfter_of_operands (early := fun v => if bad i (nth v 0 (lowestLane i.active)) none s.awake
      then some (i.illegal info s.awake) else none) read fun w seen =>
        if_neg (Bool.eq_false_iff.mp (passes _ none ((seen.nth 0).imp (fun same => (same _).trans value) (· _)) (.inl rfl)))
    simp only [first, k, field, room, beq_eq_false_iff_ne.mpr scalar, beq_self_eq_true, Nat.one_mod, Nat.lt_irrefl, decide_false,
      Bool.and_false, Bool.not_true, Bool.false_and, Bool.or_self, Bool.false_eq_true, if_false, if_true, wideOperands, Option.toList_none,
      List.map_nil, after, value]
  | @memory v y k second read value address =>
    have after := State.operandsAfter_of_operands (early := fun v => if bad i (nth v 0 (lowestLane i.active))
      (some (nth v 1 (lowestLane i.active)).toNat) s.awake then some (i.illegal info s.awake) else none) read fun w seen =>
        if_neg (Bool.eq_false_iff.mp (passes _ _ ((seen.nth 0).imp (fun same => (same _).trans value) (· _))
          ((seen.nth 1).imp (fun same => by rw [same, address]) (fun zero => by rw [zero]; rfl))))
    simp only [first, k, field, second, room, Nat.zero_mod, Nat.not_lt_zero, decide_false, Bool.and_false, Bool.not_true, Bool.not_false,
      Bool.false_and, Bool.or_self, Bool.false_eq_true, if_false, wideOperands, Option.toList_some, List.map_cons,
      List.map_nil, after, value, address, (by decide : ((0 : Nat) == 1) = false)]

/-- A run of no more registers than a stream has is one that it has. -/
theorem Issue.scalarRun_of_le {f : RegField} {m n : Nat} (run : i.scalarRun f n = true) (le : m ≤ n) : i.scalarRun f m = true := by
  unfold Issue.scalarRun at run ⊢
  simp only [Bool.or_eq_true, Bool.and_eq_true, decide_eq_true_eq] at run ⊢
  exact run.imp (fun ⟨kind, fits⟩ => ⟨kind, by omega⟩) fun ⟨kind, fits⟩ => ⟨kind, by omega⟩

end Payload

section Words
variable {a b : RegField} {m : BitVec 5} {g : GuardField} {s u : State} {i : Issue} {x y : Dword} {v : List (Nat → Dword)} {dst : Nat}

/-! ### SEND (R331) -/

/-- A's fields of a SEND are ones that R331 allows. -/
structure SendFields (x : Dword) : Prop where
  field : x.toNat < 2 ^ 28
  length : sendLength x ≤ 8
  ray : sendClass (x.toNat / 2 ^ 22 % 4) = .ray → sendLength x = 8

theorem SendFields.zero : SendFields 0 := ⟨by decide, by decide, by decide⟩

/-- SEND's own check of its operands. -/
def sendBad (i : Issue) (b : RegField) (x : Dword) (address : Option Nat) : Bool :=
  x.toNat / 2 ^ 28 != 0 || decide (8 < sendLength x) || (sendClass (x.toNat / 2 ^ 22 % 4) == .ray && sendLength x != 8)
    || (address.any fun m => decide (2 ^ 20 ≤ m)) || (address.isNone && !i.scalarRun b (sendLength x))

theorem SendFields.sound (fields : SendFields x) {address : Option Nat} (inside : ∀ m, address = some m → m < 2 ^ 20)
    (run : address = none → i.scalarRun b (sendLength x) = true) : sendBad i b x address = false := by
  obtain ⟨field, length, ray⟩ := fields
  have whole : (sendClass (x.toNat / 2 ^ 22 % 4) == MsgClass.ray && sendLength x != 8) = false :=
    Bool.and_eq_false_imp.mpr fun isRay => bne_eq_false_iff_eq.mpr (ray (eq_of_beq isRay))
  unfold sendBad
  rw [whole, Nat.div_eq_of_lt field, decide_eq_false (Nat.not_lt.mpr length)]
  cases address with
  | none => rw [run rfl]; rfl
  | some m => rw [Option.any_some, decide_eq_false (Nat.not_le.mpr (inside m rfl))]; rfl

theorem passesPayload_send (fields : SendFields x) {address : Option Nat} (inside : ∀ m, address = some m → m < 2 ^ 20)
    (run : address = none → i.scalarRun b (sendLength x) = true) : PassesPayload (sendBad i b) x address := by
  intro x' y' left right
  have small : SendFields x' ∧ sendLength x' ≤ sendLength x := by
    rcases left with rfl | rfl
    · exact ⟨fields, le_rfl⟩
    · exact ⟨.zero, Nat.zero_le _⟩
  refine small.1.sound (fun m same => ?_) fun none => ?_
  · rcases right with rfl | rfl
    · exact inside m same
    · obtain ⟨_, _, rfl⟩ := Option.map_eq_some_iff.mp same
      decide
  · refine Issue.scalarRun_of_le (run ?_) small.2
    rcases right with rfl | rfl
    · exact none
    · exact Option.map_eq_none_iff.mp none

/-- The message of a SEND. -/
def sendMsg (s : State) (i : Issue) (x : Dword) (payload : List Dword) (_ : Asker) : Msg :=
  .handler (x.toNat / 2 ^ 16 % 64) 0 (s.coordWord i) payload

/-- A SEND with fields that its rule allows, to a core of its context. -/
structure Sends (g : GuardField) (s : State) (i : Issue) (a : RegField) (x : Dword) (dst : Nat) : Prop where
  issues : Issues { messageAttr with ximm := true } g s i
  field : i.regOk false .pair a = true
  room : s.awake.bufferFull i = false
  core : s.awake.namesCore i (x.setWidth 16) dst
  fields : SendFields x

theorem exec_send_of_registers (sends : Sends g s i a x dst) (reads : ReadsPayload s.awake u i a b x none)
    (run : i.scalarRun b (sendLength x) = true) (can : u.canEmit i dst (sendClass (x.toNat / 2 ^ 22 % 4))) :
    exec (.send a b g) s = .next (i.finished storeAttr (u.leaves i dst (sendClass (x.toNat / 2 ^ 22 % 4))
      (sendMsg s.awake i x ((List.range (sendLength x)).map fun j => s.awake.scalarReg i (b.toNat + j))))) := by
  obtain ⟨issues, field, room, core, fields⟩ := sends
  change execSend a b g s = _
  refine (payloadUnit_settles issues rfl field room reads (passesPayload_send (address := none) fields (fun m no => nomatch no) fun _ => run)).trans ?_
  rw [State.namesCore] at core
  simp only [core, State.emit_of_canEmit can]
  rfl

theorem exec_send_of_memory {vals : List Nat} {w : State} (sends : Sends g s i a x dst) (reads : ReadsPayload s.awake u i a b x (some y.toNat))
    (inside : y.toNat < 2 ^ 20) (loaded : u.readUnits i y.toNat 8 (sendLength x) = .ready vals w)
    (can : w.canEmit i dst (sendClass (x.toNat / 2 ^ 22 % 4))) :
    exec (.send a b g) s = .next (i.finished storeAttr (w.leaves i dst (sendClass (x.toNat / 2 ^ 22 % 4))
      (sendMsg s.awake i x (vals.map (BitVec.ofNat 64))))) := by
  obtain ⟨issues, field, room, core, fields⟩ := sends
  change execSend a b g s = _
  refine (payloadUnit_settles issues rfl field room reads
    (passesPayload_send (address := some y.toNat) fields (fun m same => Option.some.inj same ▸ inside) fun no => nomatch no)).trans ?_
  rw [State.namesCore] at core
  simp only [core, State.accessing_of_ready (v := fun s => s.readUnits i y.toNat 8 (sendLength x)) loaded, State.emit_of_canEmit can]
  rfl

/-! ### MPOST and WRET (R326, R330) -/

theorem exec_mpost (reads : ReadsWide messageAttr g a b [] s u i x y) (room : s.awake.bufferFull i = false) (word : x.toNat < 2 ^ 16)
    (core : s.awake.namesCore i (x.setWidth 16) dst) (can : u.canEmit i dst .ctl) :
    exec (.mpost a b m g) s = .next (i.finished storeAttr (u.leaves i dst .ctl (.post m.toNat y))) := by
  change execMpost a b m g s = _
  have passes (e : Eff) : PassesEarly (fun x _ => if 2 ^ 16 ≤ x.toNat || s.awake.bufferFull i then some e else none) x y := by
    rintro x' y' (rfl | rfl) - <;> dsimp only
    · rw [room, decide_eq_false (Nat.not_le.mpr word)]; rfl
    · rw [room]; rfl
  refine (twoWideAfter_settles reads rfl (passes _)).trans ?_
  rw [State.namesCore] at core
  simp only [core]
  rw [State.emit_of_canEmit can]
  rfl

theorem exec_wret (reads : ReadsWide messageAttr g a b [] s u i x y) (room : s.awake.bufferFull i = false)
    (gap : x.toNat / 2 ^ 20 % 2 ^ 12 = 0) (word : x.toNat < 2 ^ 48) (home : s.awake.weightWord i x.toNat = .ok dst)
    (can : u.canEmit i dst .req) :
    exec (.wret a b g) s = .next (i.finished storeAttr (u.leaves i dst .req (.weight (x.toNat % 2 ^ 20) y))) := by
  change execWret a b g s = _
  have passes (e : Eff) : PassesEarly (fun x _ => if x.toNat / 2 ^ 20 % 2 ^ 12 != 0 || x.toNat / 2 ^ 48 != 0 || s.awake.bufferFull i
      then some e else none) x y := by
    rintro x' y' (rfl | rfl) - <;> dsimp only
    · rw [room, gap, Nat.div_eq_of_lt word]; rfl
    · rw [room]; rfl
  refine (twoWideAfter_settles reads rfl (passes _)).trans ?_
  simp only [home]
  rw [State.emit_of_canEmit can]
  rfl

/-! ### MTAKE (R327) -/

section Mailbox
variable (issues : Issues { messageAttr with h := false } g s i) (field : i.regOk true .pair a = true)
  (read : s.awake.operands i [] [a] = .ok v u)
include issues field read

theorem exec_mtake_of_present (broadcast : u.broadcasts i a)
    (present : ((s.awake.core i.core).handlers.mailbox m.toNat).present = true) :
    exec (.mtake a m g) s = .next (i.finished storeAttr
      ((u.modHandlers i.core fun h => { h with mailboxes := SMap.drop h.mailboxes m.toNat }).answered i a
        ((s.awake.core i.core).handlers.mailbox m.toNat).value)) := by
  change execMtake a m g s = _
  refine runUnit_done issues ?_
  simp only [field, read, present, Bool.not_true, Bool.false_eq_true, if_false]
  exact State.result_of_broadcasts (State.broadcasts_modHandlers broadcast _ _) .pair _

theorem exec_mtake_of_empty (absent : ((s.awake.core i.core).handlers.mailbox m.toNat).present = false) :
    exec (.mtake a m g) s = .next s.heldBack := by
  change execMtake a m g s = _
  refine (runUnit_issues issues _).trans ?_
  simp only [field, read, absent, Bool.not_true, Bool.not_false, Bool.false_eq_true, if_false, if_true]
  rfl

end Mailbox

/-! ### WSPLIT (R329) -/

theorem mem_lanesOf {mask : LaneMask} {l : Nat} : l ∈ lanesOf mask ↔ l < 64 ∧ mask.getLsbD l = true := by
  rw [lanesOf, List.mem_filter, List.mem_range]

theorem maskOf_eq_zero {p : Nat → Bool} (none : ∀ l < 64, p l = false) : maskOf p = 0 :=
  List.foldlRecOn (motive := (· = (0 : LaneMask))) (List.range 64) _ rfl fun mask zero l mem => by
    rw [none l (List.mem_range.mp mem), zero]; rfl

theorem exec_wsplit (issues : Issues { noMod := true, spin := true } g s i) (fields : i.registersOk (.nat, a) [(.nat, a)])
    (read : s.awake.operands i [(.nat, a)] [a] = .ok v u) (light : ∀ l ∈ lanesOf i.active, (nth v 0 l).toNat % 256 < 63)
    (broadcast : u.broadcasts i a) :
    exec (.wsplit a g) s = .next (i.finished storeAttr (u.delivered i .nat a fun l => nth v 0 l + 1)) := by
  obtain ⟨written, sources⟩ := fields
  have readable : i.regOk false .nat a = true := List.all_eq_true.mp sources (.nat, a) List.mem_cons_self
  have heavy : (maskOf fun l => i.active.getLsbD l && decide (63 ≤ (nth v 0 l).toNat % 256)) = 0 :=
    maskOf_eq_zero fun l small => Bool.and_eq_false_imp.mpr fun active =>
      decide_eq_false (Nat.not_le.mpr (light l (mem_lanesOf.mpr ⟨small, active⟩)))
  change execWsplit a g s = _
  refine runUnit_done issues ?_
  simp only [written, readable, read, heavy, ne_eq, not_true_eq_false, Bool.not_true, Bool.or_self, Bool.false_eq_true, if_false]
  exact State.result_of_broadcasts broadcast .nat _

end Words

/-- Settles O26: SEND's payload comes from registers or from memory; every message goes the way of its stream's kind. -/
theorem messages : Obligations.Messages := by
  unfold Obligations.Messages
  intro a b m g s u i x y v dst
  refine ⟨fun issues field room core => ?send, fun reads room => ⟨exec_mpost reads room, exec_wret reads room⟩,
    fun issues field read broadcast => ⟨exec_mtake_of_present issues field read broadcast, exec_mtake_of_empty issues field read⟩,
    exec_wsplit⟩
  case send =>
    intro len cls out small length ray value
    have sends : Sends g s i a x dst := ⟨issues, field, room, core, small, length, ray⟩
    exact ⟨fun k scalar run read => exec_send_of_registers sends (.registers k scalar read value) run,
      fun vals w k second read address inside => exec_send_of_memory sends (.memory k second read value address) inside⟩

end Sys2Proof.Machine
end

section
/-! PROOF. HBIND, HUNBIND, HDONE, MASKON and MASKOFF (O27). -/

namespace Sys2Proof.Machine

section Bindings
variable {a b : RegField} {g : GuardField} {s u : State} {i : Issue} {x y : Dword}

/-- The operands of an HBIND are ones that R316 allows. -/
structure BindFields (i : Issue) (x y : Dword) : Prop where
  offset : x.toNat < 2 ^ 32
  gap : y.toNat / 2 ^ 7 % 2 ^ 25 = 0
  field : y.toNat < 2 ^ 56
  privileged : 60 ≤ y.toNat % 64 → i.priv = true

/-- A handler number below 60, or privileged code. -/
theorem privilegeChecked {hid : Nat} (privileged : 60 ≤ hid → i.priv = true) : (decide (60 ≤ hid) && !i.priv) = false :=
  Bool.and_eq_false_imp.mpr fun high => by rw [privileged (of_decide_eq_true high)]; rfl

/-- What HBIND checks before its queues. -/
def bindChecks (i : Issue) (s : State) (x y : Dword) : Option Eff :=
  if x.toNat / 2 ^ 32 != 0 || y.toNat / 2 ^ 7 % 2 ^ 25 != 0 || y.toNat / 2 ^ 56 != 0 then some (i.illegal 23 s)
  else if 60 ≤ y.toNat % 64 && !i.priv then some (i.trapBare Cause.priv 0 s) else none

theorem BindFields.passesEarly (fields : BindFields i x y) : PassesEarly (bindChecks i s) x y := by
  intro x' y' left right
  have still : BindFields i x' y' := by
    obtain ⟨offset, gap, field, privileged⟩ := fields
    constructor
    · rcases left with rfl | rfl
      · exact offset
      · decide
    · rcases right with rfl | rfl
      · exact gap
      · rfl
    · rcases right with rfl | rfl
      · exact field
      · decide
    · rcases right with rfl | rfl
      · exact privileged
      · exact fun high => absurd high (by decide)
  obtain ⟨offset, gap, field, privileged⟩ := still
  unfold bindChecks
  rw [Nat.div_eq_of_lt offset, gap, Nat.div_eq_of_lt field, privilegeChecked privileged]
  rfl

theorem exec_hbind (reads : ReadsWide { noMod := true, spin := true } g a b [] s u i x y) (fields : BindFields i x y)
    (aligned : x.toNat % 4 = 0) : exec (.hbind a b g) s = .next (i.finished storeAttr (u.modHandlers i.core fun h => { h with
      bindings := SMap.put h.bindings (y.toNat % 64) ⟨.bound, x.setWidth 32, y.getLsbD 6,
        if y.toNat / 2 ^ 32 % 2 ^ 24 = 0 then 65536 else y.toNat / 2 ^ 32 % 2 ^ 24, i.launch⟩ })) := by
  change execHbind a b g s = _
  refine twoWideAfter_done reads rfl fields.passesEarly ?_
  exact if_neg (not_not_intro aligned)

theorem exec_hunbind (reads : ReadsWide { noMod := true, spin := true } g a 60 [] s u i x y) (small : x.toNat < 64)
    (privileged : 60 ≤ x.toNat → i.priv = true) : exec (.hunbind a g) s = .next (i.finished storeAttr
      (u.modHandlers i.core fun h => { h with bindings := SMap.drop h.bindings x.toNat })) := by
  change execHunbind a g s = _
  refine twoWideAfter_done reads rfl ?_ rfl
  rintro x' y' (rfl | rfl) -
  · exact (if_neg (Nat.not_le.mpr small)).trans (if_neg (Bool.eq_false_iff.mp (privilegeChecked privileged)))
  · rfl

end Bindings

section Runs
variable {g : GuardField} {s : State} {i : Issue} {r : Run} (issues : Issues { g := false, l := false, noMod := true } g s i)
  (run : s.awake.run i.core i.unit = some r)
include issues

theorem exec_hdone : exec (.hdone g) s = .next (((s.awake.finish i).modRun i.core i.unit fun r =>
    { r with done := true, masked := none }).releaseBuffer i.core i.unit 17) := runUnit_moved issues rfl

theorem exec_maskoff : exec (.maskoff g) s = .next ((s.awake.finish i).modRun i.core i.unit fun r => { r with masked := none }) :=
  runUnit_moved issues rfl

include run

theorem exec_maskon_of_high (high : r.hi = true) : exec (.maskon g) s = .next (i.finished {} s.awake) := by
  change execMaskon g s = _
  refine runUnit_done issues ?_
  simp only [run, high, if_true]

section Low
variable (low : r.hi = false)
include low

theorem exec_maskon_of_open (shut : r.masked = none) :
    exec (.maskon g) s = .next ((s.awake.finish i).modRun i.core i.unit fun r => { r with masked := some 0 }) := by
  change execMaskon g s = _
  refine runUnit_moved issues ?_
  simp only [run, low, shut, Option.isSome_none, Bool.false_eq_true, if_false]

theorem exec_maskon_of_masked (masked : r.masked ≠ none) : exec (.maskon g) s = .next (s.awake.takeTrap i ⟨Cause.illegal, 0, 0, 24⟩) := by
  change execMaskon g s = _
  refine runUnit_trapsAt issues ?_
  simp only [run, low, Option.isSome_iff_ne_none.mpr masked, Bool.false_eq_true, if_false, if_true]
  rfl

end Low
end Runs

/-- Settles O27: bindings are put and dropped once their operands pass; the words of a run act on it as their rules say. -/
theorem handlers : Obligations.Handlers := by
  unfold Obligations.Handlers
  intro a b g s u i x y r
  exact ⟨fun reads offset gap field aligned privileged => exec_hbind reads ⟨offset, gap, field, privileged⟩ aligned, exec_hunbind,
    fun issues run => ⟨exec_hdone issues, exec_maskon_of_high issues run, exec_maskon_of_open issues run, exec_maskon_of_masked issues run,
      exec_maskoff issues⟩⟩

end Sys2Proof.Machine
end

section
/-! PROOF. RSEND and RHIT (O28). -/

namespace Sys2Proof.Machine

section Sends
variable {a b : RegField} {g : GuardField} {s u w : State} {i : Issue} {x y : Dword} {v : List (Nat → Dword)} {dst n : Nat} {p : List Dword}

/-- The directory of a context in use raises no trap (R344, R358). -/
theorem needsDirectory_of_inUse (inUse : s.directoryInUse i) : i.needsDirectory s = none := by
  obtain ⟨c, context, hitching⟩ := inUse
  unfold Issue.needsDirectory
  rw [context, Option.map_some, hitching]
  rfl

/-- A payload of n doublewords in registers. -/
def PayloadInRegisters (s u w : State) (i : Issue) (a b : RegField) (v : List (Nat → Dword)) (n : Nat) (p : List Dword) : Prop :=
  i.k = 1 ∧ i.kind ≠ .group ∧ i.scalarRun b n = true ∧ s.operands i [(.pair, a)] [] = .ok v u ∧ w = u ∧
    p = (List.range n).map fun j => s.scalarReg i (b.toNat + j)

/-- A payload of n doublewords in local memory. -/
def PayloadInMemory (s u w : State) (i : Issue) (a b : RegField) (v : List (Nat → Dword)) (y : Dword) (n : Nat) (p : List Dword) : Prop :=
  i.k = 0 ∧ i.regOk false .pair b = true ∧ s.operands i [(.pair, a), (.pair, b)] [] = .ok v u ∧ nth v 1 (lowestLane i.active) = y ∧
    ∃ block, u.readUnits i (y.toNat % 2 ^ 20) (8 * n) 1 = .ready [block] w ∧ p = dwords block n

/-- A word of RSEND's shape with legal fields, to a core of a context whose directory is in use. -/
structure SendsRay (g : GuardField) (s : State) (i : Issue) (a : RegField) (v : List (Nat → Dword)) (x : Dword) (dst : Nat) : Prop where
  issues : Issues { messageAttr with ximm := true } g s i
  directory : s.awake.directoryInUse i
  field : i.regOk false .pair a = true
  room : s.awake.bufferFull i = false
  value : nth v 0 (lowestLane i.active) = x
  core : s.awake.namesCore i (x.setWidth 16) dst

section Shape
variable {fields : Dword → Bool} {bad : Issue → Dword → List Dword → State → Bool} {msg : Issue → Dword → List Dword → State → MsgClass × Msg}

/-- The payload in registers. -/
abbrev State.rayRegisters (s : State) (i : Issue) (b : RegField) (n : Nat) : List Dword := (List.range n).map fun j => s.scalarReg i (b.toNat + j)

/-- What RSEND and RHIT check of their operands before QUEUE_MAP. -/
def rayBad (n : Nat) (b : RegField) (fields : Dword → Bool) (bad : Issue → Dword → List Dword → State → Bool) (i : Issue) (x : Dword)
    (address : Option Nat) (s : State) : Bool :=
  !fields x || (address.isNone && (!i.scalarRun b n || bad i x (s.rayRegisters i b n) s))

/-- What they do with a payload. -/
def rayGoes (bad : Issue → Dword → List Dword → State → Bool) (msg : Issue → Dword → List Dword → State → MsgClass × Msg) (i : Issue)
    (x : Dword) (s : State) (payload : List Dword) (u : State) : Eff :=
  if bad i x payload s then i.illegal 25 s
  else match (s.context i.ctx).bind fun c => c.coreAt (x.setWidth 16) with
    | none => i.trapAt Cause.clusterAddr (x.toNat % 2 ^ 16) 0 s
    | some d => s.emit u i d (msg i x payload s).1 fun _ => (msg i x payload s).2

/-- The load of a payload, whose traps give way to a destination that is not there. -/
def State.rayLoad (s : State) (i : Issue) (x : Dword) (n m : Nat) (t : State) : Access (List Nat) :=
  match t.readUnits i (m % 2 ^ 20) (8 * n) 1 with
  | .refused r t => if ((s.context i.ctx).bind fun c => c.coreAt (x.setWidth 16)).isNone
    then .refused ⟨Cause.clusterAddr, i.mask, BitVec.ofNat 64 (x.toNat % 2 ^ 16), 0⟩ t else .refused r t
  | r => r

/-- Their body, with a payload in registers or in memory. -/
def rayBody (n : Nat) (b : RegField) (bad : Issue → Dword → List Dword → State → Bool)
    (msg : Issue → Dword → List Dword → State → MsgClass × Msg) (i : Issue) (x : Dword) (address : Option Nat) (s u : State) : Eff :=
  match address with
  | none => rayGoes bad msg i x s (s.rayRegisters i b n) u
  | some m => s.accessing (s.rayLoad i x n m) u fun vals u => rayGoes bad msg i x s (dwords (vals.headD 0) n) u

theorem raySend_eq (s : State) : raySend n a b g fields bad msg s =
    payloadUnit 25 a b g Issue.needsDirectory (rayBad n b fields bad) (rayBody n b bad msg) s := rfl

theorem rayGoes_of_canEmit (core : s.namesCore i (x.setWidth 16) dst) (good : bad i x p s = false) (can : w.canEmit i dst (msg i x p s).1) :
    rayGoes bad msg i x s p w = .done (w.leaves i dst (msg i x p s).1 fun _ => (msg i x p s).2) := by
  rw [State.namesCore] at core
  unfold rayGoes
  simp only [good, core, State.emit_of_canEmit can, Bool.false_eq_true, if_false]

theorem raySend_of_payload (sends : SendsRay g s i a v x dst)
    (payload : PayloadInRegisters s.awake u w i a b v n p ∨ PayloadInMemory s.awake u w i a b v y n p)
    (sound : ∀ x', x' = x ∨ x' = 0 → fields x' = true ∧ bad i x' p s.awake = false)
    (can : w.canEmit i dst (msg i x p s.awake).1) : raySend n a b g fields bad msg s =
      .next (i.finished storeAttr (w.leaves i dst (msg i x p s.awake).1 fun _ => (msg i x p s.awake).2)) := by
  obtain ⟨issues, directory, field, room, value, core⟩ := sends
  obtain ⟨_, good⟩ := sound x (.inl rfl)
  have first := needsDirectory_of_inUse directory
  rcases payload with ⟨k, scalar, run, read, rfl, rfl⟩ | ⟨k, second, read, address, block, loaded, rfl⟩
  · have passes : PassesPayload (fun x y => rayBad n b fields bad i x y s.awake) x none := by
      rintro x' y' left right
      obtain ⟨named, kept⟩ := sound x' left
      simp only [rayBad, State.rayRegisters, named, run, kept, Bool.not_true, Bool.or_self, Bool.and_false]
    rw [raySend_eq, payloadUnit_settles issues first field room (.registers k scalar read value) passes, rayBody,
      rayGoes_of_canEmit core good can]
    rfl
  · have passes : PassesPayload (fun x y => rayBad n b fields bad i x y s.awake) x (some y.toNat) := by
      rintro x' y' left (rfl | rfl) <;> simp only [rayBad, (sound x' left).1] <;> rfl
    have ready : s.awake.rayLoad i x n y.toNat u = .ready [block] w := by unfold State.rayLoad; rw [loaded]
    rw [raySend_eq, payloadUnit_settles issues first field room (.memory k second read value address) passes, rayBody,
      State.accessing_of_ready ready, List.headD_cons, rayGoes_of_canEmit core good can]
    rfl

end Shape

/-- R359: a ray's treelet is one that exists, and a directory ray goes to its home. -/
theorem exec_rsend_of_payload (sends : SendsRay g s i a v x dst)
    (payload : PayloadInRegisters s.awake u w i a b v 8 p ∨ PayloadInMemory s.awake u w i a b v y 8 p) (field : x.toNat < 2 ^ 23)
    (treelet : rayTarget p < 2 ^ 30)
    (home : x.getLsbD 22 = true → ∀ c, s.awake.context i.ctx = some c → dst = c.treeletHome (rayTarget p))
    (can : w.canEmit i dst .ray) : exec (.rsend a b g) s = .next (i.finished storeAttr (w.leaves i dst .ray fun _ =>
      if x.getLsbD 22 then .dirRay (x.toNat / 2 ^ 16 % 64) (s.awake.coordWord i) p
      else .handler (x.toNat / 2 ^ 16 % 64) 0 (s.awake.coordWord i) p)) := by
  obtain ⟨c, context, here⟩ := Option.bind_eq_some_iff.mp sends.core
  change execRsend a b g s = _
  refine raySend_of_payload sends payload ?_ can
  rintro x' (rfl | rfl)
  · refine ⟨beq_iff_eq.mpr (Nat.div_eq_of_lt field), ?_⟩
    dsimp only
    rw [decide_eq_false (Nat.not_le.mpr treelet), Bool.false_or, Bool.and_eq_false_imp]
    intro directory
    rw [context]
    simp only [here, Option.any_some, bne_eq_false_iff_eq]
    exact home directory c context
  · dsimp only
    rw [decide_eq_false (Nat.not_le.mpr treelet)]
    exact ⟨rfl, rfl⟩

theorem exec_rhit_of_payload (sends : SendsRay g s i a v x dst)
    (payload : PayloadInRegisters s.awake u w i a b v 4 p ∨ PayloadInMemory s.awake u w i a b v y 4 p) (field : x.toNat < 2 ^ 16)
    (can : w.canEmit i dst .hit) : exec (.rhit a b g) s =
      .next (i.finished storeAttr (w.leaves i dst .hit fun _ => .hit (p.flatMap fun v => bytesOfNat v.toNat 8))) := by
  change execRhit a b g s = _
  refine raySend_of_payload sends payload ?_ can
  rintro x' (rfl | rfl)
  · exact ⟨beq_iff_eq.mpr (Nat.div_eq_of_lt field), rfl⟩
  · exact ⟨rfl, rfl⟩

end Sends

/-- Settles O28: RSEND and RHIT are one shape, with their own payloads, checks and messages. -/
theorem raySends : Obligations.RaySends := by
  unfold Obligations.RaySends
  intro a b g s u w i x y v dst p issues directory field room value core
  have sends : SendsRay g s i a v x dst := ⟨issues, directory, field, room, value, core⟩
  exact ⟨exec_rsend_of_payload sends, exec_rhit_of_payload sends⟩

end Sys2Proof.Machine
end

section
/-! PROOF. RLD, RBOX4 and RTRI (O29). -/

namespace Sys2Proof.Machine

section Blocks
variable {a b : RegField} {f : BitVec 5} {g : GuardField} {s u : State} {i : Issue} {v : List (Nat → Dword)} {dsts : List RegField}
  {parts : Dword → List (Nat × Nat)}

/-- A check of the lanes' values before QUEUE_MAP: the values pass it, and so would zeros. -/
def PassesLanes (bad : (Nat → Dword) → Bool) (x : Nat → Dword) : Prop := bad x = false ∧ bad (fun _ => 0) = false

theorem PassesLanes.seen {bad : (Nat → Dword) → Bool} {w : List (Nat → Dword)} (passes : PassesLanes bad (nth v 0)) (seen : SeenBefore w v) :
    bad (nth w 0) = false := by
  obtain ⟨values, zeros⟩ := passes
  rcases seen.nth 0 with same | zero
  · rw [funext same]; exact values
  · rw [funext zero]; exact zeros

/-- R358: a block unit whose checks pass reads its parts in lane order and goes on with them. -/
theorem blockUnit_settles {early : Issue → State → Option Eff} {bad : Issue → (Nat → Dword) → Bool}
    {body : Issue → (Nat → Dword) → (Nat → Nat) → State → State → Eff} (issues : Issues rayAttr g s i) (first : early i s.awake = none)
    (blocks : ReadsBlocks s.awake u i parts b dsts v) (passes : PassesLanes (bad i) (nth v 0)) :
    blockUnit parts b dsts g early bad body s = .next ((body i (nth v 0) (u.blocksRead i parts (nth v 0)).1 s.awake
      (u.blocksRead i parts (nth v 0)).2).settle rayAttr i s.awake) := by
  obtain ⟨field, read, checks, pages⟩ := blocks
  have after := State.operandsAfter_of_operands (early := fun v => if bad i (nth v 0) then some (i.illegal 25 s.awake) else none) read
    fun w seen => if_neg (Bool.eq_false_iff.mp (passes.seen seen))
  have ready := State.accessing_of_ready (s := s.awake) (v := fun s => s.localPages i ((targets (i.blocksAt parts (nth v 0))).flatMap fun t =>
    (parts (nth v 0 t.lane)).map fun p => { t with off := t.off + p.1 })) pages.localPages
  rw [Issue.blocksAt] at checks ready
  refine (runUnit_issues issues _).trans ?_
  simp only [first, field, after, checks, ready, Bool.not_true, Bool.false_eq_true, if_false]
  rfl

/-! ### RLD (R360) -/

theorem exec_rld_of_blocks (issues : Issues rayAttr g s i) (run : i.fieldRun a.toNat 16 8 = true)
    (blocks : ReadsBlocks s.awake u i wholeUnit b [] v) :
    let node := u.blocksRead i wholeUnit (nth v 0)
    let count := if i.kind == .group then 16 else 8
    let width := if i.kind == .group then 32 else 64
    exec (.rld a b g) s = .next (i.finished {} ((lanesOf i.active).foldl (fun w l => (List.range count).foldl (fun w j =>
      w.writeReg i .nat (a + BitVec.ofNat 6 j) l (BitVec.ofNat 64 (node.1 l / 2 ^ (width * j) % 2 ^ width))) w) node.2)) := by
  intro node count width
  change execRld a b g s = _
  refine (blockUnit_settles issues (if_pos run) blocks ⟨rfl, rfl⟩).trans ?_
  cases group : i.kind == .group <;> simp only [count, width, node, group, Bool.false_eq_true, if_false, if_true] <;> rfl

/-! ### RBOX4 and RTRI (R361, R362) -/

/-- A test's destination and its ray block are legal, and the block is written (R358, R361). -/
structure TestsRay (s : State) (i : Issue) (a : RegField) (f : BitVec 5) : Prop where
  directory : s.directoryInUse i
  field : i.regOk true .pair a = true
  run : i.fieldRun f.toNat 8 4 = true
  written : s.tokenPending i ((List.range 8).map (f.toNat + ·)) = false

theorem TestsRay.testChecks (tests : TestsRay s i a f) : i.testChecks s a f = none := by
  obtain ⟨directory, field, run, written⟩ := tests
  unfold Issue.testChecks
  simp only [needsDirectory_of_inUse directory, field, run, written, Bool.not_true, Bool.false_eq_true, if_false]

theorem exec_rbox4_of_blocks (issues : Issues rayAttr g s i) (tests : TestsRay s.awake i a f)
    (blocks : ReadsBlocks s.awake u i wholeUnit b [a] v) (broadcast : (u.blocksRead i wholeUnit (nth v 0)).2.broadcasts i a) :
    let node := u.blocksRead i wholeUnit (nth v 0)
    exec (.rbox4 a b f g) s = .next (i.finished {} (node.2.delivered i .pair a fun l =>
      BitVec.ofNat 64 (boxWord (node.1 l) (node.2.rayBlock i f l)))) := by
  intro node
  change execRbox4 a b f g s = _
  refine (blockUnit_settles issues tests.testChecks blocks ⟨rfl, rfl⟩).trans ?_
  rw [State.result_of_broadcasts broadcast]
  rfl

theorem exec_rtri_of_blocks (issues : Issues rayAttr g s i) (tests : TestsRay s.awake i a f)
    (blocks : ReadsBlocks s.awake u i leafParts b [a] v) (small : ∀ l ∈ lanesOf i.active, (nth v 0 l).toNat < 2 ^ 22)
    (broadcast : (u.blocksRead i leafParts (nth v 0)).2.broadcasts i a) :
    let leaf := u.blocksRead i leafParts (nth v 0)
    exec (.rtri a b f g) s = .next (i.finished {} (leaf.2.delivered i .pair a fun l =>
      BitVec.ofNat 64 (triangleWord (leaf.1 l) ((nth v 0 l).toNat / 2 ^ 20 % 4) (leaf.2.rayBlock i f l)))) := by
  intro leaf
  have passes : PassesLanes (fun v => (lanesOf i.active).any fun l => decide (2 ^ 22 ≤ (v l).toNat)) (nth v 0) :=
    ⟨List.any_eq_false.mpr fun l mem large => absurd (small l mem) (Nat.not_lt.mpr (of_decide_eq_true large)),
     List.any_eq_false.mpr fun _ _ => (by decide : ¬ decide (2 ^ 22 ≤ (0 : Dword).toNat) = true)⟩
  change execRtri a b f g s = _
  refine (blockUnit_settles issues tests.testChecks blocks passes).trans ?_
  rw [State.result_of_broadcasts broadcast]
  rfl

end Blocks

/-- Settles O29: the three words are one shape; they differ in the parts they read and in what they make of them. -/
theorem rayTests : Obligations.RayTests := by
  unfold Obligations.RayTests
  intro a b f g s u i v issues node leaf count width
  refine ⟨exec_rld_of_blocks issues, fun directory field run written => ?_⟩
  have tests : TestsRay s.awake i a f := ⟨directory, field, run, written⟩
  exact ⟨exec_rbox4_of_blocks issues tests, exec_rtri_of_blocks issues tests⟩

end Sys2Proof.Machine
end

section
/-! PROOF. TOWN, TPIN and TEVICT (O30). -/

namespace Sys2Proof.Machine

section Treelets
variable {a b : RegField} {g : GuardField} {s u : State} {i : Issue} {x : Context} {v : List (Nat → Dword)}

/-- A word on the directory of its context, which is in use, with a destination of its own. -/
structure OnDirectory (g : GuardField) (s : State) (i : Issue) (a : RegField) (x : Context) : Prop where
  issues : Issues { noMod := true } g s i
  context : s.awake.context i.ctx = some x
  hitching : s.awake.hitching x = true
  field : i.regOk true .pair a = true

theorem OnDirectory.first (on : OnDirectory g s i a x) : i.needsDirectory s.awake = none :=
  needsDirectory_of_inUse ⟨x, on.context, on.hitching⟩

/-! ### TOWN (R364) -/

/-- What TOWN writes for the lanes' treelets, and the state after it has asked. -/
def State.ownerWords (u : State) (i : Issue) (x : Context) (n : Nat → Nat) : SMap Dword × State :=
  (lanesOf i.active).foldl (fun (acc : SMap Dword × State) l =>
    (acc.1 ++ [(l, (acc.2.ownerWord i x (n l)).1)], (acc.2.ownerWord i x (n l)).2)) ([], u)

theorem exec_town (on : OnDirectory g s i a x) (source : i.regOk false .pair b = true) (read : s.awake.operands i [(.pair, b)] [a] = .ok v u)
    (small : ∀ l ∈ lanesOf i.active, (nth v 0 l).toNat < 2 ^ 30)
    (broadcast : (u.ownerWords i x fun l => (nth v 0 l).toNat).2.broadcasts i a) :
    let words := u.ownerWords i x fun l => (nth v 0 l).toNat
    exec (.town a b g) s = .next (i.finished {} (words.2.delivered i .pair a fun l => (SMap.find words.1 l).getD 0)) := by
  intro words
  have passes : PassesLanes (fun v => (lanesOf i.active).any fun l => decide (2 ^ 30 ≤ (v l).toNat)) (nth v 0) :=
    ⟨List.any_eq_false.mpr fun l mem large => absurd (small l mem) (Nat.not_lt.mpr (of_decide_eq_true large)),
     List.any_eq_false.mpr fun _ _ => (by decide : ¬ decide (2 ^ 30 ≤ (0 : Dword).toNat) = true)⟩
  have after := State.operandsAfter_of_operands (early := fun v => if (lanesOf i.active).any fun l => decide (2 ^ 30 ≤ (nth v 0 l).toNat)
    then some (i.illegal 25 s.awake) else none) read fun w seen => if_neg (Bool.eq_false_iff.mp (passes.seen seen))
  change execTown a b g s = _
  refine runUnit_done on.issues ?_
  simp only [on.first, on.context, source, on.field, after, Bool.not_true, Bool.or_self, Bool.false_eq_true, if_false]
  exact State.result_of_broadcasts broadcast .pair _

/-! ### TPIN (R365) -/

/-- A TPIN reads B and B names a treelet and a frame. -/
structure Pins (s u : State) (i : Issue) (a b : RegField) (v : List (Nat → Dword)) (w : Nat) : Prop where
  source : i.regOk false .pair b = true
  read : s.operands i [(.pair, b)] [a] = .ok v u
  value : (nth v 0 (lowestLane i.active)).toNat = w
  small : w < 2 ^ 36
  gap : w / 2 ^ 30 % 4 = 0
  broadcast : u.broadcasts i a

/-- What TPIN does with the treelet n and the frame f of B. -/
def pinGoes (i : Issue) (a : RegField) (x : Context) (n f : Nat) (s u : State) : Eff :=
  if !(s.core i.core).ray.hasFrame f then s.result u i .pair a fun _ => 2
  else match SMap.find (s.core i.core).ray.frames f with
    | some t =>
      if t.tid == n && t.use == .resident then s.result (u.modTFrame i.core f fun t => { t with pinned := true }) i .pair a fun _ => 0
      else s.result u i .pair a fun _ => 1
    | none =>
      .done ((((u.awaitAnswer i a).2.modCore i.core fun k => { k with
        order := k.order + 1
        ray := { k.ray with frames := SMap.put k.ray.frames f { TFrame.new n (k.order + 1) with
          forPin := some (u.awaitAnswer i a).1 } } }).ahead i.core .ctl).release i.core (x.treeletHome n) .ctl
            (.pinRequest n i.core f (u.awaitAnswer i a).1))

variable {w : Nat}

theorem exec_tpin_settles (on : OnDirectory g s i a x) (pins : Pins s.awake u i a b v w) : exec (.tpin a b g) s =
    .next ((pinGoes i a x (w % 2 ^ 30) (w / 2 ^ 32 % 16) s.awake u).settle { noMod := true } i s.awake) := by
  obtain ⟨source, read, rfl, small, gap, broadcast⟩ := pins
  have after := State.operandsAfter_of_operands (early := fun v =>
    let b := (nth v 0 (lowestLane i.active)).toNat
    if 2 ^ 36 ≤ b || b / 2 ^ 30 % 4 != 0 then some (i.illegal 25 s.awake) else none) read fun w seen => by
      rcases seen.nth 0 with same | zero
      · simp only [same, Nat.not_le.mpr small, gap, decide_false, bne_self_eq_false, Bool.or_self, Bool.false_eq_true, if_false]
      · simp only [zero]; rfl
  change execTpin a b g s = _
  refine (runUnit_issues on.issues _).trans ?_
  simp only [on.first, on.context, source, on.field, after, Bool.not_true, Bool.or_self, Bool.false_eq_true, if_false]
  rfl

theorem exec_tpin_of_noFrame (on : OnDirectory g s i a x) (pins : Pins s.awake u i a b v w)
    (missing : (s.awake.core i.core).ray.hasFrame (w / 2 ^ 32 % 16) = false) :
    exec (.tpin a b g) s = .next (i.finished {} (u.answered i a 2)) := by
  rw [exec_tpin_settles on pins]
  simp only [pinGoes, missing, Bool.not_false, if_true, State.result_of_broadcasts pins.broadcast]
  rfl

theorem exec_tpin_of_free (on : OnDirectory g s i a x) (pins : Pins s.awake u i a b v w)
    (there : (s.awake.core i.core).ray.hasFrame (w / 2 ^ 32 % 16) = true)
    (free : SMap.find (s.awake.core i.core).ray.frames (w / 2 ^ 32 % 16) = none) :
    let new (order : Nat) : TFrame := { TFrame.new (w % 2 ^ 30) order with forPin := some (u.awaitAnswer i a).1 }
    exec (.tpin a b g) s = .next (i.finished {} ((((u.awaitAnswer i a).2.modCore i.core fun k => { k with
      order := k.order + 1
      ray := { k.ray with frames := SMap.put k.ray.frames (w / 2 ^ 32 % 16) (new (k.order + 1)) } }).ahead i.core .ctl).release i.core
        (x.treeletHome (w % 2 ^ 30)) .ctl (.pinRequest (w % 2 ^ 30) i.core (w / 2 ^ 32 % 16) (u.awaitAnswer i a).1))) := by
  intro new
  rw [exec_tpin_settles on pins]
  simp only [pinGoes, there, free, Bool.not_true, Bool.false_eq_true, if_false]
  rfl

theorem exec_tpin_of_taken {t : TFrame} (on : OnDirectory g s i a x) (pins : Pins s.awake u i a b v w)
    (there : (s.awake.core i.core).ray.hasFrame (w / 2 ^ 32 % 16) = true)
    (taken : SMap.find (s.awake.core i.core).ray.frames (w / 2 ^ 32 % 16) = some t) :
    exec (.tpin a b g) s = .next (i.finished {} (if t.tid = w % 2 ^ 30 ∧ t.use = .resident then
      ((u.modTFrame i.core (w / 2 ^ 32 % 16) fun t => { t with pinned := true }).delivered i .pair a fun _ => 0) else u.answered i a 1)) := by
  rw [exec_tpin_settles on pins]
  have kept : (u.modTFrame i.core (w / 2 ^ 32 % 16) fun t => { t with pinned := true }).broadcasts i a :=
    State.broadcasts_modRay pins.broadcast _ _
  simp only [pinGoes, there, taken, Bool.not_true, Bool.false_eq_true, if_false, Bool.and_eq_true, beq_iff_eq,
    State.result_of_broadcasts kept, State.result_of_broadcasts pins.broadcast]
  split <;> rfl

/-! ### TEVICT (R366) -/

/-- A TEVICT reads a frame number. -/
structure Evicts (s u : State) (i : Issue) (a : RegField) (v : List (Nat → Dword)) (f : Nat) : Prop where
  source : i.regOk false .pair a = true
  read : s.operands i [(.pair, a)] [a] = .ok v u
  value : (nth v 0 (lowestLane i.active)).toNat = f
  small : f < 16

/-- What TEVICT does with frame f. -/
def evictGoes (i : Issue) (a : RegField) (x : Context) (f : Nat) (s u : State) : Eff :=
  match SMap.find (s.core i.core).ray.frames f with
  | none => s.result u i .pair a fun _ => 1
  | some t =>
    let w := (u.awaitAnswer i a).2.modTFrame i.core f fun t => { t with evictors := t.evictors ++ [(u.awaitAnswer i a).1] }
    .done (if t.use == .resident then (w.ahead i.core .ctl).beginEvict x i.core f none else w)

variable {f : Nat}

theorem exec_tevict_settles (on : OnDirectory g s i a x) (evicts : Evicts s.awake u i a v f) : exec (.tevict a g) s =
    .next ((evictGoes i a x f s.awake u).settle { noMod := true } i s.awake) := by
  obtain ⟨source, read, rfl, small⟩ := evicts
  have after := State.operandsAfter_of_operands (early := fun v =>
    if 16 ≤ (nth v 0 (lowestLane i.active)).toNat then some (i.illegal 25 s.awake) else none) read fun w seen => by
      rcases seen.nth 0 with same | zero
      · rw [same]; exact if_neg (Nat.not_le.mpr small)
      · rw [zero]; rfl
  change execTevict a g s = _
  refine (runUnit_issues on.issues _).trans ?_
  simp only [on.first, on.context, source, on.field, after, Bool.not_true, Bool.or_self, Bool.false_eq_true, if_false]
  rfl

theorem exec_tevict_of_free (on : OnDirectory g s i a x) (evicts : Evicts s.awake u i a v f) (broadcast : u.broadcasts i a)
    (free : SMap.find (s.awake.core i.core).ray.frames f = none) :
    exec (.tevict a g) s = .next (i.finished {} (u.answered i a 1)) := by
  rw [exec_tevict_settles on evicts]
  simp only [evictGoes, free, State.result_of_broadcasts broadcast]
  rfl

theorem exec_tevict_of_taken {t : TFrame} (on : OnDirectory g s i a x) (evicts : Evicts s.awake u i a v f)
    (taken : SMap.find (s.awake.core i.core).ray.frames f = some t) :
    let w := (u.awaitAnswer i a).2.modTFrame i.core f fun t => { t with evictors := t.evictors ++ [(u.awaitAnswer i a).1] }
    exec (.tevict a g) s = .next (i.finished {}
      (if t.use = .resident then (w.ahead i.core .ctl).beginEvict x i.core f none else w)) := by
  intro w
  rw [exec_tevict_settles on evicts]
  simp only [evictGoes, taken, beq_iff_eq]
  rfl

end Treelets

/-- Settles O30: each word finds the directory in use, reads its operand, and does what the frame or the owner cache says. -/
theorem treelets : Obligations.Treelets := by
  unfold Obligations.Treelets
  intro a b g s u i x v issues context hitching field
  have on : OnDirectory g s i a x := ⟨issues, context, hitching, field⟩
  refine ⟨exec_town on, fun source read => ?pins, fun source read broadcast => ?evicts⟩
  case pins =>
    intro w n f r small gap broadcast
    have pins : Pins s.awake u i a b v w := ⟨source, read, rfl, small, gap, broadcast⟩
    exact ⟨exec_tpin_of_noFrame on pins, exec_tpin_of_free on pins, fun t => exec_tpin_of_taken on pins⟩
  case evicts =>
    intro f small
    have evicts : Evicts s.awake u i a v f := ⟨source, read, rfl, small⟩
    exact ⟨exec_tevict_of_free on evicts broadcast, fun t => exec_tevict_of_taken on evicts⟩

end Sys2Proof.Machine
end

section
/-! PROOF. LAUNCH, KWAIT and KSTAT (O31). -/

namespace Sys2Proof.Machine

section Kernels
variable {a b : RegField} {g : GuardField} {s u w : State} {i : Issue} {x y : Dword} {v : List (Nat → Dword)} {c : Context}
  {home off n : Nat} {vals : SMap Nat}

/-! ### LAUNCH (R383) -/

/-- A LAUNCH of a record at an address of its space, to a context that there is. -/
structure Launches (g : GuardField) (s u : State) (i : Issue) (a b : RegField) (record : Dword) (home off : Nat) (c : Context) : Prop where
  issues : Issues { kernelAttr with ximm := true } g s i
  k : i.k = 0 ∨ 2 ^ 16 ≤ i.k ∧ i.k < 2 ^ 17 ∧ i.priv = true
  fields : i.registersOk (.pair, a) [(.pair, b)]
  operands : ∃ v, s.awake.operands i [(.pair, b)] [a] = .ok v u ∧ nth v 0 (lowestLane i.active) = record
  word : record.toNat < 2 ^ 32
  place : s.awake.resolve i .unified record.toNat 64 = .ok (home, off)
  context : s.awake.context i.launchTarget = some c
  alive : c.state ≠ .dead

variable {record : Dword}

theorem Launches.kFits (launches : Launches g s u i a b record home off c) :
    (decide (2 ^ 17 ≤ i.k) || (i.k != 0 && decide (i.k < 2 ^ 16))) = false := by
  rw [Bool.or_eq_false_iff, decide_eq_false_iff_not, Bool.and_eq_false_imp, bne_iff_ne]
  rcases launches.k with zero | ⟨directed, small, _⟩
  · exact ⟨by omega, fun nonzero => absurd zero nonzero⟩
  · exact ⟨Nat.not_le.mpr small, fun _ => decide_eq_false (Nat.not_lt.mpr directed)⟩

theorem Launches.privileged (launches : Launches g s u i a b record home off c) : (decide (i.k ≠ 0) && !i.priv) = false := by
  rcases launches.k with zero | ⟨_, _, priv⟩
  · rw [zero]; rfl
  · rw [priv]; exact Bool.and_false _

/-- R383: a LAUNCH waits for a free index, reads its record, and answers the reason of a refusal or the handle of what it has added to its
target's table. -/
theorem exec_launch_settles (launches : Launches g s u i a b record home off c) :
    ∃ e, exec (.launch a b g) s = .next (Eff.settle e { kernelAttr with ximm := true } i s.awake) ∧
      (c.freeIndex = none → e = .wait s.awake) ∧
      ∀ n vals w, c.freeIndex = some n → u.loadLanes i 64 [⟨lowestLane i.active, home, off, record⟩] = .ready vals w → w.broadcasts i a →
        (let bytes := bytesOfNat ((SMap.find vals (lowestLane i.active)).getD 0) 64
         let accepted := c.acceptLaunch n (w.core i.core).cluster.clock (LaunchRecord.parse bytes)
         (∀ reason, w.launchRefusal i.launchTarget c bytes = some reason →
           e = .done (w.answered i a (BitVec.ofNat 64 (2 ^ 32 * reason)))) ∧
         (w.launchRefusal i.launchTarget c bytes = none → e = .done (State.answered { w with
           contexts := SMap.put w.contexts i.launchTarget accepted.2 } i a (accepted.1.setWidth 64)))) := by
  have kFits := launches.kFits
  have privileged := launches.privileged
  obtain ⟨issues, _, ⟨written, sources⟩, ⟨v, read, rfl⟩, word, place, context, alive⟩ := launches
  have source : i.regOk false .pair b = true := List.all_eq_true.mp sources (.pair, b) List.mem_cons_self
  have after := State.operandsAfter_of_operands (early := fun v =>
    if 2 ^ 32 ≤ (nth v 0 (lowestLane i.active)).toNat then some (i.illegal 27 s.awake)
    else if i.k ≠ 0 && !i.priv then some (i.trapBare Cause.priv 0 s.awake) else none) read fun w seen => by
      rw [privileged]
      rcases seen.nth 0 with same | zero
      · rw [same]; exact if_neg (Nat.not_le.mpr word)
      · rw [zero]; rfl
  have living : (s.awake.context i.launchTarget).filter (·.state != .dead) = some c := by
    rw [context, Option.filter_some, if_pos (bne_iff_ne.mpr alive)]
  refine ⟨_, runUnit_issues issues _, ?_⟩
  simp only [source, written, kFits, after, place, living, Bool.not_true, Bool.or_self, Bool.false_eq_true, if_false, -Nat.reducePow]
  refine ⟨fun full => by simp only [full], fun n vals w free loaded broadcast => ⟨fun reason refused => ?_, fun sound => ?_⟩⟩
  · simp only [free, State.accessing, loaded, refused, State.result_of_broadcasts broadcast, -Nat.reducePow]
    rfl
  · have kept (m : SMap Context) : State.broadcasts { w with contexts := m } i a := broadcast
    simp only [free, State.accessing, loaded, sound, State.result_of_broadcasts (kept _)]
    rfl

/-! ### KWAIT and KSTAT (R384) -/

theorem State.broadcasts_followLaunch (broadcast : u.broadcasts i a) (c ctx : Nat) (h : BitVec 32) :
    (u.followLaunch c ctx h).broadcasts i a := by
  unfold State.followLaunch
  split
  · split
    · exact State.broadcasts_modCore broadcast c fun _ => rfl
    · exact broadcast
  · exact broadcast

/-- A handle is a word: its upper half is 0, and so is that of an entry not yet popped. -/
theorem handleBad_of_word {h h' : Dword} (word : h.toNat < 2 ^ 32) (seen : h' = h ∨ h' = 0) : i.handleBad h' s = none := by
  rcases seen with rfl | rfl
  · exact if_neg (Nat.not_le.mpr word)
  · rfl

theorem exec_kwait_of_ended (reads : ReadsWide kernelAttr g a 60 [a] s u i x y) (word : x.toNat < 2 ^ 32) (broadcast : u.broadcasts i a)
    (ended : s.awake.launchStatus i.ctx (x.setWidth 32) % 16 = 5 ∨ s.awake.launchStatus i.ctx (x.setWidth 32) % 16 = 6 ∨
      s.awake.launchStatus i.ctx (x.setWidth 32) % 16 = 8) :
    exec (.kwait a g) s = .next (i.finished {} ((u.followLaunch i.core i.ctx (x.setWidth 32)).answered i a
      (BitVec.ofNat 64 (s.awake.launchStatus i.ctx (x.setWidth 32))))) := by
  change execKwait a g s = _
  refine twoWideAfter_done reads rfl (fun _ _ seen _ => handleBad_of_word word seen) ?_
  exact (if_pos ended).trans (State.result_of_broadcasts (State.broadcasts_followLaunch broadcast _ _ _) .pair _)

theorem exec_kwait_of_pending (reads : ReadsWide kernelAttr g a 60 [a] s u i x y) (word : x.toNat < 2 ^ 32)
    (pending : s.awake.launchStatus i.ctx (x.setWidth 32) % 16 < 5 ∨ s.awake.launchStatus i.ctx (x.setWidth 32) % 16 = 7) :
    exec (.kwait a g) s = .next s.heldBack := by
  change execKwait a g s = _
  refine (twoWideAfter_settles reads rfl fun _ _ seen _ => handleBad_of_word word seen).trans ?_
  have live : ¬ (s.awake.launchStatus i.ctx (x.setWidth 32) % 16 = 5 ∨ s.awake.launchStatus i.ctx (x.setWidth 32) % 16 = 6 ∨
      s.awake.launchStatus i.ctx (x.setWidth 32) % 16 = 8) := by omega
  simp only [live, if_false]
  rfl

theorem exec_kstat (reads : ReadsWide kernelAttr g 60 b [a] s u i x y) (word : y.toNat < 2 ^ 32) (broadcast : u.broadcasts i a) :
    exec (.kstat a b g) s = .next (i.finished {} (u.answered i a (BitVec.ofNat 64 (s.awake.launchStatus i.ctx (y.setWidth 32))))) := by
  change execKstat a b g s = _
  exact twoWideAfter_done reads rfl (fun _ _ _ seen => handleBad_of_word word seen) (State.result_of_broadcasts broadcast .pair _)

end Kernels

/-- Settles O31: LAUNCH waits for a free index, then reads its record and refuses or accepts it; KWAIT and KSTAT answer a status. -/
theorem kernels : Obligations.Kernels := by
  unfold Obligations.Kernels
  intro a b g s u w i x y v c home off n vals
  refine ⟨fun issues k fields read => ?launch, fun reads word broadcast => ⟨exec_kwait_of_ended reads word broadcast,
    exec_kwait_of_pending reads word⟩, exec_kstat⟩
  case launch =>
    intro record bytes word place context alive
    have launches : Launches g s u i a b record home off c := ⟨issues, k, fields, ⟨v, read, rfl⟩, word, place, context, alive⟩
    obtain ⟨e, settles, waits, answers⟩ := exec_launch_settles launches
    rw [settles]
    refine ⟨fun full => by rw [waits full]; rfl, fun free loaded broadcast => ?_⟩
    obtain ⟨refused, accepted⟩ := answers n vals w free loaded broadcast
    exact ⟨fun reason bad => by rw [refused reason bad]; rfl, fun sound => by rw [accepted sound]; rfl⟩

end Sys2Proof.Machine
end

section
/-! PROOF. TRAP, RTE and HALT, and the trap of a lead (O32). -/

namespace Sys2Proof.Machine

section Words
variable {a : RegField} {g : GuardField} {s u : State} {i : Issue} {v : List (Nat → Dword)} {t : TrapRegs} {x : Context}

/-! ### TRAP, RTE and HALT (R398, R399, R406) -/

theorem exec_trap_of_code (issues : Issues { systemAttr with p := false } g s i) (small : i.k < 2 ^ 16) :
    exec (.trap g) s = .next (s.awake.takeTrap i ⟨Cause.trapSw, i.mask, 0, BitVec.ofNat 64 i.k⟩) := by
  change execTrap g s = _
  exact runUnit_trapsAt issues (if_neg (Nat.not_le.mpr small))

/-- A stream returns from its handler: the trap registers, a K of RTE, and the pages of the spill records are there. -/
structure ResumesTrapped (g : GuardField) (s : State) (i : Issue) (t : TrapRegs) (x : Context) : Prop where
  issues : Issues systemAttr g s i
  handled : s.awake.handled i = some t
  context : s.awake.context i.ctx = some x
  k : i.k ≤ 1
  resumes : t.tpc ≠ 0xFFFFFFFF
  pages : s.awake.pages i.core i.ctx (spillPages x.record.tsa i.unit (i.kind == .lead) i.lanes) (some i.waiter) = .ready

theorem exec_rte_of_lead (returns : ResumesTrapped g s i t x) (lead : i.kind = .lead) :
    exec (.rte g) s = .next (s.awake.returnLead i (i.k == 1)) := by
  obtain ⟨issues, handled, context, k, resumes, pages⟩ := returns
  rw [lead, beq_self_eq_true] at pages
  change execRte g s = _
  refine runUnit_moved issues ?_
  simp only [handled, context, Nat.not_lt.mpr k, resumes, lead, pages, decide_false, Bool.or_self, Bool.false_eq_true, if_false,
    beq_self_eq_true, if_true]

theorem exec_rte_of_group (returns : ResumesTrapped g s i t x) (group : i.kind = .group) : exec (.rte g) s =
    .next ((s.awake.returnLanes i (i.k == 1)).modUnit i.core i.unit fun r => { r with info := { r.info with ready := 0, aged := false } }) := by
  obtain ⟨issues, handled, context, k, resumes, pages⟩ := returns
  rw [group] at pages
  change execRte g s = _
  refine runUnit_moved issues ?_
  simp only [handled, context, Nat.not_lt.mpr k, resumes, group, pages, decide_false, Bool.or_self, Bool.false_eq_true, if_false]
  rfl

/-- A HALT reads its mode. -/
structure Halts (g : GuardField) (s u : State) (i : Issue) (a : RegField) (v : List (Nat → Dword)) : Prop where
  issues : Issues systemAttr g s i
  k : i.k = 0
  field : i.regOk false .pair a = true
  read : s.awake.operands i [(.pair, a)] [] = .ok v u

/-- HALT's check of its mode, where a queue's entry is not yet known. -/
def haltChecks (i : Issue) (s : State) (a : RegField) (v : List (Nat → Dword)) : Option Eff :=
  if isQueue a || i.haltMode v = 1 || (i.haltMode v = 0 && i.handler) then none else some (i.illegal 28 s)

theorem Halts.after (halts : Halts g s u i a v) (mode : (decide (i.haltMode v = 1) || decide (i.haltMode v = 0) && i.handler) = true) :
    s.awake.operandsAfter i [(.pair, a)] [] (haltChecks i s.awake a) = .ok v u := by
  have passes : haltChecks i s.awake a v = none := if_pos (by rw [Bool.or_assoc, mode, Bool.or_true])
  refine State.operandsAfter_of_checks halts.read ?_ passes
  by_cases queue : isQueue a = true
  · exact if_pos (by rw [queue]; rfl)
  · rw [State.registersSeen_of_register halts.read (Bool.eq_false_iff.mpr queue)]
    exact passes

theorem exec_halt_of_fault (halts : Halts g s u i a v) (mode : i.haltMode v = 1) :
    exec (.halt a g) s = .next (u.contextFault i.ctx Cause.haltFault i.core) := by
  have after := halts.after (by rw [mode]; rfl)
  unfold haltChecks at after
  change execHalt a g s = _
  refine runUnit_moved halts.issues ?_
  simp only [halts.field, halts.k, after, mode, ne_eq, not_true_eq_false, decide_false, Bool.false_and, Bool.not_true, Bool.false_eq_true,
    if_false, if_true]

theorem exec_halt_of_group (halts : Halts g s u i a v) (mode : i.haltMode v = 0) (handler : i.handler = true)
    (performed : s.awake.unitUnperformed i.core i.unit = false) : exec (.halt a g) s = .next (u.haltGroup i.core i.unit) := by
  have after := halts.after (by rw [mode, handler]; rfl)
  unfold haltChecks at after
  change execHalt a g s = _
  refine runUnit_moved halts.issues ?_
  simp only [halts.field, halts.k, after, ne_eq, not_true_eq_false, Bool.not_true, Bool.false_eq_true, if_false]
  simp only [mode, handler, performed, zero_ne_one, decide_true, Bool.and_self, Bool.not_true, Bool.and_false, Bool.false_eq_true,
    if_false]

end Words

/-! ### Stores keep the units of every core -/

section Stores
variable {s : State}

theorem sameUnits_foldl {α : Type} {f : State → α → State} (keeps : ∀ t x, SameUnits t (f t x)) (l : List α) (s : State) :
    SameUnits s (l.foldl f s) := List.foldlRecOn (motive := SameUnits s) l f (.refl s) fun t same x _ => same.trans (keeps t x)

theorem sameUnits_release (src dst : Nat) (cls : MsgClass) (m : Msg) : SameUnits s (s.release src dst cls m) := by
  unfold State.release
  split
  · exact sameUnits_modCore _ fun _ => rfl
  · exact .of_cores rfl

theorem sameUnits_putLocal (c ctx a : Nat) (bs : List Byte) : SameUnits s (s.putLocal c ctx a bs) := by
  refine sameUnits_foldl (fun t x => ?_) _ s
  dsimp only
  split
  · exact ⟨fun d => by rw [State.core_setCore]; split <;> simp_all⟩
  · exact .refl t

theorem sameUnits_storeAt (g : Agent) (c addr : Nat) (bs : List Byte) (at' : Nat) : SameUnits s (s.storeAt g c addr bs at') := by
  unfold State.storeAt
  exact (((SameUnits.of_cores (State.logLocal_cores ..)).trans (sameUnits_putLocal ..)).trans (sameUnits_modCluster ..)).trans
    (sameUnits_foldl (fun _ _ => sameUnits_release ..) _ _)

theorem sameUnits_storeLocal (g : Agent) (c addr n v : Nat) : SameUnits s (s.storeLocal g c addr n v) := by
  unfold State.storeLocal
  exact (sameUnits_storeAt ..).trans (sameUnits_modCluster ..)

theorem SameUnits.unit {t : State} (same : SameUnits s t) (c u : Nat) : t.unit c u = s.unit c u := by
  unfold State.unit; rw [same.units]

end Stores

/-! ### The trap of a lead (R393, R396) -/

section Lead
variable {s : State} {i : Issue} {t : TrapRec} {x : Context} {r : Resident} {l : Lead}

/-- R393: a lead's trap vectors once nothing that it follows is still to come. -/
theorem State.takeTrap_of_lead (lead : i.kind = .lead) (code : i.handler = false) (context : s.context i.ctx = some x)
    (cause : t.cause ≠ Cause.eccUncorr) (free : s.spillHeld i = false)
    (pages : s.pages i.core i.ctx (spillPages x.record.tsa i.unit true i.lanes) (some i.waiter) = .ready) :
    s.takeTrap i t = s.vectorLead i.core i.unit i.start i.front t := by
  unfold State.takeTrap
  simp only [cause, lead, code, context, free, beq_self_eq_true, pages, decide_false, Bool.false_and, Bool.false_eq_true, if_false, if_true]

/-- A lead that has vectored: its trap registers, its handler at offset 0 of TVB, and its unit's note of the trap. -/
theorem State.vectorLead_unit {c n : Nat} {start : Word} {front : Front} (unit : s.unit c n = some r) (context : s.context r.info.ctx = some x)
    (lead : r.lead = some l) : ∃ r' l', (s.vectorLead c n start front t).unit c n = some r' ∧ r'.lead = some l' ∧
      l'.traps = ⟨start, tcauseWord t.cause true false front.hints.count n, 0, t.addr, t.info⟩ ∧
      l'.s.front = Front.at 0 ∧ l'.s.loops = [] ∧ l'.s.mode = 0 ∧ (r'.ctl.trap.map (·.lead)) = some true := by
  have stored (g : Agent) (addr : Nat) := ((sameUnits_foldl (s := s) (fun t j => sameUnits_storeLocal g c (addr + 8 * j) 8
    (SMap.word l.s.regs j).toNat) (List.range 4)).trans (sameUnits_storeLocal g c (addr + 32) 32 (l.s.preds.toNat ||| 1))).unit c n
  unfold State.vectorLead
  simp only [unit, context, lead, State.modLead, State.modCtl, State.unit_modUnit, if_true, stored, Option.map_some, Option.some.injEq]
  exact ⟨_, _, rfl, rfl, rfl, rfl, rfl, rfl, rfl⟩

end Lead

/-- Settles O32: the three words, and a lead's trap, whose stores leave the unit that vectors. -/
theorem trapReturnHalt : Obligations.TrapReturnHalt := by
  unfold Obligations.TrapReturnHalt
  refine ⟨fun a g s u i v t x => ⟨exec_trap_of_code, fun issues handled context k resumes pages => ?rte,
    fun issues k field read => ?halt⟩, fun s i t x r l lead code context unit own leads cause free pages => ?lead⟩
  case rte =>
    have returns : ResumesTrapped g s i t x := ⟨issues, handled, context, k, resumes, pages⟩
    exact ⟨exec_rte_of_lead returns, exec_rte_of_group returns⟩
  case halt =>
    have halts : Halts g s u i a v := ⟨issues, k, field, read⟩
    exact ⟨exec_halt_of_fault halts, exec_halt_of_group halts⟩
  case lead =>
    rw [State.takeTrap_of_lead lead code context cause free pages]
    exact State.vectorLead_unit unit (own ▸ context) leads

end Sys2Proof.Machine
end

section
/-! PROOF. The system registers (O33). -/

namespace Sys2Proof.Machine

/-! ### Which numbers name a register (R404) -/

theorem isSome_ite_some_iff {β : Type} {p : Prop} [Decidable p] (v : β) (o : Option β) :
    (if p then some v else o).isSome = true ↔ p ∨ o.isSome = true := by
  by_cases holds : p <;> simp [holds]

section Registers
variable {s : State} {i : Issue} {n : Nat}

/-- The numbers of bank 0 that exist on a core. -/
def NamesBank0 (c n : Nat) : Prop :=
  n ≤ 0xB ∨ (0x10 ≤ n ∧ n ≤ 0x17) ∨ (0x20 ≤ n ∧ n ≤ 0x23) ∨ (0xA00 ≤ n ∧ n ≤ 0xA02) ∨
    (0xB00 ≤ n ∧ n ≤ 0xB03 ∧ isDispatchCore c = true)

/-- In a context that there is, the numbers that read are those that exist. -/
theorem State.readBank0_isSome_iff (context : (s.context i.ctx).isSome = true) :
    (s.readBank0 i n).isSome = true ↔ NamesBank0 i.core n := by
  obtain ⟨x, held⟩ := Option.isSome_iff_exists.mp context
  simp only [State.readBank0, held, isSome_ite_some_iff, Option.isSome_none, Bool.false_eq_true, or_false, NamesBank0]
  cases isDispatchCore i.core <;> simp only [Bool.false_eq_true, and_true, and_false, or_false] <;> omega

/-- And so are the numbers that can be written, to some effect or none. -/
theorem State.writeBank0_isSome_iff (context : (s.context i.ctx).isSome = true) (v : Dword) :
    (s.writeBank0 i n v).isSome = true ↔ NamesBank0 i.core n := by
  simp only [State.writeBank0, isSome_ite_some_iff, State.readBank0_isSome_iff context, Option.isSome_none, Bool.false_eq_true, or_false, NamesBank0]
  cases isDispatchCore i.core <;> simp only [Bool.false_eq_true, and_true, and_false, or_false, false_or] <;> omega

/-- The numbers of bank 1, whatever the state. -/
def NamesBank1 (n : Nat) : Prop :=
  (0x400 ≤ n ∧ n < 0x600 ∧ (n % 32 < 12 ∨ 16 ≤ n % 32 ∧ n % 32 < 28)) ∨ n = 0x600 ∨ n = 0x601 ∨ (0x800 ≤ n ∧ n < 0x1040) ∨
    (0x2000 ≤ n ∧ n < 0x2200) ∨ n = 0x3000

theorem State.readBank1_isSome_iff : (s.readBank1 n).isSome = true ↔ NamesBank1 n := by
  unfold State.readBank1 NamesBank1
  split
  · simp only [isSome_ite_some_iff, Option.isSome_none, Bool.false_eq_true, or_false]
    omega
  · simp only [isSome_ite_some_iff, Option.isSome_none, Bool.false_eq_true, or_false]
    omega

theorem State.writeBank1_isSome_iff (v : Dword) : (s.writeBank1 n v).isSome = true ↔ NamesBank1 n := by
  simp only [State.writeBank1, isSome_ite_some_iff, State.readBank1_isSome_iff, Option.isSome_none, Bool.false_eq_true, or_false, NamesBank1]
  omega

/-- The context of a stream that issues is its unit's or, for a run, the one that holds its core. -/
theorem State.context_of_issue {ref : StreamRef} (issue : s.issue ref = some i) :
    (s.context i.ctx).isSome = true ∨ ∃ x, s.holder i.core = some (i.ctx, x) := by
  cases ref with
  | group c u p =>
    simp only [State.issue, Option.bind_eq_some_iff, Option.ite_none_left_eq_some, Option.some.injEq] at issue
    obtain ⟨r, -, x, held, path, -, -, rfl⟩ := issue
    exact .inl (Option.isSome_of_eq_some held)
  | lead c u =>
    simp only [State.issue, Option.bind_eq_some_iff, Option.ite_none_left_eq_some, Option.some.injEq] at issue
    obtain ⟨r, -, x, held, lead, -, -, rfl⟩ := issue
    exact .inl (Option.isSome_of_eq_some held)
  | run c k =>
    simp only [State.issue, Option.bind_eq_some_iff, Option.ite_none_left_eq_some, Option.some.injEq] at issue
    obtain ⟨r, -, ⟨id, x⟩, holder, -, rfl⟩ := issue
    exact .inr ⟨x, holder⟩

/-- With rising context identifiers, the context of a unit that issues is one that there is. -/
theorem Issues.context_isSome {t : Attr} {g : GuardField} (issues : Issues t g s i) (sorted : SMap.wf s.contexts = true) :
    (s.context i.ctx).isSome = true := by
  obtain ⟨⟨j, reaches, rfl⟩, -⟩ := issues
  obtain ⟨ref, -, stream⟩ := Option.bind_eq_some_iff.mp reaches.stream
  rcases State.context_of_issue stream with there | ⟨x, holder⟩
  · exact there
  · exact Option.isSome_of_eq_some (SMap.find_of_mem sorted (List.mem_of_find?_eq_some holder))

/-- A register number that the state reads can be written, once the operands are read. -/
theorem State.writeSystem_isSome {u : State} (known : (s.context i.ctx).isSome = true) (same : u.contexts = s.contexts)
    (small : i.k < 2 ^ 17) (v : Dword) :
    (if i.k < 2 ^ 16 then u.writeBank0 i i.k v else u.writeBank1 (i.k - 2 ^ 16) v).isSome = (s.readSystem i).isSome := by
  have there : (u.context i.ctx).isSome = true := by rw [State.context, same]; exact known
  rw [State.readSystem, Bool.eq_iff_iff]
  by_cases bank0 : i.k < 2 ^ 16
  · rw [if_pos bank0, if_pos bank0, State.writeBank0_isSome_iff there, State.readBank0_isSome_iff known]
  · rw [if_neg bank0, if_neg bank0, if_pos small, State.writeBank1_isSome_iff, State.readBank1_isSome_iff]

end Registers

/-! ### SYSR and SYSW (R404, R407) -/

section Words
variable {a b : RegField} {write : List RegField} {g : GuardField} {s u : State} {i : Issue} {x y : Dword}

/-- A number that names no register is ILLEGAL before the operands are popped. -/
theorem twoWideAfter_noRegister {f : Issue → Dword → Dword → State → State → Eff}
    (reads : ReadsWide systemAttr g a b write s u i x y) (missing : s.awake.readSystem i = none) :
    twoWideAfter systemAttr a b write g (fun _ => false) (fun i _ _ s => i.noRegister s) f s =
      .next (s.awake.takeTrap i ⟨Cause.illegal, 0, 0, 28⟩) := by
  obtain ⟨issues, ⟨readA, readB⟩, writable, vals, read, -, -⟩ := reads
  have written : (write.all fun r => i.regOk true .pair r) = true := List.all_eq_true.mpr writable
  have names : i.noRegister s.awake = some (i.illegal 28 s.awake) := by rw [Issue.noRegister, missing]; rfl
  refine runUnit_trapsAt issues ?_
  simp only [readA, readB, written, State.operandsAfter, State.tokenPending_of_operands read, names, Bool.not_true, Bool.or_self,
    Bool.false_eq_true, if_false]
  rfl

theorem noRegister_of_some {v : Dword} (named : s.readSystem i = some v) : i.noRegister s = none := by
  rw [Issue.noRegister, named]; rfl

theorem exec_sysr (reads : ReadsWide systemAttr g 60 60 [a] s u i x y) (broadcast : u.broadcasts i a) :
    exec (.sysr a g) s = .next (match s.awake.readSystem i with
      | some v => i.finished systemAttr (u.answered i a v)
      | none => s.awake.takeTrap i ⟨Cause.illegal, 0, 0, 28⟩) := by
  change execSysr a g s = _
  cases named : s.awake.readSystem i with
  | none => exact twoWideAfter_noRegister reads named
  | some v =>
    refine twoWideAfter_done reads rfl (fun _ _ _ _ => noRegister_of_some named) ?_
    simp only [named]
    exact State.result_of_broadcasts broadcast .pair _

/-- R233: L2COMMIT starts a commit, and its unit waits for it. -/
theorem exec_sysw_of_commit (reads : ReadsWide systemAttr g a 60 [] s u i x y) (commit : i.k = 2 ^ 16 + 0x600)
    (idle : s.l2.commit = none) : exec (.sysw a g) s = .next (i.finished systemAttr
      ((u.awaiting i).2.modL2 fun l => { l with commit := some ⟨x.setWidth 16, .requested, l.staged, [], (u.awaiting i).1⟩ })) := by
  change execSysw a g s = _
  have named : s.awake.readSystem i = some 0 := by
    rw [State.readSystem, if_neg (by omega), if_pos (by omega), commit, Nat.add_sub_cancel_left]; rfl
  refine twoWideAfter_done reads rfl (fun _ _ _ _ => noRegister_of_some named) ?_
  have free : s.awake.l2.commit.isSome = false := by rw [show s.awake.l2 = s.l2 from rfl, idle]; rfl
  simp only [commit, if_true, writeCommit, free, Bool.false_eq_true, if_false]

/-- R404, R407: any other register is written as its bank says. -/
theorem exec_sysw (reads : ReadsWide systemAttr g a 60 [] s u i x y) (sorted : SMap.wf s.contexts = true) (small : i.k < 2 ^ 17)
    (other : i.k ≠ 2 ^ 16 + 0x600) : exec (.sysw a g) s = .next
      (match (if i.k < 2 ^ 16 then u.writeBank0 i i.k x else u.writeBank1 (i.k - 2 ^ 16) x) with
        | some w => i.finished systemAttr w
        | none => s.awake.takeTrap i ⟨Cause.illegal, 0, 0, 28⟩) := by
  change execSysw a g s = _
  obtain ⟨vals, read, -, -⟩ := reads.operands
  have sources : ([(Cls.pair, a), (Cls.pair, 60)].all fun x => i.regOk false x.1 x.2) = true := by
    simp only [List.all_cons, reads.readable, List.all_nil, Bool.and_self]
  have names := State.writeSystem_isSome (s := s.awake) (reads.issues.context_isSome sorted) (sameOutside_operands sources read).contexts
    small x
  cases written : (if i.k < 2 ^ 16 then u.writeBank0 i i.k x else u.writeBank1 (i.k - 2 ^ 16) x) with
  | none =>
    rw [written] at names
    exact twoWideAfter_noRegister reads (Option.isSome_eq_false_iff.mp names.symm |> Option.isNone_iff_eq_none.mp)
  | some w =>
    rw [written] at names
    obtain ⟨v, named⟩ := Option.isSome_iff_exists.mp names.symm
    refine twoWideAfter_done reads rfl (fun _ _ _ _ => noRegister_of_some named) ?_
    simp only [other, if_false, written]

/-! ### What holds where the map of contexts is in canonical form -/

/-- The statement of O33 with the premise that it lacks: context identifiers rise strictly, as they do at reset. -/
theorem systemRegisters_of_wf (sorted : SMap.wf s.contexts = true) (small : i.k < 2 ^ 17) :
    (ReadsWide systemAttr g 60 60 [a] s u i x y → u.broadcasts i a →
      exec (.sysr a g) s = .next (match s.awake.readSystem i with
        | some v => i.finished systemAttr (u.answered i a v)
        | none => s.awake.takeTrap i ⟨Cause.illegal, 0, 0, 28⟩)) ∧
    (ReadsWide systemAttr g a 60 [] s u i x y →
      (i.k = 2 ^ 16 + 0x600 → s.l2.commit = none → exec (.sysw a g) s = .next (i.finished systemAttr
        ((u.awaiting i).2.modL2 fun l => { l with commit := some ⟨x.setWidth 16, .requested, l.staged, [], (u.awaiting i).1⟩ }))) ∧
      (i.k ≠ 2 ^ 16 + 0x600 →
        exec (.sysw a g) s = .next (match (if i.k < 2 ^ 16 then u.writeBank0 i i.k x else u.writeBank1 (i.k - 2 ^ 16) x) with
          | some w => i.finished systemAttr w
          | none => s.awake.takeTrap i ⟨Cause.illegal, 0, 0, 28⟩))) :=
  ⟨exec_sysr, fun reads => ⟨exec_sysw_of_commit reads, exec_sysw reads sorted small⟩⟩

end Words

/-- A handler run of core 2, of the context placed there, issues K 0. -/
def placedRunIssues : State := { State.reset.placeWord 0xA0000C00 with cur := some (.run 2 0), agenda := [] }

abbrev aRunsTpc : Issue := issueIn systemAttr 0 placedRunIssues

/-- The premises are met: a run of a placed context writes TPC, which accepts it, and goes on. -/
theorem systemRegisters_of_wf_witness : exec (.sysw 60 0) placedRunIssues = .next (aRunsTpc.finished systemAttr
    ((placedRunIssues.awake.operands aRunsTpc [(.pair, 60), (.pair, 60)] []).state placedRunIssues)) :=
  ((systemRegisters_of_wf (x := 0) (y := 0) (i := aRunsTpc) (by decide +kernel) (by decide +kernel)).2
    (readsWide_in (by decide +kernel) (by decide +kernel))).2 (by decide +kernel)

/-! ### The refutation -/

/-- The same, but the contexts' identifiers do not rise: context 1 holds the core, but the lookup of identifier 1 stops
at context 2, which is not placed. -/
def unsortedContexts : State :=
  { placedRunIssues with contexts := [(2, { placedContext with placed := false }), (1, placedContext)] }

abbrev aUnsorted : Issue := issueIn systemAttr 0 unsortedContexts

theorem reads_unsortedContexts : ReadsWide systemAttr 0 60 60 [] unsortedContexts
    ((unsortedContexts.awake.operands aUnsorted [(.pair, 60), (.pair, 60)] []).state unsortedContexts) aUnsorted 0 0 :=
  readsWide_in (by decide +kernel) (by decide +kernel)

/-- There TPC names no register, so the write is ILLEGAL and the run is aborted. -/
theorem exec_sysw_unsortedContexts : exec (.sysw 60 0) unsortedContexts =
    .next (unsortedContexts.awake.takeTrap aUnsorted ⟨Cause.illegal, 0, 0, 28⟩) := by
  change execSysw 60 0 _ = _
  exact twoWideAfter_noRegister reads_unsortedContexts (by decide +kernel)

/-- Refutes O33: a run writes TPC (K 0) on a core whose holder the map of contexts, which is not in canonical form (SMap.wf), does not find
by its identifier. Bank 0 is then unreadable, so the model takes ILLEGAL and aborts the run; the statement asks of the write alone, which a
run's TPC accepts, and has the run go on. With the premise every clause holds (`systemRegisters_of_wf`). -/
theorem not_systemRegisters : ¬ Obligations.SystemRegisters := by
  unfold Obligations.SystemRegisters
  intro claim
  obtain ⟨-, writes⟩ := claim 60 0 unsortedContexts _ aUnsorted 0 0 (by decide +kernel)
  have next := (writes reads_unsortedContexts).2 (by decide +kernel)
  rw [exec_sysw_unsortedContexts] at next
  have runs := congrArg (fun t : State => (t.run 2 0).isSome) (Host.Outcome.next.inj next)
  exact absurd runs (by decide +kernel)

end Sys2Proof.Machine
end

section
/-! PROOF. The CSAVE operations, and the events that save, restore and free contexts (O34). -/

namespace Sys2Proof.Machine

/-! ### CSAVE (R408) -/

section Operations
variable {a b : RegField} {g : GuardField} {s u w : State} {i : Issue} {x y : Dword} {v op : Nat} {bad : Nat → Bool}
  {f : Issue → Nat → Nat → State → State → Option (Nat × State)}

/-- A CSAVE operation whose operands pass answers its status code. -/
theorem csaveUnit_done (reads : ReadsWide systemAttr g a b [a] s u i x y) (identifier : x.toNat < 2 ^ 16) (code : i.k = op)
    (good : bad y.toNat = false) (goodZero : bad 0 = false) (answer : f i x.toNat y.toNat s.awake u = some (v, w))
    (broadcast : w.broadcasts i a) :
    csaveUnit op a b g bad f s = .next (i.finished systemAttr (w.answered i a (BitVec.ofNat 64 v))) := by
  have passes : PassesEarly (fun x y => if 2 ^ 16 ≤ x.toNat || bad y.toNat then some (i.illegal 28 s.awake) else none) x y := by
    intro x' y' seenX seenY
    have small : x'.toNat < 2 ^ 16 := by
      rcases seenX with rfl | rfl
      · exact identifier
      · decide
    have fine : bad y'.toNat = false := by
      rcases seenY with rfl | rfl
      · exact good
      · exact goodZero
    simp only [Nat.not_le.mpr small, fine, decide_false, Bool.or_self, Bool.false_eq_true, if_false]
  refine twoWideAfter_done reads (decide_eq_false (not_not_intro code)) passes ?_
  simp only [answer]
  exact State.result_of_broadcasts broadcast .pair _

/-- What create answers, and leaves (R387). -/
def State.createAnswer (s u : State) (i : Issue) (id va : Nat) : Nat × State :=
  if id = 0 ∨ (s.context id).isSome = true then (1, u)
  else
    let read := (s.recordLines i.ctx va).foldl State.signalRead u
    match s.readRecord i.ctx va with
    | none => (5, read)
    | some bytes => if malformed bytes then (5, read)
      else (0, { read with contexts := SMap.put read.contexts id (Context.created bytes) })

/-- What place answers, and leaves (R388). -/
def State.placeAnswer (s u : State) (id corner : Nat) : Nat × State :=
  match s.context id with
  | none => (1, u)
  | some c => if c.placeable = false then (2, u) else if c.record.placeOk (corner % 256) (corner / 256) = false then (4, u)
    else if s.rectangleHeld c.record (corner % 256) (corner / 256) then (3, u)
    else (0, u.place id c (corner % 256) (corner / 256))

/-- What save answers, and leaves (R390). -/
def State.saveAnswer (s u : State) (i : Issue) (id : Nat) : Nat × State :=
  match s.context id with
  | none => (1, u)
  | some c => if id = i.ctx then (2, u) else if c.issues then (0, u.modContext id fun c => { c with state := .preempting })
    else if c.state = .faulted ∧ c.midSave = false ∧ c.closing = false then (0, u.modContext id fun c => { c with closing := true })
    else (2, u)

/-- What destroy answers, and leaves (R390). -/
def State.destroyAnswer (s u : State) (i : Issue) (id : Nat) : Nat × State :=
  match s.context id with
  | none => (1, u)
  | some c => if c.state = .dead ∨ id = i.ctx then (2, u) else (0, u.destroy id c)

theorem exec_csaveCreate (reads : ReadsWide systemAttr g a b [a] s u i x y) (identifier : x.toNat < 2 ^ 16)
    (outcome : (v, w) = s.awake.createAnswer u i x.toNat y.toNat)
    (answers : x.toNat = 0 ∨ (s.awake.context x.toNat).isSome = true ∨
      ∀ line ∈ s.awake.recordLines i.ctx y.toNat, s.awake.lineAnswers (dieOf i.core) line = true)
    (code : i.k = 0) (aligned : y.toNat % 128 = 0) (broadcast : w.broadcasts i a) :
    exec (.csaveCreate a b g) s = .next (i.finished systemAttr (w.answered i a (BitVec.ofNat 64 v))) := by
  change execCsaveCreate a b g s = _
  refine csaveUnit_done reads identifier code (by rw [aligned]; rfl) rfl ?_ broadcast
  rw [outcome, State.createAnswer]
  by_cases taken : x.toNat = 0 ∨ (s.awake.context x.toNat).isSome = true
  · rw [if_pos taken, if_pos (by rw [Bool.or_eq_true, decide_eq_true_iff]; exact taken)]
  · have lines : ((s.awake.recordLines i.ctx y.toNat).all (s.awake.lineAnswers (dieOf i.core))) = true :=
      List.all_eq_true.mpr ((or_assoc.mpr answers).resolve_left taken)
    rw [if_neg taken, if_neg (by rw [Bool.or_eq_true, decide_eq_true_iff]; exact taken), lines]
    rfl

theorem exec_csavePlace (reads : ReadsWide systemAttr g a b [a] s u i x y) (identifier : x.toNat < 2 ^ 16)
    (outcome : (v, w) = s.awake.placeAnswer u x.toNat y.toNat) (code : i.k = 1) (corner : y.toNat < 2 ^ 16)
    (broadcast : w.broadcasts i a) :
    exec (.csavePlace a b g) s = .next (i.finished systemAttr (w.answered i a (BitVec.ofNat 64 v))) := by
  change execCsavePlace a b g s = _
  refine csaveUnit_done reads identifier code (decide_eq_false (Nat.not_le.mpr corner)) rfl ?_ broadcast
  rw [outcome, State.placeAnswer]
  cases s.awake.context x.toNat with
  | none => rfl
  | some c => simp only [Bool.not_eq_true']

theorem exec_csaveSave (reads : ReadsWide systemAttr g a b [a] s u i x y) (identifier : x.toNat < 2 ^ 16)
    (outcome : (v, w) = s.awake.saveAnswer u i x.toNat) (code : i.k = 2) (zero : y = 0) (broadcast : w.broadcasts i a) :
    exec (.csaveSave a b g) s = .next (i.finished systemAttr (w.answered i a (BitVec.ofNat 64 v))) := by
  change execCsaveSave a b g s = _
  refine csaveUnit_done reads identifier code (by rw [zero]; rfl) rfl ?_ broadcast
  rw [outcome, State.saveAnswer]
  cases s.awake.context x.toNat with
  | none => rfl
  | some c => simp only [Bool.and_eq_true, beq_iff_eq, Bool.not_eq_true', and_assoc, apply_ite some]

theorem exec_csaveDestroy (reads : ReadsWide systemAttr g a b [a] s u i x y) (identifier : x.toNat < 2 ^ 16)
    (outcome : (v, w) = s.awake.destroyAnswer u i x.toNat) (code : i.k = 3) (zero : y = 0) (broadcast : w.broadcasts i a) :
    exec (.csaveDestroy a b g) s = .next (i.finished systemAttr (w.answered i a (BitVec.ofNat 64 v))) := by
  change execCsaveDestroy a b g s = _
  refine csaveUnit_done reads identifier code (by rw [zero]; rfl) rfl ?_ broadcast
  rw [outcome, State.destroyAnswer]
  cases s.awake.context x.toNat with
  | none => rfl
  | some c => simp only [Bool.or_eq_true, beq_iff_eq, decide_eq_true_iff]

theorem exec_csaveStatus (reads : ReadsWide systemAttr g a b [a] s u i x y) (identifier : x.toNat < 2 ^ 16) (code : i.k = 4)
    (zero : y = 0) (broadcast : u.broadcasts i a) : exec (.csaveStatus a b g) s =
      .next (i.finished systemAttr (u.answered i a (BitVec.ofNat 64 (s.awake.contextStatus x.toNat)))) := by
  change execCsaveStatus a b g s = _
  exact csaveUnit_done reads identifier code (by rw [zero]; rfl) rfl rfl broadcast

end Operations

/-! ### The ends of saving, restoring and freeing (R390, R401 to R403) -/

section Ends
variable {s : State} {ctx : Nat} {x : Context}

/-- The state from which a context is captured, its runs that have issued HDONE ended unless it has faulted. -/
def State.savedFrom (s : State) (x : Context) : State :=
  if x.state == .faulted then s else x.cores.foldl (fun s c => s.endDoneRuns c) s

/-- Everything that a save waits for has settled. -/
def State.settledFor (s : State) (ctx : Nat) (x : Context) : Bool :=
  if x.state == .faulted then s.faultedReady ctx x else s.saveReady ctx x

/-- R390, R401: a context that stops, and has settled, is captured once no page of its save area is left to be mapped. -/
theorem exec_contextSaved (known : s.context ctx = some x) (stops : x.state = .preempting ∨ (x.state = .faulted ∧ x.closing = true))
    (settled : (s.savedFrom x).settledFor ctx x = true) : exec (.contextSaved ctx) s =
      match x.savePages.find? fun va => ((s.savedFrom x).savePlace ctx x va).isNone with
      | none => .next ((s.savedFrom x).capture ctx x (x.state == .faulted))
      | some va => .next (((s.savedFrom x).freeValue.2).translate ((x.cores.head?).getD 0) ctx va 1
          ((s.savedFrom x).freeValue.1.toNat % 256) (.save ctx)).2 := by
  change execContextSaved ctx s = _
  have faulted : (x.state == .faulted && x.closing) = (x.state == .faulted) := by
    rcases stops with preempting | ⟨faulted, closing⟩
    · rw [preempting]; rfl
    · rw [closing, Bool.and_true]
  have goes : (x.state != .preempting && !(x.state == .faulted)) = false := by
    rcases stops with preempting | ⟨faulted, -⟩
    · rw [preempting]; rfl
    · rw [faulted]; rfl
  unfold State.settledFor State.savedFrom at settled
  unfold execContextSaved State.savedFrom
  simp only [known, faulted, goes, settled, Bool.not_true, Bool.false_eq_true, if_false] <;> rfl

theorem exec_contextSaved_of_mapped (known : s.context ctx = some x)
    (stops : x.state = .preempting ∨ (x.state = .faulted ∧ x.closing = true)) (settled : (s.savedFrom x).settledFor ctx x = true)
    (mapped : ∀ va ∈ x.savePages, ((s.savedFrom x).savePlace ctx x va).isSome = true) :
    exec (.contextSaved ctx) s = .next ((s.savedFrom x).capture ctx x (x.state == .faulted)) := by
  have none : (x.savePages.find? fun va => ((s.savedFrom x).savePlace ctx x va).isNone) = none :=
    List.find?_eq_none.mpr fun va mem => by rw [← Option.not_isSome, mapped va mem]; decide
  rw [exec_contextSaved known stops settled, none]

/-- The state in which a restoring context has taken its pins (R222). -/
def State.withPins (s : State) (ctx : Nat) (x : Context) : State :=
  x.pinsDue.foldl (fun s d => s.modCore d.1 fun k => k.takePins ctx d.2) s

/-- R403: once its pins fit and their pages are there, a restoring context takes them, loads its image and is resident. -/
theorem exec_contextRestored (known : s.context ctx = some x) (restoring : x.state = .restoring)
    (due : ∀ d ∈ x.pinsDue, s.pinsFit d = true ∧ s.pages d.1 ctx (d.2.map fun p => 4096 * p.1) none = .ready) :
    exec (.contextRestored ctx) s = .next ((match x.image with
      | some g => (s.withPins ctx x).loadImage ctx x g
      | none => s.withPins ctx x).modContext ctx fun x => { x with state := .resident }) := by
  change execContextRestored ctx s = _
  have fit : x.pinsDue.all s.pinsFit = true := List.all_eq_true.mpr fun d mem => (due d mem).1
  unfold execContextRestored
  simp only [known, restoring, fit, bne_self_eq_false, Bool.not_true, Bool.false_eq_true, if_false]
  split
  case h_1 d found =>
    have wants := List.find?_some found
    rw [(due d (List.mem_of_find?_eq_some found)).2] at wants
    cases wants
  case h_2 => rfl

theorem exec_contextFreed (known : s.context ctx = some x) (dead : x.state = .dead) :
    exec (.contextFreed ctx) s = .next { s with contexts := SMap.drop s.contexts ctx } := by
  change execContextFreed ctx s = _
  unfold execContextFreed
  simp only [known, dead, beq_self_eq_true, if_true]

end Ends

/-- Settles O34: each CSAVE operation answers what its context's life allows; then the events that end saving, restoring and freeing. -/
theorem contextOperations : Obligations.ContextOperations := by
  unfold Obligations.ContextOperations
  refine ⟨fun a b g s u i x y reads identifier => ?operations, fun s ctx x known => ⟨fun stops => ?saved, fun restoring due => ?restored,
    exec_contextFreed known⟩⟩
  case operations =>
    intro known lines read answers
    have zero : x = 0 ↔ x.toNat = 0 := BitVec.toNat_inj.symm
    have held : known = s.awake.context x.toNat := rfl
    clear_value known
    refine ⟨fun v w outcome lines => exec_csaveCreate reads identifier ?_ (by rw [← zero, ← held]; exact lines), fun v w outcome =>
      exec_csavePlace reads identifier ?_, fun v w outcome => exec_csaveSave reads identifier ?_, fun v w outcome =>
      exec_csaveDestroy reads identifier ?_, exec_csaveStatus reads identifier⟩
    · simp only [outcome, State.createAnswer, zero, held]; rfl
    · rw [outcome, State.placeAnswer, ← held]; cases known <;> rfl
    · rw [outcome, State.saveAnswer, ← held]; cases known <;> rfl
    · rw [outcome, State.destroyAnswer, ← held]; cases known <;> rfl
  case saved =>
    intro faulted t settled
    refine ⟨exec_contextSaved_of_mapped known stops settled, fun va unmapped => ?_⟩
    have first : (x.savePages.find? fun va => ((s.savedFrom x).savePlace ctx x va).isNone) = some va := unmapped
    rw [exec_contextSaved known stops settled, first]
    rfl
  case restored =>
    intro t
    exact ⟨fun g image => by rw [exec_contextRestored known restoring due, image]; rfl,
      fun image => by rw [exec_contextRestored known restoring due, image]; rfl⟩

end Sys2Proof.Machine
end

section
/-! PROOF. Handler dispatch, release, budgets, masked windows, mailboxes and weight returns (O42). -/

namespace Sys2Proof.Machine

/-- The same choice, its condition negated. -/
theorem ite_none_left_eq_right {β : Type} {p q : Prop} [Decidable p] [Decidable q] (o : Option β) (flips : p ↔ ¬ q) :
    (if p then none else o) = if q then o else none := by
  by_cases holds : q
  · rw [if_pos holds, if_neg fun h => flips.mp h holds]
  · rw [if_neg holds, if_pos (flips.mpr holds)]

section Handlers
variable {s t : State} {c n k src m ctx off : Nat} {run : Option Nat} {x : Context} {r : Run} {a : Asker} {v : Dword} {o : OutMsg}

/-! ### Dispatch (R318 to R320, R354) -/

/-- A ray at the head of its inbox whose treelet is elsewhere, and that RAY has room to send on (R354). -/
def State.straySent (s : State) (c : Nat) (x : Context) : Option (Nat × Nat × Msg) :=
  match s.strayRay c x with
  | some (j, home, m) => if (s.take c .ray j).outRoom c home .ray then some (j, home, m) else none
  | none => none

/-- The dispatcher of a core whose context runs sends a stray ray on, or starts a run of the high-priority bank, else of the other. -/
theorem exec_handlerDispatch (held : s.holder c = some (ctx, x)) (issues : x.issues = true) :
    exec (.handlerDispatch c) s = match s.straySent c x with
      | some (j, home, m) => .next (((s.take c .ray j).modRay c fun r => { r with
          owners := r.owners.filter (·.1 ≠ match m with | .dirRay _ _ payload => rayTarget payload | _ => 0) }).release c home .ray m)
      | none => if (s.core c).handlers.dispatched = (s.core c).cycle + 1 then .next s
          else .next ((s.dispatchIn c ctx x true <|> s.dispatchIn c ctx x false).getD s) := by
  change execHandlerDispatch c s = _
  unfold execHandlerDispatch
  simp only [held, issues, Bool.not_true, Bool.false_eq_true, if_false]
  change (match s.straySent c x with | some (j, home, m) => _ | none => _) = _
  cases s.straySent c x with
  | some ray => rfl
  | none =>
    dsimp only
    split
    · rfl
    · refine congrArg (fun pick : Option State => Host.Outcome.next (pick.getD s)) (congrArg₂ (· <|> ·) ?_ ?_)
      all_goals
        unfold State.dispatchIn
        refine congrArg₂ List.findSome? (funext fun j => ?_) rfl
        simp only [Bool.and_eq_true, beq_iff_eq]
        split
        · rfl
        · cases (s.core c).nextHandler ((dispatchOrder[j]?).getD .ctl) with
          | none => rfl
          | some m =>
            refine ite_none_left_eq_right _ ?_
            simp only [Bool.or_eq_true, bne_iff_ne, Bool.and_eq_true, Bool.false_eq_true, false_and, or_false, true_and, not_false_eq_true,
              and_true]
            tauto

theorem exec_handlerDispatch_of_run (held : s.holder c = some (ctx, x)) (issues : x.issues = true)
    (blocked : ∀ j home y, s.strayRay c x = some (j, home, y) → (s.take c .ray j).outRoom c home .ray = false)
    (due : (s.core c).handlers.dispatched ≠ (s.core c).cycle + 1) :
    exec (.handlerDispatch c) s = .next ((s.dispatchIn c ctx x true <|> s.dispatchIn c ctx x false).getD s) := by
  have stays : s.straySent c x = none := by
    unfold State.straySent
    split
    · next j home y stray => rw [blocked j home y stray]; rfl
    · rfl
  rw [exec_handlerDispatch held issues, stays]
  exact if_neg due

theorem exec_handlerDispatch_of_stray {j home hid : Nat} {src' : BitVec 16} {payload : List Dword} (held : s.holder c = some (ctx, x))
    (issues : x.issues = true) (stray : s.strayRay c x = some (j, home, .dirRay hid src' payload))
    (room : (s.take c .ray j).outRoom c home .ray = true) : exec (.handlerDispatch c) s =
      .next (((s.take c .ray j).modRay c fun r => { r with owners := r.owners.filter (·.1 ≠ rayTarget payload) }).release c home .ray
        (.dirRay hid src' payload)) := by
  have sent : s.straySent c x = some (j, home, .dirRay hid src' payload) := by
    unfold State.straySent
    rw [stray]
    exact if_pos room
  rw [exec_handlerDispatch held issues, sent]

/-! ### The end of a run (R321, R322, R324, R328) -/

theorem exec_hdoneRelease (here : (s.releasePending c 16).run c k = some r) (ended : r.done = true) :
    exec (.hdoneRelease c k) s = .next ((s.releasePending c 16).releaseBuffer c k 17) := by
  change execHdoneRelease c k s = _
  unfold execHdoneRelease
  simp only [here, ended, if_true]

theorem exec_budget {i : Issue} (here : s.run c k = some r) (issue : s.issue (.run c k) = some i) (spent : r.budget ≤ r.count) :
    exec (.budget c k) s = .next (s.takeTrap i ⟨Cause.budget, 0, 0, 0⟩) := by
  change execBudget c k s = _
  unfold execBudget
  simp only [here, issue, Nat.not_lt.mpr spent, if_false]

theorem exec_maskWindow {i : Issue} (issue : s.issue (.run c k) = some i) (exceeded : s.maskExceeded i = true)
    (first : i.front.hints.count = 0) : exec (.maskWindow c k) s = .next (s.takeTrap i ⟨Cause.maskWindow, 0, 0, 256⟩) := by
  change execMaskWindow c k s = _
  unfold execMaskWindow
  simp only [issue, exceeded, first, decide_true, Bool.and_self, if_true]

/-! ### Mailboxes and weights (R326, R327, R329, R330) -/

section Post
variable (msg : s.message c .ctl n = some ⟨src, .post m v a, run⟩) (turn : s.inTurn c .ctl n = true) (room : s.replyRoom c src = true)
include msg turn room

theorem exec_mailboxPost_of_full (full : ((s.core c).handlers.mailbox m).present = true) :
    exec (.mailboxPost c n) s = .next ((s.take c .ctl n).reply c src (.postAnswer false m v a)) := by
  change execMailboxPost c n s = _
  unfold execMailboxPost
  simp only [msg, turn, room, full, Bool.not_true, Bool.or_self, Bool.false_eq_true, if_false, if_true]

theorem exec_mailboxPost_of_empty (empty : ((s.core c).handlers.mailbox m).present = false) :
    exec (.mailboxPost c n) s = .next ((((s.take c .ctl n).modHandlers c fun h => { h with
      mailboxes := SMap.put h.mailboxes m ⟨true, v⟩ }).performed a 0).reply c src (.postAnswer true m v a)) := by
  change execMailboxPost c n s = _
  unfold execMailboxPost
  simp only [msg, turn, room, empty, Bool.not_true, Bool.or_self, Bool.false_eq_true, if_false]

end Post

theorem exec_mailboxResend (due : (s.core c).handlers.posts[n]? = some (o, true)) (post : o.msg = .post m v a)
    (first : HandlerPart.posting { (s.core c).handlers with posts := (s.core c).handlers.posts.take n } o.dst m = false)
    (room : s.outRoom c o.dst o.cls = true) : exec (.mailboxResend c n) s =
      .next ((s.modHandlers c fun h => { h with posts := setAt n (fun p => (p.1, false)) h.posts }).release c o.dst o.cls o.msg) := by
  change execMailboxResend c n s = _
  unfold execMailboxResend
  simp only [due, post, first, room, Bool.not_false, Bool.not_true, Bool.or_self, Bool.false_eq_true, if_false]

theorem exec_weightReturn (msg : s.message c .req n = some ⟨src, .weight off v a, run⟩) (turn : s.inTurn c .req n = true)
    (room : s.replyRoom c a.core = true) (ready : s.pages c a.agent.ctx [off] (some a.waiter) = .ready) :
    let t := (s.take c .req n).storeAt a.agent c off (bytesOfNat (natOfBytes (s.localBytes c a.agent.ctx off 8) + v.toNat) 8)
      (s.core a.core).cluster.clock
    let time := ((t.core c).cluster.home (off / 64)).wts
    exec (.weightReturn c n) s = .next ((t.performed a time).reply c a.core (.ack time [] a)) := by
  change execWeightReturn c n s = _
  unfold execWeightReturn
  simp only [msg, turn, room, ready, Bool.not_true, Bool.or_self, Bool.false_eq_true, if_false]

end Handlers

/-- Settles O42: the dispatcher by what it finds, then each event of runs, mailboxes and weights. -/
theorem handlerEvents : Obligations.HandlerEvents := by
  unfold Obligations.HandlerEvents
  intro s c n k src m ctx run x r a v o
  refine ⟨fun held issues blocked due => ⟨fun t high => ?_, fun t none low => ?_⟩,
    fun _ _ _ _ _ => exec_handlerDispatch_of_stray, exec_hdoneRelease, fun _ => exec_budget, fun _ => exec_maskWindow,
    fun msg turn room => ⟨exec_mailboxPost_of_full msg turn room, exec_mailboxPost_of_empty msg turn room⟩, exec_mailboxResend,
    fun _ => exec_weightReturn⟩
  · rw [exec_handlerDispatch_of_run held issues blocked due, high]; rfl
  · rw [exec_handlerDispatch_of_run held issues blocked due, none, low]; rfl

end Sys2Proof.Machine
end

section
/-! PROOF. What a home of the treelet directory does (O43). -/

namespace Sys2Proof.Machine

section Directory
variable {s : State} {c n ctx tid hid src d f home ticket : Nat} {run : Option Nat} {x : Context} {src' : BitVec 16} {payload : List Dword}
  {e : DirEntry} {a : Asker}

/-! ### Directory rays (R346, R347, R349, R352) -/

/-- No directory ray before the n-th message of a RAY inbox could be taken: each must stay in its place. -/
def State.raysStay (s : State) (c n : Nat) : Prop :=
  ∀ m ∈ ((s.core c).inbox .ray).take n, ∀ h b q, m.msg = .dirRay h b q → (s.core c).ray.holdsBack (rayTarget q) = true

theorem State.any_of_raysStay (stay : s.raysStay c n) : ((((s.core c).inbox .ray).take n).any fun m => match m.msg with
    | .dirRay _ _ p => !(s.core c).ray.holdsBack (rayTarget p)
    | _ => false) = false := by
  rw [List.any_eq_false]
  intro m mem
  split
  · next msg => rw [stay m mem _ _ _ msg]; decide
  · decide

/-- A directory ray is parked behind the others of its entry, and counted (R347, R349). -/
def State.park (s : State) (x : Context) (tid hid : Nat) (src : BitVec 16) (payload : List Dword) : State :=
  (s.modEntry x tid fun e => { e with parked := e.parked ++ [(hid, src, payload)] }).countArrival x tid

/-- A directory ray of a treelet of this home, in its turn. -/
structure TakesRay (s : State) (c n src ctx tid hid : Nat) (run : Option Nat) (x : Context) (src' : BitVec 16) (payload : List Dword) : Prop
    where
  held : s.holder c = some (ctx, x)
  message : s.message c .ray n = some ⟨src, .dirRay hid src' payload, run⟩
  target : rayTarget payload = tid
  home : x.treeletHome tid = c
  issues : x.issues = true
  ahead : s.raysStay c n

/-- By its entry a directory ray makes room, stays, is parked with or without a new entry, or goes on to an owner. -/
theorem exec_directoryRay (takes : TakesRay s c n src ctx tid hid run x src' payload) : exec (.directoryRay c n) s =
    .next (match SMap.find (s.core c).ray.entries tid with
      | none => if 512 ≤ (s.core c).ray.entries.length then s.makePlace x c
        else if (s.core c).ray.holdsBack tid then s
        else (((s.take c .ray n).newEntry c tid).park x tid hid src' payload).search x tid
      | some e => if (s.core c).ray.holdsBack tid then s
        else if e.held then ((s.take c .ray n).forward x tid hid src' payload).countArrival x tid
        else (s.take c .ray n).park x tid hid src' payload) := by
  obtain ⟨held, message, rfl, home, issues, ahead⟩ := takes
  change execDirectoryRay c n s = _
  unfold execDirectoryRay
  simp only [message, held, home, issues, ne_eq, not_true, decide_false, Bool.not_true, Bool.or_self, Bool.false_or]
  refine (if_neg (Bool.eq_false_iff.mp (State.any_of_raysStay ahead))).trans ?_
  cases SMap.find (s.core c).ray.entries (rayTarget payload) with
  | none => simp only [apply_ite Host.Outcome.next]; rfl
  | some e => simp only [apply_ite Host.Outcome.next]; rfl

theorem exec_directoryRay_of_full (takes : TakesRay s c n src ctx tid hid run x src' payload)
    (unknown : SMap.find (s.core c).ray.entries tid = none) (full : 512 ≤ (s.core c).ray.entries.length) :
    exec (.directoryRay c n) s = .next (s.makePlace x c) := by
  rw [exec_directoryRay takes, unknown]
  exact congrArg _ (if_pos full)

theorem exec_directoryRay_of_unknown (takes : TakesRay s c n src ctx tid hid run x src' payload)
    (unknown : SMap.find (s.core c).ray.entries tid = none) (room : (s.core c).ray.entries.length < 512)
    (places : (s.core c).ray.parked < 512) : exec (.directoryRay c n) s =
      .next ((((s.take c .ray n).newEntry c tid).park x tid hid src' payload).search x tid) := by
  have goes : (s.core c).ray.holdsBack tid = false := by
    unfold RayPart.holdsBack
    simp only [unknown, Nat.not_le.mpr room, Nat.not_le.mpr places, decide_false, Bool.or_self]
  rw [exec_directoryRay takes, unknown]
  simp only [Nat.not_le.mpr room, goes, Bool.false_eq_true, if_false]

theorem exec_directoryRay_of_waiting (takes : TakesRay s c n src ctx tid hid run x src' payload)
    (known : SMap.find (s.core c).ray.entries tid = some e) (unheld : e.held = false) (room : e.parked.length < 64)
    (places : (s.core c).ray.parked < 512) :
    exec (.directoryRay c n) s = .next ((s.take c .ray n).park x tid hid src' payload) := by
  have goes : (s.core c).ray.holdsBack tid = false := by
    unfold RayPart.holdsBack
    simp only [known, Nat.not_le.mpr room, Nat.not_le.mpr places, decide_false, Bool.or_self, Bool.and_false]
  rw [exec_directoryRay takes, known]
  simp only [goes, unheld, Bool.false_eq_true, if_false]

theorem exec_directoryRay_of_held (takes : TakesRay s c n src ctx tid hid run x src' payload)
    (known : SMap.find (s.core c).ray.entries tid = some e) (owned : e.held = true) :
    exec (.directoryRay c n) s = .next (((s.take c .ray n).forward x tid hid src' payload).countArrival x tid) := by
  have goes : (s.core c).ray.holdsBack tid = false := by
    unfold RayPart.holdsBack
    simp only [known, owned, Bool.not_true, Bool.false_and]
  rw [exec_directoryRay takes, known]
  simp only [goes, owned, Bool.false_eq_true, if_false, if_true]

/-! ### Parked rays and lookups (R347, R351, R445) -/

theorem exec_parkedRayRelease (held : s.holder c = some (ctx, x))
    (oldest : (s.core c).ray.forwards.find? (fun y => y.1 = tid) = some (tid, (d, f), hid, src', payload)) (home : x.treeletHome tid = c)
    (room : s.outRoom c d .ray = true) : exec (.parkedRayRelease c tid) s =
      .next ((s.modRay c fun r => { r with forwards := dropFirst (fun y => y.1 == tid) r.forwards }).forwardTo x tid (d, f) hid src'
        payload) := by
  change execParkedRayRelease c tid s = _
  have found : (s.core c).ray.forwards.find? (fun y => y.1 == tid) = some (tid, (d, f), hid, src', payload) := oldest
  unfold execParkedRayRelease
  simp only [held, found, home, room, ne_eq, not_true, decide_false, Bool.not_true, Bool.or_self, Bool.false_eq_true, if_false]

theorem exec_treeletLookup {asker : Nat} (held : s.holder c = some (ctx, x))
    (message : s.message c .ctl n = some ⟨src, .lookup tid asker, run⟩) (turn : s.inTurn c .ctl n = true) :
    let owner := (s.take c .ctl n).nextOwner x tid
    let t := if owner.isSome then (s.take c .ctl n).modEntry x tid fun e => (e.takeOwner).2 else s.take c .ctl n
    exec (.treeletLookup c n) s = .next ((t.countArrival x tid).release c asker .ctl (.lookupReply tid owner)) := by
  change execTreeletLookup c n s = _
  unfold execTreeletLookup
  simp only [message, held, turn, Bool.not_true, Bool.false_eq_true, if_false]

/-! ### The search for a frame (R348) -/

section Requests
variable {evict copy : Bool} (held : s.holder c = some (ctx, x))
  (message : s.message c .ctl n = some ⟨src, .frameRequest tid home evict copy ticket, run⟩) (turn : s.inTurn c .ctl n = true)
include held message turn

theorem exec_frameRequest_of_touches (copies : copy = true) (touches : ((s.take c .ctl n).core c).ray.touches tid = true) :
    exec (.frameRequest c n) s = .next ((s.take c .ctl n).release c home .ctl (.frameGrant tid c none ticket)) := by
  change execFrameRequest c n s = _
  unfold execFrameRequest
  simp only [message, held, turn, copies, touches, Bool.not_true, Bool.and_self, Bool.false_eq_true, if_false, if_true]

/-- The lowest free frame of a core. -/
def RayPart.freeFrame (r : RayPart) : Option Nat := (List.range 16).find? fun f => r.hasFrame f && (SMap.find r.frames f).isNone

theorem exec_frameRequest (apart : copy = false ∨ ((s.take c .ctl n).core c).ray.touches tid = false) : exec (.frameRequest c n) s =
    .next (match ((s.take c .ctl n).core c).ray.freeFrame with
      | some f => (s.take c .ctl n).grantFrame x c f tid copy ticket
      | none => match (if evict then (s.take c .ctl n).takableFrame x c tid else none) with
        | some f => (s.take c .ctl n).beginEvict x c f (some (tid, copy, ticket))
        | none => (s.take c .ctl n).release c home .ctl (.frameGrant tid c none ticket)) := by
  change execFrameRequest c n s = _
  have apart : (copy && ((s.take c .ctl n).core c).ray.touches tid) = false := Bool.and_eq_false_iff.mpr apart
  unfold execFrameRequest
  simp only [message, held, turn, apart, Bool.not_true, Bool.false_eq_true, if_false]
  change (match ((s.take c .ctl n).core c).ray.freeFrame with | some f => _ | none => _) = _
  cases ((s.take c .ctl n).core c).ray.freeFrame with
  | some f => rfl
  | none => cases (if evict then (s.take c .ctl n).takableFrame x c tid else none) <;> rfl

end Requests

section Grants
variable {frame : Option Nat} (held : s.holder c = some (ctx, x))
  (message : s.message c .ctl n = some ⟨src, .frameGrant tid d frame ticket, run⟩) (turn : s.inTurn c .ctl n = true)
include held message turn

theorem exec_frameGrant_of_refused {j : Nat} (refused : frame = none)
    (entry : SMap.find ((s.take c .ctl n).core c).ray.entries tid = some e) (current : e.ticket = ticket) (asking : e.asking = some j) :
    exec (.frameGrant c n) s = .next ((s.take c .ctl n).askFrom x tid (j + 1)) := by
  change execFrameGrant c n s = _
  unfold execFrameGrant
  simp only [message, held, turn, refused, entry, current, asking, Option.filter_some, beq_self_eq_true, Bool.not_true,
    Bool.false_eq_true, if_false, if_true]

/-- The entry of a treelet whose search has ended with a frame. -/
def State.foundFrame (s : State) (x : Context) (tid : Nat) : State := s.modEntry x tid fun e => { e with asking := none, taking := false }

theorem exec_frameGrant_of_granted (granted : frame = some f)
    (entry : SMap.find ((s.take c .ctl n).core c).ray.entries tid = some e) (current : e.ticket = ticket) :
    exec (.frameGrant c n) s = .next (if 4 ≤ e.owners.length + ((s.take c .ctl n).foundFrame x tid).fillsOf x tid then
      (((s.take c .ctl n).foundFrame x tid).dropTFrame d f).modEntry x tid fun e => { e with copying := false }
      else ((s.take c .ctl n).foundFrame x tid).commandFill c d f) := by
  change execFrameGrant c n s = _
  unfold execFrameGrant
  simp only [message, held, turn, granted, entry, current, Option.filter_some, beq_self_eq_true, Bool.not_true, Bool.false_eq_true,
    if_false, if_true, apply_ite Host.Outcome.next]
  rfl

theorem exec_frameGrant_of_ended (ended : ∀ y, SMap.find ((s.take c .ctl n).core c).ray.entries tid = some y → y.ticket ≠ ticket) :
    exec (.frameGrant c n) s = .next (frame.elim (s.take c .ctl n) ((s.take c .ctl n).dropTFrame d)) := by
  change execFrameGrant c n s = _
  have gone : (SMap.find ((s.take c .ctl n).core c).ray.entries tid).filter (·.ticket == ticket) = none :=
    Option.filter_eq_none_iff.mpr fun y known same => ended y known (beq_iff_eq.mp same)
  unfold execFrameGrant
  simp only [message, held, turn, gone, Bool.not_true, Bool.false_eq_true, if_false]
  cases frame <;> rfl

end Grants

theorem exec_victimRetry (held : s.holder c = some (ctx, x)) (entry : SMap.find (s.core c).ray.entries tid = some e)
    (home : x.treeletHome tid = c) (paging : e.state = .paging) (idle : e.asking = none)
    (free : ∀ k ∈ x.cores, ∀ y ∈ (s.core k).ray.frames, ¬ (y.2.tid = tid ∧ y.2.use = .filling) ∧ (y.2.taker.map (·.1)) ≠ some tid) :
    exec (.victimRetry c tid) s = .next (s.search x tid) := by
  change execVictimRetry c tid s = _
  have none : (x.cores.any fun k => (s.core k).ray.frames.any fun y =>
      (y.2.tid == tid && y.2.use == .filling) || (y.2.taker.map (·.1)) == some tid) = false := by
    simp only [List.any_eq_false, Bool.or_eq_true, Bool.and_eq_true, beq_iff_eq, not_or, List.any_eq_true, not_exists, not_and]
    exact fun k core y frame => ⟨fun same => not_and.mp (free k core y frame).1 same, (free k core y frame).2⟩
  unfold execVictimRetry
  simp only [held, entry, home, paging, idle, none, decide_true, beq_self_eq_true, Option.isNone_none, Bool.not_false, Bool.and_self,
    if_true]

/-! ### TPIN at the home (R347, R352, R365) -/

section Pins
variable (held : s.holder c = some (ctx, x)) (message : s.message c .ctl n = some ⟨src, .pinRequest tid d f a, run⟩)
  (turn : s.inTurn c .ctl n = true)
include held message turn

theorem exec_tpinRequest_of_unknown (unknown : SMap.find (s.core c).ray.entries tid = none)
    (room : (s.core c).ray.entries.length < 512) :
    exec (.tpinRequest c n) s = .next (((s.take c .ctl n).newEntry c tid).commandFill c d f) := by
  change execTpinRequest c n s = _
  unfold execTpinRequest
  simp only [message, held, turn, unknown, Nat.not_le.mpr room, Bool.not_true, Bool.false_eq_true, if_false]

theorem exec_tpinRequest_of_known (known : SMap.find (s.core c).ray.entries tid = some e) : exec (.tpinRequest c n) s =
    .next (if 4 ≤ e.owners.length + (s.take c .ctl n).fillsOf x tid then ((s.take c .ctl n).dropTFrame d f).answer a 3
      else ((s.take c .ctl n).restartCounter x tid).commandFill c d f) := by
  change execTpinRequest c n s = _
  unfold execTpinRequest
  simp only [message, held, turn, known, Bool.not_true, Bool.false_eq_true, if_false, apply_ite Host.Outcome.next]

end Pins

end Directory

/-- Settles O43: by the message that a home takes, what it does with its entry; then the searches and counters that go on by themselves. -/
theorem directoryEvents : Obligations.DirectoryEvents := by
  unfold Obligations.DirectoryEvents
  intro s c n ctx tid hid src d f run x src' payload e a held
  refine ⟨?rays, exec_parkedRayRelease held, fun _ => exec_treeletLookup held, ?requests, ?grants, exec_victimRetry held,
    fun message turn => ⟨exec_tpinRequest_of_unknown held message turn, exec_tpinRequest_of_known held message turn⟩, rfl⟩
  case rays =>
    intro r park message target home issues ahead
    have takes : TakesRay s c n src ctx tid hid run x src' payload := ⟨held, message, target, home, issues, ahead⟩
    exact ⟨exec_directoryRay_of_full takes, exec_directoryRay_of_unknown takes, exec_directoryRay_of_waiting takes,
      exec_directoryRay_of_held takes⟩
  case requests =>
    intro home ticket evict copy message turn t free none'
    refine ⟨exec_frameRequest_of_touches held message turn, fun apart => ?_⟩
    have answer := exec_frameRequest held message turn apart
    refine ⟨fun found => ?_, fun missing takes takable => ?_, fun missing untaken => ?_⟩
    · rw [answer, show (t.core c).ray.freeFrame = some f from found]
    · rw [answer, show (t.core c).ray.freeFrame = none from missing, takes, if_pos rfl, takable]
    · have kept : (if evict then t.takableFrame x c tid else none) = none := by
        rcases untaken with rfl | untaken
        · rfl
        · rw [untaken, ite_self]
      rw [answer, show (t.core c).ray.freeFrame = none from missing, kept]
  case grants =>
    intro ticket frame message turn entry
    exact ⟨fun _ => exec_frameGrant_of_refused held message turn, exec_frameGrant_of_granted held message turn,
      fun ended => (exec_frameGrant_of_ended held message turn ended).trans (by cases frame <;> rfl)⟩

end Sys2Proof.Machine
end

section
/-! PROOF. A core's side of the treelet directory, and the spill ring (O44). -/

namespace Sys2Proof.Machine

section Frames
variable {s : State} {c n ctx tid src d f cause : Nat} {run : Option Nat} {x : Context} {t : TFrame} {e : DirEntry}

/-! ### What the home tells a core (R350, R364, R447) -/

section Told
variable (turn : s.inTurn c .ctl n = true)
include turn

/-- A reply to a lookup reaches a core: the owner that it names is cached (R364). -/
def RayPart.replied (r : RayPart) (tid : Nat) (owner : Option (Nat × Nat)) : RayPart :=
  let r := { r with lookups := r.lookups.filter (· ≠ tid) }
  owner.elim r fun o => r.cacheOwner tid o.1 o.2

theorem exec_lookupReply {owner : Option (Nat × Nat)} (message : s.message c .ctl n = some ⟨src, .lookupReply tid owner, run⟩) :
    exec (.lookupReply c n) s = .next ((s.take c .ctl n).modRay c (·.replied tid owner)) := by
  change execLookupReply c n s = _
  unfold execLookupReply
  simp only [message, turn, Bool.not_true, Bool.false_eq_true, if_false]
  cases owner <;> rfl

theorem exec_ownerUpdate (message : s.message c .ctl n = some ⟨src, .ownerUpdate tid d f, run⟩) :
    exec (.ownerUpdate c n) s = .next ((s.take c .ctl n).modRay c fun r => r.cacheOwner tid d f) := by
  change execOwnerUpdate c n s = _
  unfold execOwnerUpdate
  simp only [message, turn, Bool.not_true, Bool.false_eq_true, if_false]

/-- The frame holds its treelet, and the TPIN that waits for it is pinned (R365, R447). -/
def State.frameHolds (s : State) (c f : Nat) (t : TFrame) : State :=
  let v := s.modTFrame c f fun t => { t with use := .resident, forPin := none }
  match t.forPin with
  | some a => v.answer a 0
  | none => v

theorem exec_frameHoldsTreelet (held : s.holder c = some (ctx, x)) (message : s.message c .ctl n = some ⟨src, .frameHolds tid f, run⟩)
    (frame : SMap.find ((s.take c .ctl n).core c).ray.frames f = some t) (own : t.tid = tid) (filled : t.use = .filled) :
    exec (.frameHoldsTreelet c n) s = .next (if t.evictors = [] then (s.take c .ctl n).frameHolds c f t
      else ((s.take c .ctl n).frameHolds c f t).beginEvict x c f none) := by
  change execFrameHoldsTreelet c n s = _
  unfold execFrameHoldsTreelet
  simp only [message, held, turn, frame, own, filled, ne_eq, not_true, decide_false, bne_self_eq_false, Bool.or_self, Bool.not_true,
    Bool.false_eq_true, if_false, List.isEmpty_iff]
  rfl

end Told

/-! ### Fills (R346, R347, R365, R366) -/

section Fills
variable (held : s.holder c = some (ctx, x)) (frame : SMap.find (s.core c).ray.frames f = some t) (filling : t.use = .filling)
  (started : t.held = true)
include held frame filling started

/-- The pieces of a fill that have been read are written (R346). -/
def State.landPieces (s : State) (ctx c f : Nat) : State := (List.range 16).foldl (fun (s : State) p => s.landTreelet ctx c f p) s

/-- An attempt to go on with a fill writes the pieces that have been read, and ends the fill with the last. -/
theorem finishAttempt_of_ready {paging : Bool} {w : State} {y : TFrame}
    (kind : ((SMap.find (s.core (x.treeletHome t.tid)).ray.entries t.tid).map (·.state == .paging)).getD false = paging)
    (pieces : s.landPieces ctx c f = w) (accepted : t.refused = none)
    (ready : s.pages c ctx (((s.core c).ray.framePages f).map (4096 * ·)) none = .ready)
    (after : SMap.find (w.core c).ray.frames f = some y) :
    finishAttempt paging c f s = .next (if y.full = true then w.finishFill x c f y else w) := by
  unfold State.landPieces at pieces
  unfold finishAttempt
  simp only [held, frame, kind, filling, started, accepted, ready, pieces, after, bne_self_eq_false, Bool.not_true, Option.isSome_none,
    Bool.or_self, Bool.false_eq_true, if_false]

/-- A refused page, or a poisoned one, fails the fill: its frame goes, and a paging entry that nothing else fills goes with it. -/
theorem exec_treeletFillFailed (fails : t.refused = some cause ∨
      (t.refused = none ∧ (t.pages.any fun p => s.pagePoisoned p.2) = true ∧ cause = Cause.eccUncorr))
    (entry : SMap.find ((s.fillGone ctx c f t).core (x.treeletHome t.tid)).ray.entries t.tid = some e) :
    exec (.treeletFillFailed c f) s =
      .next (if e.state = .paging ∧ e.asking = none ∧ (s.fillGone ctx c f t).fillsOf x t.tid = 0 then
        ((s.fillGone ctx c f t).modRay (x.treeletHome t.tid) fun r => { r with entries := SMap.drop r.entries t.tid }).faultReport ctx c
          [BitVec.ofNat 64 (cause + 2 * 65536), BitVec.ofNat 64 (t.tid % 2 ^ 30), BitVec.ofNat 64 e.parked.length]
      else (s.fillGone ctx c f t).modEntry x t.tid fun e => { e with copying := if t.copy then false else e.copying }) := by
  change execTreeletFillFailed c f s = _
  have why : (if t.use != .filling || !t.held then none
      else if t.refused.isSome then t.refused
      else if t.pages.any fun p => s.pagePoisoned p.2 then some Cause.eccUncorr
      else none) = some cause := by
    rcases fails with refused | ⟨accepted, poisoned, rfl⟩
    · simp only [filling, started, refused, bne_self_eq_false, Bool.not_true, Bool.or_self, Bool.false_eq_true, if_false,
        Option.isSome_some, if_true]
    · simp only [filling, started, accepted, poisoned, bne_self_eq_false, Bool.not_true, Bool.or_self, Bool.false_eq_true, if_false,
        Option.isSome_none, if_true]
  unfold execTreeletFillFailed
  simp only [held, frame, why]
  change (match SMap.find ((s.fillGone ctx c f t).core (x.treeletHome t.tid)).ray.entries t.tid with | none => _ | some e => _) = _
  rw [entry]
  simp only [Bool.and_eq_true, beq_iff_eq, Option.isNone_iff_eq_none, and_assoc, apply_ite Host.Outcome.next]
  rfl

end Fills

/-! ### Evictions (R346, R347, R352, R354, R366) -/

/-- A frame being evicted that no live run keeps is freed. -/
theorem exec_treeletEviction_of_evicting (held : s.holder c = some (ctx, x)) (frame : SMap.find (s.core c).ray.frames f = some t)
    (small : f < 16) (evicting : t.use = .evicting) (dead : (s.core c).handlers.rayLive t.tid = false) :
    exec (.treeletEviction c f) s = .next (s.freeTFrame ctx x c f t) := by
  change execTreeletEviction c f s = _
  unfold execTreeletEviction
  simp only [held, small, frame, evicting, dead, if_true, bne_self_eq_false, Bool.or_self, Bool.false_eq_true, if_false]

/-- A message of an eviction is taken in its turn (R346). -/
theorem exec_treeletEviction_of_message {m : Msg} (held : s.holder c = some (ctx, x)) (turn : s.inTurn c .ctl n = true)
    (message : s.message c .ctl n = some ⟨src, m, run⟩) (eviction : m.isEviction = true) :
    exec (.treeletEviction c (n + 16)) s = .next ((s.take c .ctl n).takeEviction x c m) := by
  change execTreeletEviction c (n + 16) s = _
  unfold execTreeletEviction
  simp only [held, Nat.not_lt.mpr (Nat.le_add_left 16 n), if_false, Nat.add_sub_cancel, message, turn, eviction, Bool.and_self, if_true]

/-! ### The spill ring (R355) -/

/-- The address of the next free place of a core's ring. -/
def RayPart.spillAddr (r : RayPart) : Nat := 4096 * r.spb + 128 * ((r.spillHead + r.spill.length) % 2 ^ r.spl)

/-- A message is written into the next place of the ring. -/
def State.storeSpill (s : State) (ctx c : Nat) (x : Context) (m : Msg) : State :=
  let r := (s.core c).ray
  let bytes := spillBytes (x.relative c) m
  (s.storeAt ⟨ctx, 0⟩ c r.spillAddr (bytes.take 64) (s.core c).cluster.clock).storeAt ⟨ctx, 0⟩ c (r.spillAddr + 64) (bytes.drop 64)
    (s.core c).cluster.clock

theorem exec_raySpill {j : Nat} {p : Packet} (held : s.holder c = some (ctx, x))
    (next : (s.flow src c .ray).packets.findIdx? (fun p => p.seq == (s.flow src c .ray).expected &&
      (p.state == .flying || p.state == .early)) = some j) (near : j < 4) (packet : (s.flow src c .ray).packets[j]? = some p)
    (route : s.routeUp (dieOf src) (dieOf c) = true) (ring : (s.core c).ray.spl ≠ 0)
    (room : (s.core c).ray.spill.length < 2 ^ (s.core c).ray.spl)
    (spills : msgDepth .ray ≤ ((s.core c).inbox .ray).length ∨ (s.core c).ray.spill ≠ [])
    (ready : s.pages c ctx [(s.core c).ray.spillAddr] none = .ready) : exec (.raySpill src c) s =
      .next ((((s.storeSpill ctx c x p.msg).setFlow src c .ray { s.flow src c .ray with
        packets := setAt j (fun p => { p with state := .delivered }) (s.flow src c .ray).packets
        expected := ((s.flow src c .ray).expected + 1) % 64 }).modRay c fun r => { r with spill := r.spill ++ [⟨src, p.msg, none⟩] }).follow
          c src) := by
  change execRaySpill src c s = _
  have full : (decide (((s.core c).inbox .ray).length < msgDepth .ray) && (s.core c).ray.spill.isEmpty) = false := by
    rcases spills with full | waiting
    · rw [decide_eq_false (Nat.not_lt.mpr full), Bool.false_and]
    · rw [List.isEmpty_eq_false_iff.mpr waiting, Bool.and_false]
  unfold RayPart.spillAddr at ready
  unfold execRaySpill
  simp only [held, next, Nat.not_le.mpr near, route, ring, Nat.not_le.mpr room, full, ready, packet, decide_false, Bool.not_true,
    Bool.or_self, Bool.false_eq_true, if_false]
  rfl

theorem exec_spillRingFeed {m : InMsg} {more : List InMsg} (oldest : (s.core c).ray.spill = m :: more)
    (room : ((s.core c).inbox .ray).length < msgDepth .ray) : exec (.spillRingFeed c) s =
      .next (s.modCore c fun k => { k.setInbox .ray (k.inbox .ray ++ [m]) with
        ray := { k.ray with spill := more, spillHead := (k.ray.spillHead + 1) % 2 ^ k.ray.spl } }) := by
  change execSpillRingFeed c s = _
  unfold execSpillRingFeed
  simp only [oldest, Nat.not_le.mpr room, if_false]
  rfl

end Frames

/-- Settles O44: what a core takes from a home, the ends of its fills, the evictions of both sides, and the ring. -/
theorem frameEvents : Obligations.FrameEvents := by
  unfold Obligations.FrameEvents
  intro s c n ctx tid src d f cause run x t e held
  refine ⟨fun turn => ⟨fun _ message => ?reply, exec_ownerUpdate turn, exec_frameHoldsTreelet turn held⟩,
    fun frame => ⟨?fills, fun filling started fails entry => ?failed, fun small evicting dead => ?freed⟩, fun turn => ?evictions,
    fun j p next near packet route ring room spills ready => ?spill, fun _ _ => exec_spillRingFeed⟩
  case reply owner =>
    rw [exec_lookupReply turn message]
    cases owner <;> rfl
  case fills =>
    intro paging w
    have pieces : s.landPieces ctx c f = w := rfl
    clear_value w
    intro filling started accepted ready y after next
    refine ⟨fun is => ?_, fun is => ?_⟩
    · change finishAttempt true c f s = _
      exact finishAttempt_of_ready held frame filling started is pieces accepted ready after
    · change finishAttempt false c f s = _
      exact finishAttempt_of_ready held frame filling started is pieces accepted ready after
  case failed =>
    rw [exec_treeletFillFailed held frame filling started fails entry]
    exact ⟨fun cold => by rw [if_pos cold], fun warm => by rw [if_neg warm]⟩
  case freed =>
    intro u w
    rw [exec_treeletEviction_of_evicting held frame small evicting dead, State.freeTFrame]
    cases t.taker <;> rfl
  case evictions =>
    intro u
    refine ⟨fun message frame own resident => ?_, fun message => exec_treeletEviction_of_message held turn message rfl,
      fun message => exec_treeletEviction_of_message held turn message rfl⟩
    have frame : SMap.find ((s.take c .ctl n).core c).ray.frames f = some t := frame
    rw [exec_treeletEviction_of_message held turn message rfl]
    simp only [State.takeEviction, frame, own, resident, decide_true, beq_self_eq_true, Bool.and_self, if_true]
    rfl
  case spill => exact exec_raySpill held next near packet route ring room spills ready

end Sys2Proof.Machine
end

section
/-! PROOF. Host registers and host accesses to memory (O47). -/

namespace Sys2Proof.Machine

/-! ### Host window registers, HAPBASE and the nonce (R424, R433, R436) -/

section Registers
variable {s : State} {k w : Nat}

theorem HostPart.reached_of_phase {h : HostPart} (p : h.phase = 3 ∨ h.phase = 4) : h.reached = true := by
  simpa [HostPart.reached] using p

/-- In phase 2, before HWLOCK, a write to HWINLk stores bits 63:12 in the map of limits. -/
theorem exec_hostRegWrite_hwinl (v : Dword) (small : k < 8) (p : s.host.phase = 2) (unlocked : s.host.hwlock = false) :
    exec (.hostRegWrite (0x208 + 16 * k) v) s = .next (s.modHost fun h => { h with
      hwinLim := SMap.setWord h.hwinLim k (v &&& ~~~(0xFFF : Dword)) }) := by
  change execHostRegWrite (0x208 + 16 * k) v s = _
  have place : (0x208 + 16 * k - 0x200) / 16 = k := by omega
  have window : 0x200 ≤ 0x208 + 16 * k ∧ 0x208 + 16 * k < 0x280 ∧ (0x208 + 16 * k) % 8 = 0 := by omega
  have limit : ¬ (0x208 + 16 * k) % 16 = 0 := by omega
  have writable : ¬ (decide (s.host.phase ≠ 2) || s.host.hwlock) = true := by simp [p, unlocked]
  refine congrArg (fun h => Host.Outcome.next (s.modHost fun _ => h)) ?_
  rw [if_pos window, if_neg writable, if_neg limit, place]

/-- R433: outside phase 2, or once locked, a write to HWINBk leaves the host part. -/
theorem exec_hostRegWrite_of_locked (v : Dword) (small : k < 8) (locked : s.host.phase ≠ 2 ∨ s.host.hwlock = true) :
    exec (.hostRegWrite (0x200 + 16 * k) v) s = .next (s.modHost fun _ => s.host) := by
  change execHostRegWrite (0x200 + 16 * k) v s = _
  have window : 0x200 ≤ 0x200 + 16 * k ∧ 0x200 + 16 * k < 0x280 ∧ (0x200 + 16 * k) % 8 = 0 := by omega
  have dropped : (decide (s.host.phase ≠ 2) || s.host.hwlock) = true := by
    rw [Bool.or_eq_true, decide_eq_true_iff]
    exact locked
  refine congrArg (fun h => Host.Outcome.next (s.modHost fun _ => h)) ?_
  rw [if_pos window, if_pos dropped]

section Reached
variable (p : s.host.phase = 3 ∨ s.host.phase = 4)
include p

theorem exec_hostRegWrite_hapbase (v : Dword) :
    exec (.hostRegWrite 0x1000 v) s = .next (s.modHost fun h => { h with hapBase := v &&& 0xF000000000 }) := by
  change execHostRegWrite 0x1000 v s = _
  have outside : ¬ ((0x200 : Nat) ≤ 0x1000 ∧ (0x1000 : Nat) < 0x280 ∧ 0x1000 % 8 = 0) := by omega
  refine congrArg (fun h => Host.Outcome.next (s.modHost fun _ => h)) ?_
  rw [if_neg outside, if_pos rfl, if_pos (HostPart.reached_of_phase p)]

theorem exec_hostRegWrite_anonce (v : Dword) (small : k < 4) :
    exec (.hostRegWrite (0x300 + 8 * k) v) s = .next (s.modHost fun h => { h with anonce := SMap.setWord h.anonce k v }) := by
  change execHostRegWrite (0x300 + 8 * k) v s = _
  have place : (0x300 + 8 * k - 0x300) / 8 = k := by omega
  have outside : ¬ (0x200 ≤ 0x300 + 8 * k ∧ 0x300 + 8 * k < 0x280 ∧ (0x300 + 8 * k) % 8 = 0) := by omega
  have other : ¬ 0x300 + 8 * k = 0x1000 := by omega
  have window : 0x300 ≤ 0x300 + 8 * k ∧ 0x300 + 8 * k < 0x320 ∧ (0x300 + 8 * k) % 8 = 0 := by omega
  refine congrArg (fun h => Host.Outcome.next (s.modHost fun _ => h)) ?_
  rw [if_neg outside, if_neg other, if_pos window, if_pos (HostPart.reached_of_phase p), place]

theorem exec_heccWrite (v : Dword) : exec (.heccWrite v) s = .next (s.modHost fun h => { h with
    ce := h.ce &&& ~~~(v.setWidth 32), ue := h.ue &&& ~~~((v >>> 32).setWidth 32) }) := by
  change execHeccWrite v s = _
  rw [execHeccWrite, if_pos (HostPart.reached_of_phase p)]

/-! ### Attestation (R436) -/

theorem exec_acmdWrite {v : Dword} (one : v.getLsbD 0 = true) (idle : s.host.attesting = false) :
    exec (.acmdWrite v) s = .next (s.modHost fun h => { h with attesting := true, nonce := h.anonce }) := by
  change execAcmdWrite v s = _
  rw [execAcmdWrite, HostPart.reached_of_phase p, one, idle]
  rfl

theorem exec_attestationReportDone (attesting : s.host.attesting = true) : exec .attestationReportDone s =
    .next ((s.freeValue.2).modHost fun h => { h.manage with
      attesting := false, astat := true, report := some (h.wholeReport s.freeValue.1) }) := by
  change execAttestationReportDone s = _
  rw [execAttestationReportDone, HostPart.reached_of_phase p, attesting]
  rfl

end Reached

/-! ### Locking, features and the way to phase 4 (R430, R432, R433) -/

theorem exec_hwlockWrite {v : Dword} (p : s.host.phase = 2) (one : v.getLsbD 0 = true) :
    exec (.hwlockWrite v) s = .next (s.modHost fun h => { h with hwlock := true, phase := 3 }) := by
  change execHwlockWrite v s = _
  rw [execHwlockWrite, one, p]
  rfl

theorem exec_facceptWrite (v : Dword) (p : s.host.phase = 3) (small : w < 4) : exec (.facceptWrite w v) s =
    .next (s.modHost fun h => { h with facc := SMap.setWord h.facc w (v &&& featureOffer w) }) := by
  change execFacceptWrite w v s = _
  rw [execFacceptWrite, if_pos (by simp [p, small])]

theorem exec_fcommitWrite {v : Dword} (p : s.host.phase = 3) (one : v.getLsbD 0 = true) :
    exec (.fcommitWrite v) s = .next (s.modHost fun h => { h with msix := 0 :: h.msix, phase := 4 }) := by
  change execFcommitWrite v s = _
  rw [execFcommitWrite, one, p]
  rfl

end Registers

/-! ### Host accesses to memory (R230, R422, R423) -/

section Accesses
variable {s : State} {addr size off ctx c a : Nat} {bytes : List Byte}

theorem exec_hostBar2_of_outside (v : Dword) (outside : s.dispatchWindow addr size = none) :
    exec (.hostBar2Write addr size v) s = .next s ∧
      exec (.hostBar2Read addr size) s = .next (s.answerHost (List.replicate size 0xFF)) := by
  change execHostBar2Write addr size v s = _ ∧ execHostBar2Read addr size s = _
  simp only [execHostBar2Write, execHostBar2Read, outside, and_self]

section Window
variable (window : s.dispatchWindow addr size = some (ctx, c, a)) (route : s.routeUp 0 (dieOf c) = true)
  (ready : s.pages c ctx [a] none = .ready)
include window route ready

theorem exec_hostBar2Write (v : Dword) : exec (.hostBar2Write addr size v) s = .next (s.storeLocal ⟨ctx, 0⟩ c a size v.toNat) := by
  change execHostBar2Write addr size v s = _
  simp only [execHostBar2Write, window, route, ready, Bool.not_true, Bool.false_eq_true, if_false]

theorem exec_hostBar2Read : exec (.hostBar2Read addr size) s = .next ((s.loadLocal ⟨ctx, 0⟩ c a size).2.answerHost
    (bytesOfNat (s.loadLocal ⟨ctx, 0⟩ c a size).1 size)) := by
  change execHostBar2Read addr size s = _
  simp only [execHostBar2Read, window, route, ready, Bool.not_true, Bool.false_eq_true, if_false]

end Window

theorem exec_hostBar4Write (isOpen : s.apertureOpen off bytes.length = true)
    (answers : (linesOf (s.host.hapBase.toNat + off) bytes.length).all (s.lineAnswers 0) = true) : exec (.hostBar4Write off bytes) s =
      .next (s.checkedWrite (s.host.hapBase.toNat + off) (bytes.take (hbmTop - (s.host.hapBase.toNat + off)))) := by
  change execHostBar4Write off bytes s = _
  simp only [execHostBar4Write, isOpen, answers, Bool.not_true, Bool.or_self, Bool.false_eq_true, if_false]

theorem exec_hostBar4Read_of_closed (closed : s.apertureOpen off size = false) :
    exec (.hostBar4Read off size) s = .next (s.answerHost (List.replicate size 0xFF)) := by
  change execHostBar4Read off size s = _
  simp only [execHostBar4Read, closed, Bool.not_false, if_true]

theorem exec_hostBar4Read (isOpen : s.apertureOpen off size = true)
    (answers : (linesOf (s.host.hapBase.toNat + off) (min size (hbmTop - (s.host.hapBase.toNat + off)))).all (s.lineAnswers 0) = true) :
    exec (.hostBar4Read off size) s = .next ((s.apertureBytes (s.host.hapBase.toNat + off) size).2.answerHost
      (s.apertureBytes (s.host.hapBase.toNat + off) size).1) := by
  change execHostBar4Read off size s = _
  simp only [execHostBar4Read, isOpen, answers, Bool.not_true, Bool.false_eq_true, if_false]

end Accesses

/-- Settles O47: each register write in the phases that reach it, then the accesses of BAR2 and BAR4. -/
theorem hostRegisters : Obligations.HostRegisters := by
  unfold Obligations.HostRegisters
  refine ⟨fun s v k w => ⟨fun small p unlocked => ⟨exec_hostRegWrite_hwinb v small p unlocked, exec_hostRegWrite_hwinl v small p unlocked⟩,
    fun small locked => ⟨_, exec_hostRegWrite_of_locked v small locked, rfl⟩, fun p => ⟨exec_hostRegWrite_hapbase p v,
      exec_hostRegWrite_anonce p v, exec_hevtWrite_of_reached v p, exec_heccWrite p v, exec_acmdWrite p,
      fun attesting => ⟨_, exec_attestationReportDone p attesting, rfl, rfl, rfl, rfl⟩⟩,
    exec_hwlockWrite, fun p => ⟨exec_facceptWrite v p, exec_fcommitWrite p⟩⟩, fun s addr size off ctx c a v bytes => ?_⟩
  exact ⟨exec_hostBar2_of_outside v, fun window route ready => ⟨exec_hostBar2Write window route ready v,
    exec_hostBar2Read window route ready⟩, exec_hostBar4Write, exec_hostBar4Read_of_closed, exec_hostBar4Read⟩

end Sys2Proof.Machine
end

section
/-! PROOF. Bring-up, refresh, alerts, clamps and the clock (O49), and a thermal stop (O60). -/

namespace Sys2Proof.Machine

section Package
variable {s : State} {k power celsius n l : Nat}

/-! ### Reset and bring-up (R415, R430) -/

/-- A table over 0 to n - 1 gives each of its keys the table's value. -/
theorem SMap.find_map_range {β : Type} (f : Nat → β) (small : l < n) : SMap.find ((List.range n).map fun e => (e, f e)) l = some (f l) := by
  rw [SMap.find_map_of_sorted List.pairwise_lt_range, if_pos (List.mem_range.mpr small)]

/-- The released package, in bring-up, its links in training. -/
def State.inBringUp (s : State) : State := (s.inReset { HostPart.reset with phase := 1 }).modLink fun l => { l with
  edges := (List.range 72).map fun e => (e, LinkState.training)
  ports := (List.range 64).map fun p => (p, { Port.reset with state := .training }) }

theorem exec_packageReset : exec .packageReset s = .next s.inBringUp := rfl

theorem State.edge_inBringUp (small : l < 72) : s.inBringUp.edge l = .training := by
  unfold State.edge State.inBringUp
  simp only [State.modLink, SMap.find_map_range (fun _ => LinkState.training) small, Option.getD_some]

theorem State.port_inBringUp (small : l < 64) : (s.inBringUp.port l).state = .training := by
  unfold State.port State.inBringUp
  simp only [State.modLink, SMap.find_map_range (fun _ => { Port.reset with state := .training }) small, Option.getD_some]

theorem exec_bringUpDone_of_passed (bringUp : s.host.phase = 1) :
    exec (.bringUpDone 0) s = .next (s.modHost fun h => { h with phase := 2 }) := by
  change execBringUpDone 0 s = _
  rw [execBringUpDone, bringUp]
  rfl

theorem exec_bringUpDone_of_failed {fail : BitVec 4} (bringUp : s.host.phase = 1) (failed : fail ≠ 0) (known : fail.toNat ≤ 2) :
    exec (.bringUpDone fail) s = .next (s.modHost fun h => { h with msix := 0 :: h.msix, phase := 5, fail := fail.toNat }) := by
  change execBringUpDone fail s = _
  have accepted : ¬ (decide (s.host.phase ≠ 1) || decide (2 < fail.toNat)) = true := by simp [bringUp, Nat.not_lt.mpr known]
  rw [execBringUpDone, if_neg accepted, if_neg failed]
  rfl

/-! ### Refresh (R427, R428, R437) -/

theorem exec_heartbeatTimeout (resting : s.host.tko.getLsbD k = false) : exec (.heartbeatTimeout k) s =
    .next (s.modHost fun h => { h with msix := 0 :: h.msix, tko := putBit h.tko k true, owed := putBit h.owed k true }) := by
  change execHeartbeatTimeout k s = _
  rw [execHeartbeatTimeout, resting]
  rfl

theorem exec_stackRefresh (taken : s.host.tko.getLsbD k = true) :
    exec (.stackRefresh k) s = .next (s.modHost fun h => { h with owed := putBit h.owed k false }) := by
  change execStackRefresh k s = _
  rw [execStackRefresh, if_pos taken]

theorem exec_heartbeatResumed (taken : s.host.tko.getLsbD k = true) (caughtUp : s.host.owed.getLsbD k = false) :
    exec (.heartbeatResumed k) s = .next (s.modHost fun h => { h with msix := 0 :: h.msix, tko := putBit h.tko k false }) := by
  change execHeartbeatResumed k s = _
  rw [execHeartbeatResumed, taken, caughtUp]
  rfl

/-! ### Clamps and the clock (R434, R435) -/

section Clocked
variable (running : 1 ≤ s.host.phase) (last : s.host.phase ≤ 4)
include running last

theorem HostPart.clocked_of_phase : s.host.clocked = true := by
  rw [HostPart.clocked, decide_eq_true running, decide_eq_true last]
  rfl

/-- R434: a sense sets both clamps to whether their limits are exceeded, and steps the clock down once where one is. -/
theorem exec_powerSense : ∃ t, exec (.powerSense power celsius) s = .next t ∧ t.host.pclamp = decide (3600000 < power) ∧
    t.host.tclamp = decide (105 < celsius) ∧
    t.host.clk = if 3600000 < power ∨ 105 < celsius then max 700 (s.host.clk - 50) else s.host.clk := by
  change ∃ t, execPowerSense power celsius s = .next t ∧ _
  refine ⟨_, rfl, ?_⟩
  rw [if_neg (by rw [HostPart.clocked_of_phase running last]; decide)]
  simp only [State.modHost, Bool.or_eq_true, decide_eq_true_iff]
  split <;> split <;> exact ⟨rfl, rfl, rfl⟩

theorem exec_clockStepUp (low : power < 3420000) (cool : celsius < 100) :
    exec (.clockStepUp power celsius) s = .next (s.modHost fun h => { h with clk := min 1400 (h.clk + 50) }) := by
  change execClockStepUp power celsius s = _
  rw [execClockStepUp, HostPart.clocked_of_phase running last, decide_eq_true low, decide_eq_true cool]
  rfl

theorem exec_thermalStop : exec .thermalStop s = .next (s.inReset { HostPart.reset.manage with phase := 5, fail := 3 }) := by
  change execThermalStop s = _
  rw [execThermalStop, if_pos (HostPart.clocked_of_phase running last)]

end Clocked
end Package

/-- Settles O49: each event of the package's circuits, in the phases and states that let it act. -/
theorem packageEvents : Obligations.PackageEvents := by
  unfold Obligations.PackageEvents
  intro s k power celsius fail
  exact ⟨⟨s.inBringUp, exec_packageReset, rfl, rfl, rfl, fun _ => State.edge_inBringUp, fun _ => State.port_inBringUp⟩,
    fun bringUp => ⟨exec_bringUpDone_of_passed bringUp, exec_bringUpDone_of_failed bringUp⟩, exec_heartbeatTimeout,
    fun taken => ⟨exec_stackRefresh taken, exec_heartbeatResumed taken⟩, rfl, rfl,
    fun running last => ⟨exec_powerSense running last, exec_clockStepUp running last⟩⟩

/-- Settles O60: a stopped package is one in reset but for its host part. -/
theorem thermalStop : Obligations.ThermalStop := by
  unfold Obligations.ThermalStop
  intro s running last
  exact ⟨_, exec_thermalStop running last, rfl, rfl, rfl, rfl, rfl, rfl, rfl, rfl, rfl, rfl, rfl⟩

end Sys2Proof.Machine
end
section
/-! PROOF. Each field of a word reads back what the encoder added there, so that a word decodes to the instruction it encodes (O52). -/

namespace Sys2Proof

/-- Every encoding is a word of 32 bits (R23). -/
theorem encode_lt {x : Instr} {w : Nat} (h : encode x = some w) : w < 2 ^ 32 := by
  cases x <;> cases h
  all_goals omega

/-- The n bits of a word from the bit of weight p on. -/
def slot (w p n : Nat) : Nat := w / p % 2 ^ n

section Slots
variable {w p n k : Nat}

theorem field_eq_slot (w lo n : Nat) : field w lo n = slot w (2 ^ lo) n := rfl

theorem bits_eq_slot (w lo n : Nat) : bits w lo n = BitVec.ofNat n (slot w (2 ^ lo) n) :=
  BitVec.eq_of_toNat_eq (by simp [bits, slot])

theorem slot_ofNat (m p n : Nat) : slot (no_index (OfNat.ofNat m)) p n = OfNat.ofNat m / p % 2 ^ n := by rw [slot]

/-- What is added where a word is clear reads back. -/
theorem slot_add_self (x : BitVec n) (clear : slot w p n = 0) (weight : 0 < p) : slot (w + x.toNat * p) p n = x.toNat := by
  unfold slot at clear
  rw [slot, Nat.add_mul_div_right _ _ weight, Nat.add_mod, clear, Nat.zero_add, Nat.mod_mod, Nat.mod_eq_of_lt x.isLt]

/-- What is added above leaves the bits below. -/
theorem slot_add_above {q : Nat} (x : BitVec k) (above : q % (p * 2 ^ n) = 0) : slot (w + x.toNat * q) p n = slot w p n := by
  obtain ⟨m, rfl⟩ := Nat.dvd_of_mod_eq_zero above
  rw [slot, slot, ← Nat.mod_mul_right_div_self, ← Nat.mod_mul_right_div_self, Nat.mul_left_comm, Nat.add_mul_mod_self_left]

/-- What is added below, where the word is clear, leaves the bits above. -/
theorem slot_add_below {q : Nat} (x : BitVec k) (clear : slot w q k = 0) (weight : 0 < q) (below : p % (q * 2 ^ k) = 0) :
    slot (w + x.toNat * q) p n = slot w p n := by
  obtain ⟨m, rfl⟩ := Nat.dvd_of_mod_eq_zero below
  have carry : (w / q + x.toNat) / 2 ^ k = w / q / 2 ^ k := by
    unfold slot at clear
    rw [← Nat.div_add_mod (w / q) (2 ^ k), clear, Nat.add_zero, Nat.mul_add_div (Nat.two_pow_pos k), Nat.div_eq_of_lt x.isLt,
      Nat.mul_div_cancel_left _ (Nat.two_pow_pos k), Nat.add_zero]
  simp only [slot, ← Nat.div_div_eq_div_mul, Nat.add_mul_div_right _ _ weight, carry]

theorem slot_add_self_low (x : BitVec n) (clear : slot w 1 n = 0) : slot (w + x.toNat) 1 n = x.toNat := by
  simpa only [Nat.mul_one] using slot_add_self x clear Nat.one_pos

theorem slot_add_below_low (x : BitVec k) (clear : slot w 1 k = 0) (below : p % 2 ^ k = 0) : slot (w + x.toNat) p n = slot w p n := by
  simpa only [Nat.mul_one] using slot_add_below (p := p) (n := n) x clear Nat.one_pos (by simpa only [Nat.one_mul] using below)

theorem whenClear_zero (x : Instr) : whenClear 0 x = .ok x := rfl

theorem ofNat_toNat_self {m : Nat} (x : BitVec m) : BitVec.ofNat m x.toNat = x := by simp

end Slots

/-- The word 0 encodes no instruction: it would be ADD of four zeros, which is not well formed (R25). -/
theorem encode_ne_zero {x : Instr} {w : Nat} (wf : x.wellFormed = true) (h : encode x = some w) : w ≠ 0 := by
  cases x <;> cases h
  case add d a b g =>
    simp only [Instr.wellFormed, Bool.not_eq_true', Bool.and_eq_false_iff, beq_eq_false_iff_ne, ne_eq] at wf
    bv_omega
  all_goals omega

/-- The decoder of each major opcode (R42). -/
noncomputable def decodeMajor (k w : Nat) : Nat → Except DecodeError Instr
  | 0x00 => decodeMajor00 w
  | 0x01 => decodeMajor01 w
  | 0x02 => decodeMajor02 w
  | 0x03 => decodeMajor03 w
  | 0x04 => decodeMajor04 w
  | 0x05 => decodeMajor05 w
  | 0x06 => decodeMajor06 w
  | 0x07 => decodeMajor07 w
  | 0x08 => decodeMajor08 w
  | 0x09 => decodeMajor09 w
  | 0x0A => decodeMajor0A w
  | 0x0B => decodeMajor0B w
  | 0x0C => decodeMajor0C w
  | 0x0D => decodeMajor0D w
  | 0x0E => decodeMajor0E w
  | 0x0F => decodeMajor0F w
  | 0x10 => decodeMajor10 w
  | 0x11 => decodeMajor11 w
  | 0x12 => decodeMajor12 w
  | 0x13 => decodeMajor13 w
  | 0x14 => decodeMajor14 w
  | 0x15 => decodeMajor15 w
  | 0x16 => decodeMajor16 w
  | 0x17 => decodeMajor17 w
  | 0x18 => decodeMajor18 w
  | 0x19 => decodeMajor19 w
  | 0x1A => decodeMajor1A w
  | 0x1B => decodeMajor1B w
  | 0x1C => decodeMajor1C w
  | 0x1D => decodeMajor1D w
  | 0x1E => decodeMajor1E w
  | 0x1F => decodeMajor1F w
  | 0x20 => decodeMajor20 w
  | 0x21 => decodeMajor21 w
  | 0x22 => decodeMajor22 w
  | 0x23 => decodeMajor23 w
  | 0x24 => decodeMajor24 w
  | 0x25 => decodeMajor25 w
  | 0x26 => decodeMajor26 w
  | 0x27 => decodeMajor27 w
  | 0x28 => decodeMajor28 w
  | 0x29 => decodeMajor29 w
  | 0x2A => decodeMajor2A w
  | 0x2B => decodeMajor2B w
  | 0x2C => decodeMajor2C k w
  | 0x3F => decodeHint w
  | _ => .error .reservedMajor

theorem decodeWord_eq_decodeMajor {w : Nat} (nz : w ≠ 0) (k : Nat) : decodeWord k w = decodeMajor k w (field w 26 6) := by
  rw [decodeWord, if_neg nz]
  rfl

theorem decodeMajor_at (k w : Nat) :
    decodeMajor k w 0 = decodeMajor00 w ∧ decodeMajor k w 1 = decodeMajor01 w ∧ decodeMajor k w 2 = decodeMajor02 w ∧
    decodeMajor k w 3 = decodeMajor03 w ∧ decodeMajor k w 4 = decodeMajor04 w ∧ decodeMajor k w 5 = decodeMajor05 w ∧
    decodeMajor k w 6 = decodeMajor06 w ∧ decodeMajor k w 7 = decodeMajor07 w ∧ decodeMajor k w 8 = decodeMajor08 w ∧
    decodeMajor k w 9 = decodeMajor09 w ∧ decodeMajor k w 10 = decodeMajor0A w ∧ decodeMajor k w 11 = decodeMajor0B w ∧
    decodeMajor k w 12 = decodeMajor0C w ∧ decodeMajor k w 13 = decodeMajor0D w ∧ decodeMajor k w 14 = decodeMajor0E w ∧
    decodeMajor k w 15 = decodeMajor0F w ∧ decodeMajor k w 16 = decodeMajor10 w ∧ decodeMajor k w 17 = decodeMajor11 w ∧
    decodeMajor k w 18 = decodeMajor12 w ∧ decodeMajor k w 19 = decodeMajor13 w ∧ decodeMajor k w 20 = decodeMajor14 w ∧
    decodeMajor k w 21 = decodeMajor15 w ∧ decodeMajor k w 22 = decodeMajor16 w ∧ decodeMajor k w 23 = decodeMajor17 w ∧
    decodeMajor k w 24 = decodeMajor18 w ∧ decodeMajor k w 25 = decodeMajor19 w ∧ decodeMajor k w 26 = decodeMajor1A w ∧
    decodeMajor k w 27 = decodeMajor1B w ∧ decodeMajor k w 28 = decodeMajor1C w ∧ decodeMajor k w 29 = decodeMajor1D w ∧
    decodeMajor k w 30 = decodeMajor1E w ∧ decodeMajor k w 31 = decodeMajor1F w ∧ decodeMajor k w 32 = decodeMajor20 w ∧
    decodeMajor k w 33 = decodeMajor21 w ∧ decodeMajor k w 34 = decodeMajor22 w ∧ decodeMajor k w 35 = decodeMajor23 w ∧
    decodeMajor k w 36 = decodeMajor24 w ∧ decodeMajor k w 37 = decodeMajor25 w ∧ decodeMajor k w 38 = decodeMajor26 w ∧
    decodeMajor k w 39 = decodeMajor27 w ∧ decodeMajor k w 40 = decodeMajor28 w ∧ decodeMajor k w 41 = decodeMajor29 w ∧
    decodeMajor k w 42 = decodeMajor2A w ∧ decodeMajor k w 43 = decodeMajor2B w ∧ decodeMajor k w 44 = decodeMajor2C k w ∧
    decodeMajor k w 63 = decodeHint w := by
  refine ⟨rfl, rfl, rfl, rfl, rfl, rfl, rfl, rfl, rfl, rfl, rfl, rfl, rfl, rfl, rfl, rfl, rfl, rfl, rfl, rfl, rfl, rfl, rfl,
    rfl, rfl, rfl, rfl, rfl, rfl, rfl, rfl, rfl, rfl, rfl, rfl, rfl, rfl, rfl, rfl, rfl, rfl, rfl, rfl, rfl, rfl, rfl⟩

section WordDecodes
variable {x : Instr} {w k : Nat} (wf : x.wellFormed = true) (h : encode x = some w)
include wf h

/-- The hints and the instructions up to the scans, majors 0x00 to 0x18, decode. -/
theorem decodeWord_encode_of_before_lbind (before : decide (x.ctorIdx < (Instr.lbind 0 0 0).ctorIdx) = true) : decodeWord k w = .ok x := by
  rw [decodeWord_eq_decodeMajor (encode_ne_zero wf h)]
  cases x <;> cases h <;> cases before
  all_goals
    simp only [
      field_eq_slot, bits_eq_slot, slot_add_self, slot_add_above, slot_add_below, slot_add_self_low, slot_add_below_low, slot_ofNat,
      Nat.reducePow, Nat.reduceDiv, Nat.reduceMod, Nat.reduceMul, Nat.reduceLT, whenClear_zero, ofNat_toNat_self,
      decodeMajor_at, decodeMajor00, decodeMajor01, decodeMajor02, decodeMajor03, decodeMajor04, decodeMajor05, decodeMajor06,
      decodeMajor07, decodeMajor08, decodeMajor09, decodeMajor0A, decodeMajor0B, decodeMajor0C, decodeMajor0D, decodeMajor0E,
      decodeMajor0F, decodeMajor10, decodeMajor11, decodeMajor12, decodeMajor13, decodeMajor14, decodeMajor15, decodeMajor16,
      decodeMajor17, decodeMajor18, decodeHint]

/-- The instructions from the lanyards' on, majors 0x19 to 0x2C, decode: those of CSAVE in a unit whose K names them (R408). -/
theorem decodeWord_encode_of_from_lbind (onward : decide (x.ctorIdx < (Instr.lbind 0 0 0).ctorIdx) = false)
    (named : w / 2 ^ 26 = 0x2C → w / 2 ^ 10 % 16 = 10 → k % 8 = selectorK x) : decodeWord k w = .ok x := by
  rw [decodeWord_eq_decodeMajor (encode_ne_zero wf h)]
  cases x <;> cases h <;> cases onward
  case csaveCreate | csavePlace | csaveSave | csaveDestroy | csaveStatus =>
    have chosen := named (by omega) (by omega)
    simp only [
      field_eq_slot, bits_eq_slot, slot_add_self, slot_add_above, slot_add_below, slot_add_self_low, slot_add_below_low, slot_ofNat,
      Nat.reducePow, Nat.reduceDiv, Nat.reduceMod, Nat.reduceMul, Nat.reduceLT, whenClear_zero, ofNat_toNat_self,
      decodeMajor_at, decodeMajor2C, chosen, selectorK]
  all_goals
    simp only [
      field_eq_slot, bits_eq_slot, slot_add_self, slot_add_above, slot_add_below, slot_add_self_low, slot_add_below_low, slot_ofNat,
      Nat.reducePow, Nat.reduceDiv, Nat.reduceMod, Nat.reduceMul, Nat.reduceAdd, Nat.reduceLT, whenClear_zero, ofNat_toNat_self,
      decodeMajor_at, decodeMajor19, decodeMajor1A, decodeMajor1B, decodeMajor1C, decodeMajor1D, decodeMajor1E,
      decodeMajor1F, decodeMajor20, decodeMajor21, decodeMajor22, decodeMajor23, decodeMajor24, decodeMajor25, decodeMajor26,
      decodeMajor27, decodeMajor28, decodeMajor29, decodeMajor2A, decodeMajor2B, decodeMajor2C]

theorem decodeWord_encode (named : w / 2 ^ 26 = 0x2C → w / 2 ^ 10 % 16 = 10 → k % 8 = selectorK x) : decodeWord k w = .ok x := by
  cases side : decide (x.ctorIdx < (Instr.lbind 0 0 0).ctorIdx)
  · exact decodeWord_encode_of_from_lbind wf h side named
  · exact decodeWord_encode_of_before_lbind wf h side

end WordDecodes

/-- Settles O52: by the fields of each encoding, read back one by one. -/
theorem decodeEncode : Obligations.DecodeEncode := by
  unfold Obligations.DecodeEncode
  intro x w k wf h
  refine ⟨encode_lt h, fun named => decodeWord_encode wf h fun _ _ => named, fun other => decodeWord_encode wf h fun major selector => ?_⟩
  rcases other with other | other
  · exact absurd major other
  · exact absurd selector other

end Sys2Proof
end

section
/-! PROOF. Words that the spec writes out (O51). -/

namespace Sys2Proof

/-- Settles O51: the kernel decodes each word. -/
theorem writtenWords : Obligations.WrittenWords := by
  unfold Obligations.WrittenWords
  exact ⟨rfl, rfl, rfl, rfl, rfl, rfl, rfl, rfl, rfl, rfl, rfl, rfl, rfl, rfl, rfl, rfl, rfl, rfl, rfl, rfl⟩

end Sys2Proof
end

section
/-! PROOF. Instruction words share their issue operation, with the guard in their five low bits (O54). -/

namespace Sys2Proof.Machine

/-- Every instruction word but SEL runs as a unit that takes a guard, which stands in its five low bits (R23, R28). -/
theorem exec_of_encode {x : Instr} {w : Nat} (h : encode x = some w) (word : w / 2 ^ 26 ≠ 0x3F) (notSel : ∀ d a b q, x ≠ .sel d a b q) :
    ∃ t g body, t.guard = true ∧ slot w 1 5 = g.toNat ∧ ∀ s, exec x s = runUnit t g body s := by
  cases x <;> cases h
  case sel => exact absurd rfl (notSel _ _ _ _)
  case ximmHint | guardHint | schedHint | modHint => omega
  all_goals
    refine ⟨_, _, _, rfl, ?_, fun s => rfl⟩
    simp only [slot_add_self_low, slot_add_above, slot_ofNat, Nat.reducePow, Nat.reduceDiv, Nat.reduceMod, Nat.reduceMul]

/-- Words that take a guard reach it alike, and are active in the same lanes. -/
theorem Reaches.of_guard {t t' : Attr} {g : GuardField} {s : State} {j : Issue} (h : Reaches t g s j) (same : t.guard = t'.guard) :
    Reaches t' g s j ∧ s.activeLanes t' g j = s.activeLanes t g j := by
  obtain ⟨stream, noTrap, notFenced, inWindow, guardOk, inRange⟩ := h
  exact ⟨⟨stream, noTrap, notFenced, inWindow, by rwa [Attr.guardOk, ← same], inRange⟩, by rw [State.activeLanes, ← same]; rfl⟩

theorem exec_guardedOff {x : Instr} {w : Nat} {s : State} {j : Issue} (h : encode x = some w) (word : w / 2 ^ 26 ≠ 0x3F)
    (notSel : ∀ d a b q, x ≠ .sel d a b q) (reaches : Reaches {} (BitVec.ofNat 5 w) s j)
    (off : s.activeLanes {} (BitVec.ofNat 5 w) j = 0) : exec x s = .next ((s.awake.countMasked j).finish j) := by
  obtain ⟨t, g, body, guarded, low, asUnit⟩ := exec_of_encode h word notSel
  have field : BitVec.ofNat 5 w = g := BitVec.eq_of_toNat_eq (by rw [BitVec.toNat_ofNat, ← low, slot, Nat.div_one])
  obtain ⟨reaches, same⟩ := reaches.of_guard (t' := t) guarded.symm
  rw [field] at reaches same off
  rw [asUnit, runUnit_inactive reaches (same.trans off)]

/-- A word whose guard holds traps ILLEGAL in code that may not issue it (R42). -/
theorem runUnit_misplaced {t : Attr} {g : GuardField} {s : State} {j : Issue} (reaches : Reaches t g s j)
    (on : s.activeLanes t g j ≠ 0) (place : t.legalIn j.kind = false) (body : Issue → State → Eff) :
    runUnit t g body s = .next (s.awake.takeTrap { j with active := s.activeLanes t g j } ⟨Cause.illegal, 0, 0, 0⟩) := by
  rw [runUnit_reaches reaches, if_neg on, Attr.checked, if_pos (by simpa using place)]
  exact congrArg Host.Outcome.next (enterTrap_self ..)

/-- Settles O54: every word shares the issue operation. -/
theorem guardedOff : Obligations.GuardedOff := by
  unfold Obligations.GuardedOff
  refine ⟨fun x w s j => exec_guardedOff, fun x r s j spec reaches on place => ?_⟩
  obtain ⟨body, asUnit, -⟩ := exec_of_pureResult spec
  rw [asUnit, runUnit_misplaced reaches on place]

end Sys2Proof.Machine
end

section
/-! PROOF. A register write reads back and changes no other register (O56). -/

namespace Sys2Proof.Machine

section Zero
variable (s : State) (i : Issue)

theorem State.writeReg_gz (c : Cls) (lane : Nat) (v : Dword) : s.writeReg i c 60 lane v = s := if_pos (by decide)
theorem State.laneReg_gz (r : Resident) (lane : Nat) : s.laneReg i r lane 60 = 0 := rfl
theorem State.scalarReg_sz : s.scalarReg i 60 = 0 := rfl

end Zero

section Stored
variable {s : State} {i : Issue}

theorem State.laneReg_of_stored {n : Nat} (h : n < 56) (r : Resident) (lane : Nat) : s.laneReg i r lane n = s.lane i.core r lane n := if_pos h
theorem State.scalarReg_of_stored {n : Nat} (h : n < 56) : s.scalarReg i n = SMap.word (s.scalar i).regs n := if_pos h

variable {c : Cls} {f : RegField} {lane : Nat} {v : Dword}

/-- What a lane's register reads after a write to a lane (R30, R32). -/
theorem State.laneReg_writeReg {r : Resident} (group : i.kind = .group) (unit : s.unit i.core i.unit = some r) (fits : r.fits)
    (wf : SMap.wf (s.core i.core).lrf = true) (stored : f.toNat < 56) (pair : c = .pair → f.toNat < 55) {l n : Nat} (register : n < 56) :
    (s.writeReg i c f lane v).laneReg i r l n =
      if l = lane ∧ n = f.toNat then v.setWidth 32
      else if c = .pair ∧ l = lane ∧ n = f.toNat + 1 then (v >>> 32).setWidth 32
      else s.laneReg i r l n := by
  rw [State.laneReg_of_stored register, State.laneReg_of_stored register]
  exact State.lane_writeReg group unit fits ⟨rfl, rfl⟩ wf stored pair register

/-- A scalar part that is there changes as told. -/
theorem State.scalar_modScalar_present (present : (i.kind = .run ∧ (s.run i.core i.unit).isSome = true) ∨
    (i.kind = .lead ∧ ((s.unit i.core i.unit).bind (·.lead)).isSome = true)) (f : Scalar → Scalar) :
    (s.modScalar i f).scalar i = f (s.scalar i) := by
  unfold State.modScalar State.scalar
  rcases present with ⟨code, present⟩ | ⟨code, present⟩
  · obtain ⟨r, run⟩ := Option.isSome_iff_exists.mp present
    simp only [code, State.run_modRun, run, Option.map_some, Option.getD_some, if_true]
  · obtain ⟨l, present⟩ := Option.isSome_iff_exists.mp present
    obtain ⟨r, unit, lead⟩ := Option.bind_eq_some_iff.mp present
    simp only [code, State.modLead, State.unit_modUnit, unit, lead, if_true, Option.map_some, Option.bind_some, Option.getD_some]

/-- What a scalar register reads after a write (R30, R32). -/
theorem State.scalarReg_writeReg (present : (i.kind = .run ∧ (s.run i.core i.unit).isSome = true) ∨
    (i.kind = .lead ∧ ((s.unit i.core i.unit).bind (·.lead)).isSome = true)) (wf : SMap.wf (s.scalar i).regs = true)
    (stored : f.toNat < 56) {n : Nat} (register : n < 56) :
    (s.writeReg i c f lane v).scalarReg i n =
      if n = f.toNat then (if c = .word then v &&& 0xFFFFFFFF else v) else s.scalarReg i n := by
  have scalar : ¬ (i.kind == .group) = true := by
    rcases present with ⟨code, -⟩ | ⟨code, -⟩ <;> rw [code] <;> decide
  rw [State.scalarReg_of_stored register, State.scalarReg_of_stored register, State.writeReg, if_neg (Nat.not_le.mpr stored), if_neg scalar,
    State.scalar_modScalar_present present, SMap.word_setWord wf]
  simp only [beq_iff_eq]

end Stored

/-- Settles O56: by what each register reads after the write. -/
theorem registerWrites : Obligations.RegisterWrites := by
  unfold Obligations.RegisterWrites
  intro s i c f lane v r
  refine ⟨?gz, ?narrow, ?wide, ?scalar⟩
  case gz =>
    rintro rfl
    exact ⟨s.writeReg_gz i c lane v, s.laneReg_gz i r lane, s.scalarReg_sz i⟩
  case narrow =>
    intro stored group unit fits wf single
    have reads {l n : Nat} := State.laneReg_writeReg (lane := lane) (v := v) (l := l) (n := n) group unit fits wf stored (absurd · single)
    exact ⟨by rw [reads stored, if_pos ⟨rfl, rfl⟩],
      fun l n register other => by rw [reads register, if_neg other, if_neg fun pair => single pair.1]⟩
  case wide =>
    intro stored group unit fits wf
    have reads {l n : Nat} := State.laneReg_writeReg (c := .pair) (lane := lane) (v := v) (l := l) (n := n) group unit fits wf
      (stored.trans (by decide)) fun _ => stored
    refine ⟨?low, ?high, fun l n register other => ?others⟩
    case low => rw [reads (by omega), if_pos ⟨rfl, rfl⟩]
    case high => rw [reads (by omega), if_neg (by omega), if_pos ⟨rfl, rfl, rfl⟩]
    case others =>
      rw [reads register, if_neg fun same => other ⟨same.1, .inl same.2⟩, if_neg fun same => other ⟨same.2.1, .inr same.2.2⟩]
  case scalar =>
    intro stored present wf
    have reads {n : Nat} := State.scalarReg_writeReg (c := c) (lane := lane) (v := v) (n := n) present wf stored
    exact ⟨by rw [reads stored, if_pos rfl], fun n other register => by rw [reads register, if_neg other]⟩

end Sys2Proof.Machine
end

section
/-! PROOF. SEL by the predicate that GD names, and after a GUARD hint (O58). -/

namespace Sys2Proof.Machine

theorem major_sel (d a b : RegField) (q : GuardField) : ∃ w, encode (.sel d a b q) = some w ∧ w / 2 ^ 26 = 0x0A :=
  ⟨_, rfl, by omega⟩

section Guards
variable {t : Attr} {g : GuardField} {s : State} {i : Issue}

/-- A malformed unit traps ILLEGAL before its guard is evaluated (R27, R37). -/
theorem runUnit_malformed (body : Issue → State → Eff) (stream : s.cur.bind s.issue = some i) (noTrap : s.awake.dueTrap i = none)
    (notFenced : s.awake.fenced i = false) (inWindow : s.awake.maskExceeded i = false) (bad : t.guardOk g i.front.hints = false) :
    runUnit t g body s = .next (s.awake.takeTrap i ⟨Cause.illegal, 0, 0, 0⟩) := by
  unfold State.awake at noTrap notFenced inWindow
  simp only [runUnit, stream, noTrap, ite_self, notFenced, inWindow, bad, Bool.not_false, Bool.true_or, Bool.false_eq_true, ↓reduceIte]
  rfl

/-- A word that takes no guard issues in all lanes of its stream. -/
theorem Issues.active_of_unguarded (h : Issues t g s i) (unguarded : t.guard = false) : i.active = i.lanes := by
  obtain ⟨⟨j, -, rfl⟩, -⟩ := h
  simp [State.activeLanes, unguarded]

/-- p0 holds in every lane of a stream that issues (R26). -/
theorem Issues.pred_zero (h : Issues t g s i) (l : Nat) : s.awake.pred i l 0 = true := by
  unfold State.pred
  cases code : i.kind with
  | group =>
    obtain ⟨r, resident⟩ := h.unit_resident (by simp [code])
    have awake : s.awake.unit i.core i.unit = some r := resident
    simp only [awake, Option.map_some, Option.getD_some, Resident.pred, beq_self_eq_true, Bool.true_or]
  | lead | run => rfl

end Guards

theorem exec_sel {d a b : RegField} {q : GuardField} {s u : State} {i : Issue} {vals : List (Nat → Dword)}
    (h : Issues { guard := false } q s i) (ok : i.registersOk (.nat, d) [(.nat, a), (.nat, b)])
    (reads : s.awake.operands i [(.nat, a), (.nat, b)] [d] = .ok vals u) (into : u.broadcasts i d) :
    exec (.sel d a b q) s = .next (i.finished {} (u.delivered i .nat d fun l =>
      if s.awake.pred i l (q.toNat % 16) = decide (q.toNat < 16) then nth vals 0 l else nth vals 1 l)) := by
  refine (exec_of_pureResult_readable (x := .sel d a b q) rfl h rfl ok reads into).trans ?_
  simp only [guardOf, Hints.none, beq_iff_eq]
  rfl

/-- Settles O58: SEL takes no guard, and p0 with the opposite sense never holds. -/
theorem selSelects : Obligations.SelSelects := by
  unfold Obligations.SelSelects
  intro d a b q s u i vals
  refine ⟨major_sel d a b q, fun h ok reads into => ⟨h.active_of_unguarded rfl, exec_sel h ok reads into, ?_⟩,
    fun stream noTrap notFenced inWindow hinted => ?_⟩
  · rintro rfl
    simpa [h.pred_zero] using exec_sel h ok reads into
  · refine runUnit_malformed _ stream noTrap notFenced inWindow ?_
    rw [Attr.guardOk, Option.isNone_eq_false_iff.mpr (Option.isSome_iff_ne_none.mpr hinted)]
    exact Bool.and_false _

end Sys2Proof.Machine
end

section
/-! PROOF. Shift amounts: SHI's by the kind of code, a register's modulo the operand width (O59). -/

namespace Sys2Proof.Machine

theorem Issue.w_of_group {i : Issue} (group : i.kind = .group) : i.w = 32 := by simp [Issue.w, group]
theorem Issue.w_of_scalar {i : Issue} (scalar : i.kind ≠ .group) : i.w = 64 := by simp [Issue.w, scalar]

/-- A funnel shift reads its amount modulo the operand width. -/
theorem fshrValue_amount (w : Nat) (p q c : Dword) : fshrValue w p q c = fshrValue w p q (BitVec.ofNat 64 (c.toNat % w)) := by
  have fits : c.toNat % w < 2 ^ 64 := (Nat.mod_le _ _).trans_lt c.isLt
  simp only [fshrValue, BitVec.toNat_ofNat, Nat.mod_eq_of_lt fits, Nat.mod_mod]

section Shi
variable {d a : RegField} {k : BitVec 2} {n : BitVec 6} {g : GuardField} {s u : State} {i : Issue} {x : List (Nat → Dword)}

theorem exec_shi_wide (h : Issues {} g s i) (group : i.kind = .group) (wide : 32 ≤ n.toNat) :
    exec (.shi d a k n g) s = .next (s.awake.takeTrap i ⟨Cause.illegal, 0, 0, 0⟩) :=
  runUnit_trapsAt h (if_pos (by rw [i.w_of_group group]; exact wide))

theorem exec_shi_scalar (h : Issues {} g s i) (scalar : i.kind ≠ .group) (ok : i.registersOk (.nat, d) [(.nat, a)])
    (reads : s.awake.operands i [(.nat, a)] [d] = .ok x u) (into : u.broadcasts i d) :
    exec (.shi d a k n g) s = .next (i.finished {} (u.delivered i .nat d fun l => shiValue k.toNat 64 (nth x 0 l) n.toNat)) := by
  have legal : decide (n.toNat < i.w) = true := by rw [i.w_of_scalar scalar]; exact decide_eq_true n.isLt
  refine (exec_of_pureResult_readable (x := .shi d a k n g) rfl h legal ok reads into).trans ?_
  simp only [i.w_of_scalar scalar]

end Shi

/-- A word with a result of two sources, from registers that can be read. -/
theorem exec_ofTwo {z : Instr} {f : Nat → Dword → Dword → Dword} {d a b : RegField} {g : GuardField} {s v : State} {i : Issue}
    {y : List (Nat → Dword)} (spec : pureResult z = ofTwo d a b g f) (h : Issues {} g s i)
    (ok : i.registersOk (.nat, d) [(.nat, a), (.nat, b)]) (reads : s.awake.operands i [(.nat, a), (.nat, b)] [d] = .ok y v)
    (into : v.broadcasts i d) :
    exec z s = .next (i.finished {} (v.delivered i .nat d fun l => f i.w (nth y 0 l) (nth y 1 l))) :=
  exec_of_pureResult_readable (r := ⟨{}, g, .nat, d, fun _ => [(.nat, a), (.nat, b)], fun _ => true,
    fun _ i v l => f i.w (nth v 0 l) (nth v 1 l)⟩) spec h rfl ok reads into

/-- Settles O59: by the results of the shifts. -/
theorem shiftAmounts : Obligations.ShiftAmounts := by
  unfold Obligations.ShiftAmounts
  intro d a b k n g s u v i x y h ok intoU intoV
  have first : i.registersOk (.nat, d) [(.nat, a)] := ⟨ok.1, List.all_eq_true.mpr fun r among => List.all_eq_true.mp ok.2 r (by simp_all)⟩
  exact ⟨exec_shi_wide h, fun scalar reads => exec_shi_scalar h scalar first reads intoU,
    fun reads => ⟨exec_ofTwo (f := fun w x y => shlValue w x (y.toNat % w)) rfl h ok reads intoV,
      exec_ofTwo (f := fun w x y => shrValue w x (y.toNat % w)) rfl h ok reads intoV,
      exec_ofTwo (f := fun w x y => sarValue w x (y.toNat % w)) rfl h ok reads intoV,
      exec_ofTwo (f := fun w x y => rotlValue w x (y.toNat % w)) rfl h ok reads intoV⟩, fshrValue_amount⟩

end Sys2Proof.Machine
end

section
/-! PROOF. Hint words latch or make their unit malformed; YIELD, END, NOP, LOOP and REPEAT move their stream on (O5). -/

namespace Sys2Proof.Machine

section Hints
variable {x : Instr} {s : State} {i : Issue} {twice : Hints → Bool} {latch : Hints → Hints} {skip : Nat}
  (word : exec x s = runHint twice latch skip s) (h : Latches s i)
include word h

theorem exec_hint_latches (first : twice i.front.hints = false) : exec x s = .next (s.latched i (latch i.front.hints) skip) := by
  obtain ⟨stream, notFenced, inBody⟩ := h
  unfold State.awake at notFenced inBody
  simp only [word, runHint, stream, notFenced, inBody, first, Bool.or_self, Bool.false_eq_true, ↓reduceIte]
  rfl

theorem exec_hint_malformed (second : twice i.front.hints = true) :
    exec x s = .next (s.latched i { i.front.hints with bad := true } 0) := by
  obtain ⟨stream, notFenced, inBody⟩ := h
  unfold State.awake at notFenced
  simp only [word, runHint, stream, notFenced, second, Bool.true_or, Bool.false_eq_true, ↓reduceIte]
  rfl

end Hints

/-- A word of each kind of hint, by what its unit has of that kind already. -/
theorem exec_hints {s : State} {i : Issue} (x : BitVec 23) (sense : BitVec 1) (p : BitVec 6) (y : BitVec 1) (c : BitVec 4)
    (l : BitVec 2) (e : BitVec 1) (r : BitVec 6) (f : BitVec 1) (sat : BitVec 2) (n : BitVec 1) (m : BitVec 3) (h : Latches s i) :
    (i.front.hints.ximm = none → exec (.ximmHint x) s = .next (s.latched i { i.front.hints with ximm := some x } 0)) ∧
    (i.front.hints.guard = none → exec (.guardHint sense p) s = .next (s.latched i { i.front.hints with guard := some (sense, p) } 0)) ∧
    (i.front.hints.sched = none → exec (.schedHint y c) s = .next (s.latched i { i.front.hints with sched := some (y, c) } c.toNat)) ∧
    (i.front.hints.mod = none → exec (.modHint l e r f sat n m) s =
      .next (s.latched i { i.front.hints with mod := some (l ++ e ++ r ++ f ++ sat ++ n ++ m) } 0)) ∧
    (let malformed := s.latched i { i.front.hints with bad := true } 0
     (i.front.hints.ximm ≠ none → exec (.ximmHint x) s = .next malformed) ∧
     (i.front.hints.guard ≠ none → exec (.guardHint sense p) s = .next malformed) ∧
     (i.front.hints.sched ≠ none → exec (.schedHint y c) s = .next malformed) ∧
     (i.front.hints.mod ≠ none → exec (.modHint l e r f sat n m) s = .next malformed)) := by
  have ximm : exec (.ximmHint x) s = runHint (fun u => u.ximm.isSome) (fun u => { u with ximm := some x }) 0 s := rfl
  have guard : exec (.guardHint sense p) s = runHint (fun u => u.guard.isSome) (fun u => { u with guard := some (sense, p) }) 0 s := rfl
  have sched : exec (.schedHint y c) s = runHint (fun u => u.sched.isSome) (fun u => { u with sched := some (y, c) }) c.toNat s := rfl
  have mod : exec (.modHint l e r f sat n m) s = runHint (fun u => u.mod.isSome)
      (fun u => { u with mod := some (l ++ e ++ r ++ f ++ sat ++ n ++ m) }) 0 s := rfl
  have fresh {α : Type} {o : Option α} (first : o = none) : o.isSome = false := by rw [first]; rfl
  have repeated {α : Type} {o : Option α} (second : o ≠ none) : o.isSome = true := Option.isSome_iff_ne_none.mpr second
  exact ⟨fun first => exec_hint_latches ximm h (fresh first), fun first => exec_hint_latches guard h (fresh first),
    fun first => exec_hint_latches sched h (fresh first), fun first => exec_hint_latches mod h (fresh first),
    fun second => exec_hint_malformed ximm h (repeated second), fun second => exec_hint_malformed guard h (repeated second),
    fun second => exec_hint_malformed sched h (repeated second), fun second => exec_hint_malformed mod h (repeated second)⟩

section Moves
variable {s : State} {i : Issue} {g : GuardField}

theorem exec_yield (h : Issues groupLead g s i) : exec (.yield g) s = .next ((s.awake.finish i).issued i 1) :=
  runUnit_moved h rfl

theorem exec_endOp_group (h : Issues endAttr g s i) (group : i.kind = .group) :
    exec (.endOp g) s = .next ((s.awake.finish i).endLanes i.core i.unit i.active) :=
  runUnit_moved h (by simp only [group])

theorem exec_endOp_lead (h : Issues endAttr g s i) (lead : i.kind = .lead) :
    exec (.endOp g) s = .next ((s.awake.finish i).endLead i.core i.unit) :=
  runUnit_moved h (by simp only [lead])

theorem exec_nop (h : Issues branchAttr g s i) : exec (.nop g) s = .next (i.finished branchAttr s.awake) :=
  runUnit_done h rfl

end Moves

/-! ### LOOP and REPEAT (R141 to R144) -/

section Loops
variable {n : RegField} {i : Issue} {count : Nat} {u : State}

/-- The body of a LOOP at i lies inside the innermost frame (R141). -/
def Issue.nestedIn (i : Issue) (n : RegField) (loops : List LoopFrame) : Prop :=
  ∀ f more, loops = f :: more → f.first.toNat ≤ i.front.pc.toNat + 4 ∧ i.front.pc.toNat + 4 * n.toNat ≤ f.last.toNat

theorem loopBody_of_nested (nested : i.nestedIn n (u.loops i)) :
    loopBody n i count u =
      let last := i.front.pc + BitVec.ofNat 32 (4 * n.toNat)
      if count = 0 then .moved (u.standsAt i (endCheck last (u.loops i)).1 (endCheck last (u.loops i)).2)
      else if 4 ≤ (u.loops i).length then i.illegal 4 u
      else .moved (u.standsAt i i.next (⟨i.next, last, count⟩ :: u.loops i)) := by
  cases stack : u.loops i with
  | nil => simp only [loopBody, stack]; rfl
  | cons f more =>
    obtain ⟨starts, ends⟩ := nested f more stack
    simp only [loopBody, stack, starts, ends, decide_true, Bool.and_self, Bool.not_true, Bool.false_eq_true, ↓reduceIte]
    rfl

variable {a : RegField} {g : GuardField} {s : State} {vals : List (Nat → Dword)}

/-- LOOP's unit is its body, with the count of the lowest active lane; a body that traps leaves no operand read. -/
theorem exec_loop (h : Issues branchAttr g s i) (long : n ≠ 0) (register : i.regOk false .nat a = true)
    (onePath : i.kind = .group → s.awake.pathCount i ≤ 1) (reads : s.awake.operands i [(.nat, a)] [] = .ok vals u)
    (nested : i.nestedIn n (u.loops i)) :
    exec (.loop a n g) s =
      let count := (nth vals 0 (lowestLane i.active)).toNat
      let last := i.front.pc + BitVec.ofNat 32 (4 * n.toNat)
      if count = 0 then .next (u.standsAt i (endCheck last (u.loops i)).1 (endCheck last (u.loops i)).2)
      else if 4 ≤ (u.loops i).length then .next (s.awake.takeTrap i ⟨Cause.illegal, 0, 0, 4⟩)
      else .next (u.standsAt i i.next (⟨i.next, last, count⟩ :: u.loops i)) := by
  have single : (i.kind == .group && decide (1 < s.awake.pathCount i)) = false := by
    cases group : i.kind with
    | group => exact decide_eq_false (Nat.not_lt.mpr (onePath group))
    | lead | run => rfl
  change execLoop a n g s = _
  rw [execLoop, runUnit_issues h]
  simp only [long, register, single, reads, loopBody_of_nested nested, decide_false, Bool.not_true, Bool.or_self,
    Bool.false_eq_true, ↓reduceIte]
  by_cases zero : (nth vals 0 (lowestLane i.active)).toNat = 0
  · simp only [zero, ↓reduceIte]
    rfl
  · by_cases full : 4 ≤ (u.loops i).length
    · simp only [zero, full, ↓reduceIte]
      exact congrArg Host.Outcome.next (enterTrap_self ..)
    · simp only [zero, full, ↓reduceIte]
      rfl

end Loops

theorem exec_repeatOp {n : RegField} {g : GuardField} {s v : State} {i : Issue} (h : Issues branchAttr g s i) (long : n ≠ 0)
    (noMod : i.front.hints.mod = none) (inBody : (s.awake.loops i).any (·.last == i.front.pc) = false)
    (notBranch : s.awake.repeatsBranch { i with front := { i.front with pc := i.next } } 5 = (some false, v)) :
    exec (.repeatOp n g) s =
      .next (((v.countMasked i).setFront i ⟨i.next, Hints.none, n.toNat, i.front.skip⟩).issued i i.front.hints.yields) :=
  runUnit_moved h (by
    simp only [long, noMod, inBody, notBranch, Option.isSome_none, decide_false, Bool.or_self, Bool.false_eq_true, ↓reduceIte])

/-- Settles O5: hints by what their unit has already, LOOP by its count and its frames. -/
theorem hintWords : Obligations.HintWords := by
  unfold Obligations.HintWords
  refine ⟨⟨fun s i => exec_hints, fun g s i => ⟨exec_yield, fun h => ⟨exec_endOp_group h, exec_endOp_lead h⟩, exec_nop⟩⟩,
    fun a n g s u v i vals h long => ⟨fun register onePath reads nested => ?_, exec_repeatOp h long⟩⟩
  rw [exec_loop h long register onePath reads nested]
  exact ⟨fun zero => if_pos zero, fun positive room => by rw [if_neg positive, if_neg (Nat.not_le.mpr room)],
    fun positive full => by rw [if_neg positive, if_pos full]⟩

end Sys2Proof.Machine
end

section
/-! PROOF. The step, by the next turn of the agenda, and the word that a stream fetches (O50). -/

namespace Sys2Proof.Machine

section Turns
variable {s u : State} {more : List Turn}

theorem step_of_turn {t : Turn} (next : s.agenda = t :: more) : step s = turn t { s with agenda := more } := by
  unfold step
  rw [next]

theorem step_of_no_turn (empty : s.agenda = []) :
    step s = .next { s with tick := s.tick + 1, agenda := [(Config.nature s.tick).turn] } := by
  unfold step
  rw [empty]

section Fetched
variable {ref : StreamRef} {i : Issue} {w : Nat} (issues : s.issue ref = some i) (fetches : s.fetchNext i = .word w u)
include issues fetches

theorem issueWord_decodes {x : Instr} (decodes : decodeWord i.front.k w = .ok x) : issueWord ref s = exec x { u with cur := some ref } := by
  simp only [issueWord, issues, fetches, decodes]

theorem issueWord_reserved {e : DecodeError} (reserved : decodeWord i.front.k w = .error e) :
    issueWord ref s = .next (runIllegal w (w / 2 ^ 26 == 0x3F || e == .reservedHint) (e == .unusedField) { u with cur := some ref }) := by
  simp only [issueWord, issues, fetches, reserved]

end Fetched

theorem step_event_runs {x : Instr} (next : s.agenda = .event x :: more) (wf : x.wellFormed = true) (event : encode x = none)
    (runs : s.eventRuns x = true) : step s = exec x { s with agenda := more } := by
  have now : ({ s with agenda := more } : State).eventRuns x = true := runs
  rw [step_of_turn next, turn, wf, event, now]
  rfl

theorem step_event_skipped {x : Instr} (next : s.agenda = .event x :: more)
    (skipped : x.wellFormed = false ∨ (encode x).isSome = true ∨ s.eventRuns x = false) : step s = .next { s with agenda := more } := by
  rw [step_of_turn next]
  refine if_neg ?_
  rw [Bool.and_eq_true, Bool.and_eq_true, Option.isNone_iff_eq_none]
  rintro ⟨⟨wf, event⟩, runs⟩
  rcases skipped with malformed | word | stopped
  · exact absurd wf (Bool.eq_false_iff.mp malformed)
  · exact absurd event (Option.isSome_iff_ne_none.mp word)
  · exact absurd runs (Bool.eq_false_iff.mp stopped)

end Turns

/-! ### The place and the word of a stream's code (R368, R392) -/

section Code
variable {s : State} {i : Issue}

theorem State.codeAddress_of_handler {y : Context} (context : s.context i.ctx = some y) (handler : i.handler = true) :
    s.codeAddress i = some (y.record.tvb + i.front.pc.toNat) := by
  simp only [State.codeAddress, context, handler, if_true]

theorem State.codeAddress_of_launch {y : Context} {l : Launch} (context : s.context i.ctx = some y) (handler : i.handler = false)
    (dispatched : s.isDispatchLead i = false) (launch : y.launch i.launch = some l) :
    s.codeAddress i = some (l.record.code + i.front.pc.toNat) := by
  simp only [State.codeAddress, context, handler, dispatched, launch, Bool.false_eq_true, if_false, Option.map_some]

variable {core ctx va pa : Nat}

/-- A place that a core's station has, in an enabled domain, is the translation at once (R227). -/
theorem State.translate_of_hit {acc queue : Nat} {who : Walker} (hit : (s.station (stationOf core)).hit ctx va acc = some (.hbm pa))
    (enabled : (s.sliceOf pa).isSome = true) :
    s.translate core ctx va acc queue who = (some (.hbm pa), s.modStation (stationOf core) (·.touch ctx va acc)) := by
  have place : (some (Place.hbm pa)).filter s.mapped = some (.hbm pa) := by rw [Option.filter_some, State.mapped, if_pos enabled]
  simp only [State.translate, hit, place]

theorem State.fetch_of_hit {who : StreamRef} (hit : (s.station (stationOf core)).hit ctx va 4 = some (.hbm pa))
    (enabled : (s.sliceOf pa).isSome = true) (sound : pa / 64 ∉ s.l2.poisoned)
    (answers : (s.modStation (stationOf core) (·.touch ctx va 4)).lineAnswers (dieOf core) (pa / 64) = true) :
    s.fetch core ctx va who = (some ((s.modStation (stationOf core) (·.touch ctx va 4)).deviceNat pa 4),
      (s.modStation (stationOf core) (·.touch ctx va 4)).readThrough (pa / 64)) := by
  have clean : (s.modStation (stationOf core) (·.touch ctx va 4)).l2.poisoned.contains (pa / 64) = false :=
    Bool.eq_false_iff.mpr fun poisoned => sound (List.contains_iff_mem.mp poisoned)
  simp only [State.fetch, State.translate_of_hit hit enabled, clean, answers, Bool.not_true, Bool.or_self, Bool.false_eq_true, if_false]

/-- A stream that no refusal awaits fetches at its code address; a dispatch lead's ring stands apart (R392). -/
theorem State.fetchNext_of_fetch {w : Nat} {u : State} (address : s.codeAddress i = some va)
    (own : s.isDispatchLead i = false ∨ i.handler = true) (unrefused : (s.core i.core).fetchRefused.find? (·.1 == i.ref) = none)
    (fetches : s.fetch i.core i.ctx va i.ref = (some w, u)) : s.fetchNext i = .word w u := by
  have notRing : (s.isDispatchLead i && !i.handler) = false := by
    rcases own with none | handler
    · rw [none]; rfl
    · rw [handler]; exact Bool.and_false _
  simp only [State.fetchNext, address, unrefused, notRing, fetches, Bool.false_eq_true, if_false]

end Code

/-- Settles O50: by the next turn, and by the code address of its stream. -/
theorem stepRunsDecoded : Obligations.StepRunsDecoded := by
  unfold Obligations.StepRunsDecoded
  intro s u ref more i w va pa x e c y l
  refine ⟨fun next issues fetches => ⟨fun decodes => ?word, fun reserved => ?illegal⟩,
    fun next => ⟨step_event_runs next, step_event_skipped next⟩, fun next => ⟨fun running => ?cycle, fun stopped => ?noCycle⟩,
    fun next => step_of_turn next, step_of_no_turn,
    fun address own unrefused hit enabled sound answers =>
      State.fetchNext_of_fetch address own unrefused (State.fetch_of_hit hit enabled sound answers),
    fun context => ⟨State.codeAddress_of_handler context, State.codeAddress_of_launch context⟩⟩
  case word => exact (step_of_turn next).trans (issueWord_decodes issues fetches decodes)
  case illegal => exact (step_of_turn next).trans (issueWord_reserved issues fetches reserved)
  case cycle => exact (step_of_turn next).trans (if_pos running)
  case noCycle => exact (step_of_turn next).trans (if_neg stopped)

end Sys2Proof.Machine
end

section
/-! PROOF. Privileged units outside privileged code trap, and those that are legal in themselves trap PRIV (O55). -/

namespace Sys2Proof.Machine

/-! ### Traps that a unit takes before PRIV (R43, R236, R405) -/

/-- An effect that leaves its unit to PRIV: no trap ILLEGAL with TINFO 0 or n, which say that hints, fields, K or values are illegal. -/
def Eff.Spares (n : Nat) : Eff → Prop
  | .trap r _ => r.cause = Cause.illegal → r.info ≠ 0 ∧ r.info ≠ BitVec.ofNat 64 n
  | _ => True

@[simp] theorem Eff.done_spares (s : State) (n : Nat) : (Eff.done s).Spares n := trivial
@[simp] theorem Eff.moved_spares (s : State) (n : Nat) : (Eff.moved s).Spares n := trivial
@[simp] theorem Eff.wait_spares (s : State) (n : Nat) : (Eff.wait s).Spares n := trivial

@[simp] theorem Issue.queueMap_spares (i : Issue) (k reason : Nat) (s : State) (n : Nat) : (i.queueMap k reason s).Spares n :=
  fun same => absurd same (show Cause.queueMap ≠ Cause.illegal by decide)

theorem Issue.trapAt_spares {i : Issue} {cause addr info n : Nat} {s : State} (other : cause ≠ Cause.illegal) :
    (i.trapAt cause addr info s).Spares n := fun same => absurd same other

section Unprivileged
variable {t : Attr} {i : Issue} {s : State} {body : Issue → State → Eff}

theorem Attr.unprivileged_of_spares (hints : t.acceptsHints i.front.hints = true) (spares : (body i s).Spares t.info) :
    t.unprivileged i s body = i.trapBare Cause.priv 0 s := by
  simp only [Attr.unprivileged, hints, Bool.not_true, Bool.false_eq_true, if_false]
  cases effect : body i s with
  | trap r u =>
    rw [effect] at spares
    refine if_neg fun blamed => ?_
    obtain ⟨illegal, info⟩ := Bool.and_eq_true_iff.mp blamed
    obtain ⟨notZero, notOwn⟩ := spares (of_decide_eq_true illegal)
    rcases Bool.or_eq_true_iff.mp info with zero | own
    · exact notZero (beq_iff_eq.mp zero)
    · exact notOwn (beq_iff_eq.mp own)
  | done | moved | wait => rfl

theorem Attr.unprivileged_of_hints (hints : t.acceptsHints i.front.hints = false) : t.unprivileged i s body = i.illegal 0 s := by
  simp only [Attr.unprivileged, hints, Bool.not_false, if_true]

theorem Attr.unprivileged_of_illegal {u : State} (hints : t.acceptsHints i.front.hints = true) (effect : body i s = i.illegal t.info u) :
    t.unprivileged i s body = i.illegal t.info s := by
  simp only [Attr.unprivileged, hints, effect, Issue.illegal, Issue.trapBare, decide_true, beq_self_eq_true, Bool.or_true, Bool.and_self,
    Bool.not_true, Bool.false_eq_true, if_false, if_true]

/-- Whatever the unit is, it traps without effect. -/
theorem Attr.unprivileged_traps (t : Attr) (i : Issue) (s : State) (body : Issue → State → Eff) :
    ∃ r, t.unprivileged i s body = .trap r s ∧ (r.cause = Cause.priv ∨ r.cause = Cause.illegal) := by
  unfold Attr.unprivileged
  split
  · exact ⟨_, rfl, .inr rfl⟩
  · split
    · split
      · next illegal => exact ⟨_, rfl, .inr (of_decide_eq_true (Bool.and_eq_true_iff.mp illegal).1)⟩
      · exact ⟨_, rfl, .inl rfl⟩
    · exact ⟨_, rfl, .inl rfl⟩

/-- A privileged word in code that is not privileged is settled by `Attr.unprivileged`. -/
theorem runUnit_unprivileged {g : GuardField} {j : Issue} {r : TrapRec} (marked : t.p = true) (reaches : Reaches t g s j)
    (on : s.activeLanes t g j ≠ 0) (place : t.legalIn j.kind = true) (handler : (t.noHandler && j.handler) = false)
    (mode : j.priv = false)
    (traps : t.unprivileged { j with active := s.activeLanes t g j } s.awake body = .trap r s.awake) :
    runUnit t g body s = .next (s.awake.takeTrap { j with active := s.activeLanes t g j } r) := by
  have checked : t.checked { j with active := s.activeLanes t g j } s.awake body = .trap r s.awake := by
    simpa only [Attr.checked, place, handler, marked, mode, Bool.not_true, Bool.not_false, Bool.and_self, Bool.false_eq_true, if_false,
      if_true] using traps
  rw [runUnit_reaches reaches, if_neg on, checked]
  exact congrArg Host.Outcome.next (enterTrap_self ..)

end Unprivileged

/-! ### What operands, results and pages leave to PRIV -/

section Stages
variable {s u : State} {i : Issue} {n : Nat}

theorem PageError.cause_ne_illegal (e : PageError) : e.cause ≠ Cause.illegal := by cases e <;> decide

theorem CoreState.pageAccess_refused {k : CoreState} {ctx page cause : Nat} {who : Option Issuer}
    (refused : k.pageAccess ctx page who = .refused cause) : cause ≠ Cause.illegal := by
  obtain ⟨e, rfl⟩ : ∃ e : PageError, cause = e.cause := by
    unfold CoreState.pageAccess at refused
    grind
  exact e.cause_ne_illegal

/-- A refused page traps with the cause of its refusal (R223, R380). -/
theorem State.pages_refused {c ctx a cause : Nat} {addrs : List Nat} {who : Option Issuer}
    (refused : s.pages c ctx addrs who = .refused a cause u) : cause ≠ Cause.illegal := by
  unfold State.pages at refused
  dsimp only at refused
  split at refused
  · next first =>
    obtain ⟨b, -, found⟩ := List.exists_of_findSome?_eq_some first
    cases refused
    split at found
    · next access =>
      cases found
      exact CoreState.pageAccess_refused access
    · cases found
  · split at refused <;> cases refused

theorem State.queueCheck_spares {pops pushes : List Nat} {e : Eff} (stops : s.queueCheck i pops pushes = some e) : e.Spares n := by
  unfold State.queueCheck at stops
  dsimp only at stops
  repeat' split at stops
  all_goals cases stops
  all_goals simp only [Issue.queueMap_spares, Eff.wait_spares]

theorem State.operands_spares {srcs : List (Cls × RegField)} {dsts : List RegField} {e : Eff}
    (stops : s.operands i srcs dsts = .stop e) : e.Spares n := by
  unfold State.operands at stops
  dsimp only at stops
  split at stops
  · next check => cases stops; exact State.queueCheck_spares check
  · split at stops <;> cases stops
    exact trivial

theorem State.operandsAfter_spares {srcs : List (Cls × RegField)} {dsts : List RegField} {e : Eff}
    {early : List (Nat → Dword) → Option Eff}
    (passes : s.valuesOk i srcs dsts fun v => early v = none) (stops : s.operandsAfter i srcs dsts early = .stop e) : e.Spares n := by
  obtain ⟨before, after⟩ := passes
  unfold State.operandsAfter at stops
  rw [before] at stops
  split at stops
  · cases stops; exact trivial
  · cases read : s.operands i srcs dsts with
    | stop e' =>
      simp only [read] at stops
      cases stops
      exact State.operands_spares read
    | ok v u => simp only [read, after v u read] at stops; cases stops

theorem State.operands_of_operandsAfter {srcs : List (Cls × RegField)} {dsts : List RegField}
    {early : List (Nat → Dword) → Option Eff} {v : List (Nat → Dword)} (reads : s.operandsAfter i srcs dsts early = .ok v u) :
    s.operands i srcs dsts = .ok v u := by
  unfold State.operandsAfter at reads
  split at reads
  · cases reads
  · split at reads
    · cases reads
    · split at reads
      · cases reads
      · next read =>
        split at reads <;> cases reads
        exact read

theorem State.leadPush_spares (s u : State) (i : Issue) (k : Nat) (v : Dword) (n : Nat) : (s.leadPush u i k v).Spares n := by
  unfold State.leadPush
  dsimp only
  split
  · exact trivial
  · split
    · exact trivial
    · split
      · exact Issue.trapAt_spares (by decide)
      · split
        · exact Issue.trapAt_spares (by decide)
        · split
          · next refused => exact Issue.trapAt_spares (State.pages_refused refused)
          · exact trivial
          · exact trivial

theorem State.result_spares (s u : State) (i : Issue) (c : Cls) (f : RegField) (v : Nat → Dword) (n : Nat) :
    (s.result u i c f v).Spares n := by
  unfold State.result
  dsimp only
  repeat' split
  · exact trivial
  · exact State.leadPush_spares ..
  · exact trivial

/-- LSPIN's attempt is refused with the cause of a page. -/
theorem State.pinAttempt_refused {pages : List Nat} {r : TrapRec} (refused : s.pinAttempt i pages = .refused r u) :
    r.cause ≠ Cause.illegal := by
  unfold State.pinAttempt at refused
  dsimp only at refused
  split at refused
  · next page =>
    cases refused
    exact State.pages_refused page
  · cases refused
  · split at refused <;> cases refused

theorem State.accessing_spares {α : Type} {v : State → Access α} {k : α → State → Eff}
    (refuses : ∀ t r w, v t = .refused r w → r.cause ≠ Cause.illegal) (goesOn : ∀ a w, (k a w).Spares n) :
    (s.accessing v u k).Spares n := by
  unfold State.accessing
  split
  · exact goesOn ..
  · next refused =>
    split
    · next own => exact fun same => absurd same (refuses _ _ _ own)
    · exact fun same => absurd same (refuses _ _ _ refused)
  · split <;> exact trivial

end Stages

/-! ### The privileged words -/

/-- What a word runs is a unit whose body spares it, where its fields, K and operand values are legal. -/
def SparedWhenLegal (x : Instr) (run : State → Host.Outcome State Fault Refusal) (t : Attr) (g : GuardField) : Prop :=
  ∃ body, (∀ s, run s = runUnit t g body s) ∧ ∀ s i, s.legalFields i x → (body i s).Spares t.info

section Wide
variable {x : Instr} {run : State → Host.Outcome State Fault Refusal} {t : Attr} {g : GuardField}
  {a b : RegField} {write : List RegField} {illegal : Issue → Bool}
  {early : Issue → Dword → Dword → State → Option Eff} {f : Issue → Dword → Dword → State → State → Eff}

/-- What spares an E-format word: its registers, its own check, the checks of its values, and what it does with them. -/
structure SparesWide (t : Attr) (a b : RegField) (write : List RegField) (illegal : Issue → Bool)
    (early : Issue → Dword → Dword → State → Option Eff) (f : Issue → Dword → Dword → State → State → Eff)
    (i : Issue) (s : State) : Prop where
  readA : i.regOk false .pair a = true
  readB : i.regOk false .pair b = true
  writable : (write.all fun r => i.regOk true .pair r) = true
  fields : illegal i = false
  values : s.valuesOk i [(.pair, a), (.pair, b)] write fun v =>
    early i (nth v 0 (lowestLane i.active)) (nth v 1 (lowestLane i.active)) s = none
  effect : ∀ v u, s.operands i [(.pair, a), (.pair, b)] write = .ok v u →
    (f i (nth v 0 (lowestLane i.active)) (nth v 1 (lowestLane i.active)) s u).Spares t.info

theorem sparedWhenLegal_of_wide (word : ∀ s, run s = twoWideAfter t a b write g illegal early f s)
    (spares : ∀ s i, s.legalFields i x → SparesWide t a b write illegal early f i s) : SparedWhenLegal x run t g := by
  refine ⟨_, word, fun s i legal => ?_⟩
  obtain ⟨readA, readB, writable, fields, values, effect⟩ := spares s i legal
  simp only [readA, readB, writable, fields, Bool.not_true, Bool.or_self, Bool.false_eq_true, if_false]
  split
  · next stops => exact State.operandsAfter_spares values stops
  · next reads => exact effect _ _ (State.operands_of_operandsAfter reads)

/-- The same where no value is checked before QUEUE_MAP. -/
theorem sparedWhenLegal_of_unchecked (word : ∀ s, run s = twoWide t a b write g illegal f s)
    (spares : ∀ s i, s.legalFields i x → SparesWide t a b write illegal (fun _ _ _ _ => none) f i s) : SparedWhenLegal x run t g :=
  sparedWhenLegal_of_wide (early := fun _ _ _ _ => none) word spares

theorem State.valuesOk_unchecked (s : State) (i : Issue) (srcs : List (Cls × RegField)) (dsts : List RegField) :
    s.valuesOk i srcs dsts fun _ => none = (none : Option Eff) := ⟨rfl, fun _ _ _ => rfl⟩

end Wide

section Words
variable {a b : RegField} {g : GuardField}

theorem maintain_spares (invalidate : Bool) (i : Issue) (x y : Dword) (s u : State) :
    (maintain invalidate i x y s u).Spares pageAttr.info := by
  unfold maintain
  dsimp only
  split
  · exact fun _ => by decide
  · split
    · exact Issue.trapAt_spares (by decide)
    · split
      · exact fun _ => by decide
      · split <;> exact trivial

theorem l2wb_spared : SparedWhenLegal (.l2wb a b g) (execL2wb a b g) pageAttr g :=
  sparedWhenLegal_of_unchecked (fun _ => rfl) fun s _ ⟨readA, readB, small⟩ =>
    ⟨readA, readB, rfl, decide_eq_false (Nat.not_lt.mpr small), s.valuesOk_unchecked .., fun _ _ _ => maintain_spares ..⟩

theorem l2inv_spared : SparedWhenLegal (.l2inv a b g) (execL2inv a b g) pageAttr g :=
  sparedWhenLegal_of_unchecked (fun _ => rfl) fun s _ ⟨readA, readB, small⟩ =>
    ⟨readA, readB, rfl, decide_eq_false (Nat.not_lt.mpr small), s.valuesOk_unchecked .., fun _ _ _ => maintain_spares ..⟩

theorem tsinv_spared : SparedWhenLegal (.tsinv a b g) (execTsinv a b g) pageAttr g := by
  refine sparedWhenLegal_of_unchecked (fun _ => rfl) fun s i ⟨readA, readB, small, scope, allZero⟩ =>
    ⟨readA, readB, rfl, ?_, s.valuesOk_unchecked .., fun v u _ => ?_⟩
  · rw [Nat.testBit_eq_decide_div_mod_eq, decide_eq_true_eq] at allZero
    simp only [Bool.or_eq_false_iff, Bool.and_eq_false_iff, decide_eq_false_iff_not, beq_eq_false_iff_ne, bne_eq_false_iff_eq, not_le]
    exact ⟨⟨small, scope⟩, or_iff_not_imp_left.mpr fun all => allZero (not_not.mp all)⟩
  · dsimp only
    split
    · exact Issue.trapAt_spares (by decide)
    · split
      · exact fun _ => by decide
      · exact trivial

/-- What LSPIN and LSUNPIN check of their operands leaves them to PRIV. -/
theorem pinUnit_spared {x : Instr} {run : State → Host.Outcome State Fault Refusal} {f : Issue → List Nat → State → State → Eff}
    (word : ∀ s, run s = pinUnit f a b g s)
    (legal : ∀ s i, State.legalFields s i x → State.legalFields.updates i a b ∧ i.k = 0)
    (pins : ∀ i pages s u, (f i pages s u).Spares pageAttr.info) : SparedWhenLegal x run pageAttr g := by
  refine sparedWhenLegal_of_unchecked word fun s i fields => ?_
  obtain ⟨⟨readA, readB, writeA⟩, zero⟩ := legal s i fields
  refine ⟨readA, readB, by simp [writeA], decide_eq_false (not_not.mpr zero), s.valuesOk_unchecked .., fun v u _ => ?_⟩
  split
  · exact Issue.trapAt_spares (by decide)
  · split
    · exact Issue.trapAt_spares (by decide)
    · split
      · exact fun _ => by decide
      · exact pins ..

theorem lspin_spared : SparedWhenLegal (.lspin a b g) (execLspin a b g) pageAttr g := by
  refine pinUnit_spared (fun _ => rfl) (fun _ _ legal => legal) fun i pages s u => ?_
  unfold State.pinPages
  dsimp only
  split
  · exact State.result_spares ..
  · split
    · exact State.result_spares ..
    · exact State.accessing_spares (fun t r w => State.pinAttempt_refused) fun _ _ => State.result_spares ..

theorem lsunpin_spared : SparedWhenLegal (.lsunpin a b g) (execLsunpin a b g) pageAttr g :=
  pinUnit_spared (fun _ => rfl) (fun _ _ legal => legal)
    fun _ _ _ _ => State.result_spares ..

/-- CSAVE's operands, once its K names the operation. -/
theorem csaveUnit_spared {x : Instr} {run : State → Host.Outcome State Fault Refusal} {op : Nat} {bad : Nat → Bool}
    {f : Issue → Nat → Nat → State → State → Option (Nat × State)}
    {ok : Nat → Prop} (word : ∀ s, run s = csaveUnit op a b g bad f s) (good : ∀ y, ok y → bad y = false)
    (legal : ∀ s i, State.legalFields s i x → State.legalFields.updates i a b ∧ i.k = op ∧ State.legalFields.named s i a b ok) :
    SparedWhenLegal x run systemAttr g := by
  refine sparedWhenLegal_of_wide word fun s i fields => ?_
  obtain ⟨⟨readA, readB, writeA⟩, names, before, after⟩ := legal s i fields
  have accepts {n m : Nat} (values : n < 2 ^ 16 ∧ ok m) : (decide (2 ^ 16 ≤ n) || bad m) = false :=
    Bool.or_eq_false_iff.mpr ⟨decide_eq_false (Nat.not_le.mpr values.1), good m values.2⟩
  refine ⟨readA, readB, by simp [writeA], decide_eq_false (not_not.mpr names), ⟨?_, fun v u read => ?_⟩, fun v u _ => ?_⟩
  · exact if_neg (Bool.eq_false_iff.mp (accepts before))
  · exact if_neg (Bool.eq_false_iff.mp (accepts (after v u read)))
  · split
    · exact State.result_spares ..
    · exact trivial

theorem csaveCreate_spared : SparedWhenLegal (.csaveCreate a b g) (execCsaveCreate a b g) systemAttr g :=
  csaveUnit_spared (fun _ => rfl) (fun y ok => by simpa using ok) fun _ _ legal => legal

theorem csavePlace_spared : SparedWhenLegal (.csavePlace a b g) (execCsavePlace a b g) systemAttr g :=
  csaveUnit_spared (fun _ => rfl) (fun y ok => by simpa using ok) fun _ _ legal => legal

theorem csaveSave_spared : SparedWhenLegal (.csaveSave a b g) (execCsaveSave a b g) systemAttr g :=
  csaveUnit_spared (fun _ => rfl) (fun y ok => by simpa using ok) fun _ _ legal => legal

theorem csaveDestroy_spared : SparedWhenLegal (.csaveDestroy a b g) (execCsaveDestroy a b g) systemAttr g :=
  csaveUnit_spared (fun _ => rfl) (fun y ok => by simpa using ok)
    fun _ _ legal => legal

theorem csaveStatus_spared : SparedWhenLegal (.csaveStatus a b g) (execCsaveStatus a b g) systemAttr g :=
  csaveUnit_spared (fun _ => rfl) (fun y ok => by simpa using ok)
    fun _ _ legal => legal

/-- gz and sz are registers of every stream (R30). -/
theorem Issue.regOk_zero (i : Issue) (write : Bool) : i.regOk write .pair 60 = true := by
  unfold Issue.regOk
  cases i.kind <;> rfl

theorem sysr_spared : SparedWhenLegal (.sysr a g) (execSysr a g) systemAttr g := by
  refine sparedWhenLegal_of_wide (fun _ => rfl) fun s i ⟨writeA, named⟩ => ?_
  obtain ⟨v, named⟩ := Option.isSome_iff_exists.mp named
  have reads : i.noRegister s = none := noRegister_of_some named
  refine ⟨i.regOk_zero _, i.regOk_zero _, by simp [writeA], rfl, ⟨reads, fun _ _ _ => reads⟩, fun _ _ _ => ?_⟩
  simp only [named]
  exact State.result_spares ..

/-- A register that reads before a unit can be written once its operands are read (R404). -/
theorem State.writeSystem_of_read {s u : State} {i : Issue} (same : u.contexts = s.contexts) (named : (s.readSystem i).isSome = true)
    (v : Dword) : (if i.k < 2 ^ 16 then u.writeBank0 i i.k v else u.writeBank1 (i.k - 2 ^ 16) v).isSome = true := by
  unfold State.readSystem at named
  split at named
  · next bank0 =>
    have context : (s.context i.ctx).isSome = true := by
      refine Option.isSome_iff_ne_none.mpr fun missing => ?_
      simp [State.readBank0, missing] at named
    have there : (u.context i.ctx).isSome = true := by rw [State.context, same]; exact context
    rw [if_pos bank0, State.writeBank0_isSome_iff there, ← State.readBank0_isSome_iff context]
    exact named
  · next bank1 =>
    split at named
    · rw [if_neg bank1, State.writeBank1_isSome_iff, ← State.readBank1_isSome_iff (s := s)]
      exact named
    · cases named

theorem sysw_spared : SparedWhenLegal (.sysw a g) (execSysw a g) systemAttr g := by
  refine sparedWhenLegal_of_wide (fun _ => rfl) fun s i ⟨readA, named⟩ => ?_
  obtain ⟨w, register⟩ := Option.isSome_iff_exists.mp named
  have reads : i.noRegister s = none := noRegister_of_some register
  refine ⟨readA, i.regOk_zero _, rfl, rfl, ⟨reads, fun _ _ _ => reads⟩, fun v u read => ?_⟩
  have sources : ([(Cls.pair, a), (Cls.pair, 60)].all fun x => i.regOk false x.1 x.2) = true := by
    simp only [List.all_cons, readA, i.regOk_zero false, List.all_nil, Bool.and_self]
  obtain ⟨t, written⟩ := Option.isSome_iff_exists.mp
    (State.writeSystem_of_read (sameOutside_operands sources read).contexts named (nth v 0 (lowestLane i.active)))
  split
  · unfold writeCommit
    split <;> exact trivial
  · rw [written]
    exact trivial

theorem halt_spared : SparedWhenLegal (.halt a g) (execHalt a g) systemAttr g := by
  refine ⟨_, fun _ => rfl, fun s i ⟨readA, zero, before, after⟩ => ?_⟩
  simp only [readA, zero, Bool.not_true, Bool.false_eq_true, ne_eq, not_true_eq_false, if_false]
  split
  · next stops =>
    refine State.operandsAfter_spares ⟨?_, fun v u read => ?_⟩ stops
    · cases queue : isQueue a with
      | true => exact if_pos (by simp [queue])
      | false =>
        have one := before.resolve_left (by simp [queue])
        exact if_pos (by simp [queue, one])
    · exact if_pos (by simp [after v u read])
  · next v u reads =>
    simp only [after v u (State.operands_of_operandsAfter reads)]
    exact trivial

end Words

/-! ### RTE outside a trap handler, and the statement -/

/-- Code that is not privileged is no trap handler (R395). -/
theorem State.handler_of_issue {s : State} {ref : StreamRef} {j : Issue} (issue : s.issue ref = some j) (mode : j.priv = false) :
    j.handler = false := by
  cases ref with
  | group c u p =>
    simp only [State.issue, Option.bind_eq_some_iff, Option.ite_none_left_eq_some, Option.some.injEq] at issue
    obtain ⟨r, -, x, -, path, -, -, rfl⟩ := issue
    exact (Bool.or_eq_false_iff.mp mode).1
  | lead c u =>
    simp only [State.issue, Option.bind_eq_some_iff, Option.ite_none_left_eq_some, Option.some.injEq] at issue
    obtain ⟨r, -, x, -, lead, -, -, rfl⟩ := issue
    exact (Bool.or_eq_false_iff.mp mode).1
  | run c k =>
    simp only [State.issue, Option.bind_eq_some_iff, Option.ite_none_left_eq_some, Option.some.injEq] at issue
    obtain ⟨r, -, ⟨id, x⟩, -, -, rfl⟩ := issue
    rfl

theorem execRte_outside (g : GuardField) : ∃ body, (∀ s, execRte g s = runUnit systemAttr g body s) ∧
    ∀ s i, i.handler = false → body i s = i.illegal 28 s := by
  refine ⟨_, fun _ => rfl, fun s i outside => ?_⟩
  simp only [State.handled, outside, Bool.not_false, if_true]

/-- Every privileged word is marked P, and spared where it is legal in itself. -/
theorem exec_of_privileged {x : Instr} {t : Attr} {g : GuardField} (h : privileged x = some (t, g)) :
    t.p = true ∧ SparedWhenLegal x (exec x) t g := by
  unfold privileged at h
  split at h <;> cases h <;> refine ⟨rfl, ?_⟩
  · obtain ⟨body, asUnit, -⟩ := execRte_outside g
    exact ⟨body, asUnit, fun _ _ never => never.elim⟩
  · exact sysr_spared
  · exact sysw_spared
  · exact halt_spared
  · exact l2wb_spared
  · exact l2inv_spared
  · exact tsinv_spared
  · exact lspin_spared
  · exact lsunpin_spared
  · exact csaveCreate_spared
  · exact csavePlace_spared
  · exact csaveSave_spared
  · exact csaveDestroy_spared
  · exact csaveStatus_spared

/-- Settles O55: by what each privileged word spares. -/
theorem privilegedTraps : Obligations.PrivilegedTraps := by
  unfold Obligations.PrivilegedTraps
  intro x t g s j h reaches on place handler mode
  obtain ⟨marked, body, asUnit, spares⟩ := exec_of_privileged h
  have traps {body r} := runUnit_unprivileged (body := body) (r := r) marked reaches on place handler mode
  refine ⟨fun hints legal => ?priv, fun hints => ?malformed, fun hints rte => ?rte, ?any⟩
  case priv => exact (asUnit s).trans (traps (Attr.unprivileged_of_spares hints (spares _ _ legal)))
  case malformed => exact (asUnit s).trans (traps (Attr.unprivileged_of_hints hints))
  case rte =>
    subst rte
    cases h
    obtain ⟨ref, -, issue⟩ := Option.bind_eq_some_iff.mp reaches.stream
    have outsideHandler : j.handler = false := State.handler_of_issue issue mode
    obtain ⟨body, asRte, outside⟩ := execRte_outside g
    exact (asRte s).trans (traps (Attr.unprivileged_of_illegal hints (outside _ _ outsideHandler)))
  case any =>
    obtain ⟨r, trap, cause⟩ := t.unprivileged_traps { j with active := s.activeLanes t g j } s.awake body
    exact ⟨r, (asUnit s).trans (traps trap), cause⟩

end Sys2Proof.Machine
end
